-- ==== Sys2Proof/Word.lean ====
section
/-! DEFINITION. The word types: a byte, and the 32-bit word that every CSR is (R17). -/

namespace Sys2Proof

/-- A byte. -/
abbrev Byte := BitVec 8

/-- A CSR word (R17). -/
abbrev Word := BitVec 32

end Sys2Proof
end

