-- ==== Sys2Proof/Syntax.lean ====
section
/-! DEFINITION. The commands and events of the Z512, one constructor per row of the spec's operation table, in the table's
order.  An operand names what the event is about (a port, a lane, a core and its register fields), what arrives from outside
with it (frame bytes, a frame of the Joring link, a reading), or what the hardware is free to pick (a free block's address).
Indices that the spec bounds are `Fin`; AUX0 and AUX1 are lanes, MAC ports and time ports 512 and 513. -/

namespace Sys2Proof

/-- One operation or event of the chip. -/
inductive Instr where
  /-- RECEIVE_FRAME (R136): A frame's start block crosses the ingress MAC plane in its header slot at t0, is stamped and parsed, and runs the twelve ingress stages. -/
  | receiveFrame (p : Fin 514) (ecc : List (Nat × Nat × Nat))
  /-- FRAME_END_INGRESS (R98): The frame's last byte passes the ingress MAC plane: FCS and length are checked, stomps or drops applied, byte counts and meter debits taken. -/
  | frameEndIngress (f : Nat)
  /-- FRAME_ENQUEUE (R183): At the ingress deparse the frame's disposition is settled, its block requested and copies admitted to queues. -/
  | frameEnqueue (f : Nat) (cells : List Nat) (ecc : Fin 3)
  /-- POOL_FALLBACK (R226): A request its pool could not meet is made to the next larger pool one cc later, or refused after B64. -/
  | poolFallback (f : Nat) (cells : List Nat) (ecc : Fin 3)
  /-- RECIRC_PASS (R139): A recirculated frame takes the return lane into its parser for another pass, or is refused. -/
  | recircPass (f : Nat) (ecc : List (Nat × Nat × Nat))
  /-- CELL_WRITE_GRANT (R217): A stripe grants one writer's oldest cell per cc by the rotating pointer. -/
  | cellWriteGrant (st : Fin 128)
  /-- CELL_READ_GRANT (R40): A stripe grants one reader's cell read per cc, and the cell is checked and delivered 4 cc later. -/
  | cellReadGrant (st : Fin 128) (errs : List (Nat × Nat))
  /-- DEQUEUE_DECISION (R253): A port's scheduler dequeues one eligible copy by level and DWRR 18 cc before the port is free. -/
  | dequeueDecision (p : Fin 512)
  /-- METERED_DEQUEUE (R256): A metered Q10 or Q11 frame is dequeued at D − 18 after R34 is judged for D. -/
  | meteredDequeue (p : Fin 512)
  /-- EGRESS_PIPELINE (R186): The copy's first cell feeds the egress parser and six egress stages, which may drop it. -/
  | egressPipeline (c : Nat) (ecc : List (Nat × Nat × Nat))
  /-- EGRESS_MAC_START (R23): The copy's start block passes to the transmit PCS at cc S and is stamped. -/
  | egressMacStart (c : Nat) (cells : List (List Nat))
  /-- TRANSMIT_UNDERRUN (R101): A cell not arrived when needed ends the frame with an inverted FCS and raises the ingress port's threshold. -/
  | transmitUnderrun (c : Nat)
  /-- FRAME_TX_END (R231): A copy's last cell is delivered and sent, its reference released and its egress counts taken. -/
  | frameTxEnd (c : Nat) (ecc : Fin 3) (cells : List (List Nat))
  /-- GENERATED_FRAME_SEND (R104): A generated pause, PFC, hello or direct frame starts at the next frame boundary ahead of every queue. -/
  | generatedFrameSend (p : Fin 514)
  /-- XOFF_CHANGE (R248): An ingress priority enters or leaves XOFF and the MAC requests a pause or PFC frame. -/
  | xoffChange (p : Fin 512) (pr : Fin 8)
  /-- FC_RESEND (R104): While a priority stays in XOFF the flow-control frame is resent each half QUANTA. -/
  | fcResend (p : Fin 512)
  /-- PAUSE_DECODE (R103): An Annex 31B pause frame takes effect 20 cc after its FCS ends. -/
  | pauseDecode (p : Fin 512)
  /-- PFC_DECODE (R103): A PFC frame restarts its priorities' timers 20 cc after its FCS ends. -/
  | pfcDecode (p : Fin 512)
  /-- PAUSE_TIMER_EXPIRY (R103): A pause timer expires and its queues are released. -/
  | pauseTimerExpiry (p : Fin 512)
  /-- RESIDUE_ADMIT (R251): The oldest pending residue copy of a queue is judged and admitted when there is room. -/
  | residueAdmit (p : Fin 512) (q : Fin 12)
  /-- RESIDUE_EXPIRY (R252): A frame's pending residue copies expire after RES_MAX and are dropped. -/
  | residueExpiry (f : Nat)
  /-- GATE_STATE_CHANGE (R258): The operational gate list opens or closes gates at its entry boundary. -/
  | gateStateChange (p : Fin 512)
  /-- GATE_SWAP_REQUEST (R259): A SWAP write latches the administrative list and sets PENDING, or is refused. -/
  | gateSwapRequest (p : Fin 512)
  /-- GATE_SWAP (R259): At t_sw the administrative list becomes operational. -/
  | gateSwap (p : Fin 512)
  /-- LPI_ENTRY (R105): After IDLE_US of idle a port enters transmit LPI and may request Ember. -/
  | lpiEntry (p : Fin 512)
  /-- LPI_EXIT (R105): A non-empty queue or pending generated frame requests exit from LPI and holds the queues. -/
  | lpiExit (p : Fin 512)
  /-- LPI_WAKE_END (R105): TW_TX_US after the exit request the queues are released. -/
  | lpiWakeEnd (p : Fin 512)
  /-- PORT_UP (R106): A port whose lanes are in DATA without faults enters UP or HELD and the traffic manager gets port-up. -/
  | portUp (p : Fin 514)
  /-- FLUSH_DONE (R263): The flush ends, FLUSH_DONE is set and a HELD port enters UP. -/
  | flushDone (p : Fin 512) (ecc : Fin 3)
  /-- LOCAL_FAULT_RX (R106): A received local fault takes the port DOWN. -/
  | localFaultRx (p : Fin 514) (on : Bool)
  /-- REMOTE_FAULT_RX (R106): A received remote fault makes an UP port send idle and hold its queues. -/
  | remoteFaultRx (p : Fin 514)
  /-- REMOTE_FAULT_TIMEOUT (R106): A remote fault received continuously for 1 ms takes the port DOWN. -/
  | remoteFaultTimeout (p : Fin 514)
  /-- REPIN_START (R159): After a port-down the re-pin engine waits for an OPEN shadow and rewrites PIN buckets to survivors. -/
  | repinStart (p : Fin 512)
  /-- REPIN_DONE (R159): The re-pin engine completes, sets DONE and PORT and interrupts Stoker. -/
  | repinDone
  /-- WHOLE_SECOND_TICK (R102): At each whole second thresholds decay and the correction window restarts. -/
  | wholeSecondTick
  /-- MAC_CT_WRITE (R102): A T_BASE write above T_CUR raises T_CUR at once. -/
  | macCtWrite (p : Fin 514) (base : Fin 64)
  /-- REFCLK_LOST (R74): A REFCLK input loses PRESENT, CLOCK is raised and its octets' lanes go to OFF. -/
  | refclkLost (k : Fin 8)
  /-- REFCLK_PRESENT (R490): A running clock is detected on a REFCLK input. -/
  | refclkPresent (k : Fin 8)
  /-- PLL_LOCK (R490): An octet PLL locks and its enabled lanes leave OFF for WAIT_SIG. -/
  | pllLock (o : Fin 65)
  /-- LANE_ENABLE (R78): EN = 1 with the PLL locked starts a training attempt in WAIT_SIG. -/
  | laneEnable (n : Fin 514)
  /-- LANE_DISABLE (R78): EN = 0 sends the lane to OFF and clears FAILS. -/
  | laneDisable (n : Fin 514)
  /-- LANE_LOOP_CHANGE (R90): A change of LOOP sends the lane to OFF and then into the selected loopback. -/
  | laneLoopChange (n : Fin 514) (loop : Fin 8)
  /-- PARTNER_FRAME_LOCK (R78): Three consecutive partner training frames move the lane from WAIT_SIG to TRAIN. -/
  | partnerFrameLock (n : Fin 514)
  /-- TRAIN_CONVERGED (R78): Local convergence with partner requests done moves the lane to CONFIRM. -/
  | trainConverged (n : Fin 514)
  /-- PARTNER_READY (R78): The partner reports receiver ready and the lane moves to ALIGN. -/
  | partnerReady (n : Fin 514)
  /-- PORT_ALIGNED (R78): Every lane of the port locked within skew moves all lanes to DATA. -/
  | portAligned (p : Fin 514) (skews : List Nat)
  /-- TRAINING_SIGNAL_LOSS (R78): No signal for 1 µs during training returns the port's lanes to WAIT_SIG. -/
  | trainingSignalLoss (n : Fin 514)
  /-- TRAIN_TMO_EXPIRY (R79): TRAIN_TMO expires, the attempt fails and the lanes enter BACKOFF. -/
  | trainTmoExpiry (n : Fin 514)
  /-- BACKOFF_END (R79): The back-off wait ends and a new attempt begins. -/
  | backoffEnd (n : Fin 514)
  /-- BACKOFF_SIGNAL_PRESENT (R80): 100 µs of continuous signal during BACKOFF starts a new attempt. -/
  | backoffSignalPresent (n : Fin 514)
  /-- LANE_FAILURE (R81): A lane in DATA fails on signal, lock, FEC or marker and the port's lanes return to WAIT_SIG. -/
  | laneFailure (n : Fin 514) (cause : Fin 16) (fec : List (Nat × Nat))
  /-- MARKER_RECEIVED (R71): An alignment marker is checked and marker lock gained or lost. -/
  | markerReceived (n : Fin 514) (good : Bool) (m : BitVec 257) (pairs : Nat) (fec : List (Nat × Nat))
  /-- ADAPTATION_FREEZE (R83): An idle run longer than FREEZE_RUN freezes adaptation. -/
  | adaptationFreeze (n : Fin 514)
  /-- ADAPTATION_RESUME (R83): The first non-idle block resumes adaptation at training gains. -/
  | adaptationResume (n : Fin 514)
  /-- EMBER_ENTRY (R85): The transmitter enters electrical idle at a codeword boundary after LPI blocks. -/
  | emberEntry (n : Fin 514)
  /-- RX_EMBER_ENTRY (R85): A receiver seeing electrical idle after LPI blocks enters Ember. -/
  | rxEmberEntry (n : Fin 514)
  /-- EMBER_REFRESH (R86): The transmitter sends a refresh burst at its fixed period. -/
  | emberRefresh (n : Fin 514)
  /-- EMBER_REFRESH_MISS (R86): Three missed refresh periods declare loss of signal. -/
  | emberRefreshMiss (n : Fin 514)
  /-- EMBER_EXIT (R87): The transmitter sends one burst and then data. -/
  | emberExit (n : Fin 514)
  /-- PRBS_ENABLE (R88): Setting or clearing GEN_EN or CHK_EN moves the lane into or out of PRBS. -/
  | prbsEnable (n : Fin 514) (gen : Bool) (chk : Bool) (pattern : Fin 16)
  /-- INSERT_ERR (R89): One bit of the generated pattern is inverted. -/
  | insertErr (n : Fin 514)
  /-- PRBS_CHECKER_LOCK (R89): 1,024 error-free bits give CHK_LOCK. -/
  | prbsCheckerLock (n : Fin 514) (bits : List Bool)
  /-- PRBS_LOCK_LOST (R89): More than 64 errors in 1,024 bits lose lock and re-seed. -/
  | prbsLockLost (n : Fin 514) (bits : List Bool)
  /-- LANE_AUX_CFG_WRITE (R92): A RATE write to an AUX lane takes effect at once, or is refused with CFG_ERR. -/
  | laneAuxCfgWrite (a : Fin 2) (rate : Fin 8)
  /-- LANE_CNT_CLR (R93): Clears a lane's four counters in one cc. -/
  | laneCntClr (n : Fin 514)
  /-- COUNTER_LO_READ (R93): A read of a 48-bit counter's _LO snapshots its _HI half. -/
  | counterLoRead (m : Fin 6) (a : BitVec 48)
  /-- AUX_SLEEP (R109): SLEEP = 1 takes an AUX port to DISABLED and powers it down. -/
  | auxSleep (a : Fin 2)
  /-- AUX_WAKE_PATTERN (R109): The wake pattern clears SLEEP, sets WAKE, interrupts Stoker and starts the lane. -/
  | auxWakePattern (a : Fin 2)
  /-- MAC_CNT_CLR (R110): Clears a port's 17 counters in one cc. -/
  | macCntClr (p : Fin 514)
  /-- TRUNK_FRAME_RX (R118): A member receives a trunk frame: alignment, member state, overhead and Flue byte are processed. -/
  | trunkFrameRx (n : Fin 512) (bytes : List Byte) (gap : Nat)
  /-- TRUNK_FRAME_TX (R121): At each frame boundary the transmitter forms ACT_MAP and sends the overhead on every member. -/
  | trunkFrameTx (sl : Fin 32) (g : Fin 8) (td : Byte)
  /-- DESKEW_RELEASE (R120): A frame's group blocks are released once the latest USABLE member's frame has arrived. -/
  | deskewRelease (sl : Fin 32) (g : Fin 8)
  /-- FLUE_RX_READ (R130): A read of TRK_FSP_RX removes the oldest received Flue byte. -/
  | flueRxRead (k : Fin 4)
  /-- FLUE_TX_WRITE (R130): A write to TRK_FSP_TX appends a byte, or sets TX_FULL. -/
  | flueTxWrite (k : Fin 4) (b : Byte)
  /-- TRK_MEM_CNT_CLR (R132): Clears a member's three counters in one cc. -/
  | trkMemCntClr (n : Fin 512)
  /-- PRS_PROG_DATA_ACCESS (R141): An access to PRS_PROG_DATA reads or writes a shadow program word and may auto-increment ADDR. -/
  | prsProgDataAccess (sl : Fin 32) (wr : Bool) (v : Word)
  /-- PRS_CNT_CLR (R161): Clears a slice's six PRS counters in one cc. -/
  | prsCntClr (sl : Fin 32)
  /-- TABLE_SRAM_WRITE (R157): A GO writes an SRAM row through the access port, subject to R155. -/
  | tableSramWrite (sl : Fin 32) (bcast : Bool) (g : Fin 32)
  /-- TABLE_SRAM_READ (R157): A GO reads an SRAM row into the DATA registers. -/
  | tableSramRead (sl : Fin 32) (g : Fin 32)
  /-- TERNARY_WRITE (R157): A GO writes a ternary entry with its presence bits, subject to R155. -/
  | ternaryWrite (sl : Fin 32) (bcast : Bool) (g : Fin 32)
  /-- TERNARY_READ (R157): A GO reads a ternary entry. -/
  | ternaryRead (sl : Fin 32) (g : Fin 32)
  /-- KEYMAP_WRITE (R155): A GO writes a key-map entry of the shadow slot, refused unless OPEN. -/
  | keymapWrite (sl : Fin 32) (bcast : Bool) (g : Fin 32)
  /-- KEYMAP_READ (R155): A GO reads the shadow copy of a key-map entry. -/
  | keymapRead (sl : Fin 32) (g : Fin 32)
  /-- TABLE_ACCESS_DONE (R157): Four cc after GO the access lands, BUSY clears and DONE and RESULT are set. -/
  | tableAccessDone (sl : Fin 32) (action : Bool)
  /-- STG_CNT_CLR (R161): Clears STG_WR_REFUSED and the slice's STG_DUP_HIT counters. -/
  | stgCntClr (sl : Fin 32)
  /-- ACT_BUNDLE_WRITE (R189): Action port SPACE 0 write of a bundle word to the shadow slot. -/
  | actBundleWrite (sl : Fin 32) (bcast : Bool) (g : Fin 32)
  /-- ACT_BUNDLE_READ (R189): Action port SPACE 0 read of a bundle word. -/
  | actBundleRead (sl : Fin 32) (g : Fin 32) (active : Bool)
  /-- ACT_COUNTER_READ (R189): Action port SPACE 1 read of a counter entry snapshot. -/
  | actCounterRead (sl : Fin 32) (g : Fin 32)
  /-- ACT_COUNTER_CLEAR (R189): Action port SPACE 1 write clears a counter entry. -/
  | actCounterClear (sl : Fin 32) (bcast : Bool) (g : Fin 32)
  /-- ACT_METER_CFG_WRITE (R189): Action port SPACE 2 write configures a meter and refills its buckets. -/
  | actMeterCfgWrite (sl : Fin 32) (bcast : Bool) (g : Fin 32)
  /-- ACT_METER_CFG_READ (R189): Action port SPACE 2 read of a meter's configuration. -/
  | actMeterCfgRead (sl : Fin 32) (g : Fin 32)
  /-- ACT_METER_TOKENS_READ (R189): Action port SPACE 3 read of a meter's bucket levels. -/
  | actMeterTokensRead (sl : Fin 32) (g : Fin 32)
  /-- ACT_METER_TOKENS_WRITE (R189): Action port SPACE 3 write, refused with RESULT 3. -/
  | actMeterTokensWrite (sl : Fin 32) (bcast : Bool) (g : Fin 32)
  /-- ACT_DROP_REASON_READ (R189): Action port SPACE 4 read of a drop-reason count. -/
  | actDropReasonRead (sl : Fin 32)
  /-- ACT_DROP_REASON_CLEAR (R189): Action port SPACE 4 write clears a drop-reason count. -/
  | actDropReasonClear (sl : Fin 32) (bcast : Bool)
  /-- STG_ACT_CNT_CLR (R189): Clears STG_ACT_RANGE in one cc. -/
  | stgActCntClr (sl : Fin 32)
  /-- COMMIT_REQUEST (R200): A GO moves the OPEN slot to CHECK, is held while retiring, or is refused. -/
  | commitRequest (src : Fin 4) (now : Bool) (anynum : Bool)
  /-- COMMIT_CANCEL (R205): CANCEL ends a commit in CHECK, ARMED or STALLED and returns the slot to OPEN. -/
  | commitCancel
  /-- CHECK_COMPLETE (R201): CHECK ends and the slot becomes ARMED, or with NOW commits in the next cc. -/
  | checkComplete
  /-- COMMIT_TAKE_EFFECT (R202): At t_c the ARMED slot becomes ACTIVE, the old one RETIRING, and commit-tied effects apply. -/
  | commitTakeEffect
  /-- COMMIT_MISSED (R203): A commit whose t_c is reached while STALLED or in CHECK is missed. -/
  | commitMissed
  /-- STALE_SWEEP (R198): At t_s + MAX_AGE every copy of the retiring generation still held is dropped. -/
  | staleSweep
  /-- RETIRE_SYNC_START (R206): A RETIRING slot with no frames in flight and no drain moves to SYNC. -/
  | retireSyncStart
  /-- SYNC_COMPLETE (R206): The copy of the ACTIVE slot completes and the slot becomes OPEN, releasing a held request. -/
  | syncComplete
  /-- GEN_CNT_CLR (R213): Clears GEN_STALE_DROP and GEN_WR_REFUSED. -/
  | genCntClr
  /-- DRAIN_FLUSH (R60): At t_c + DRAIN_TX every frame still in a held queue is flushed. -/
  | drainFlush
  /-- DRAIN_END (R60): At the first epoch boundary with every held queue empty the drain ends and queues are released. -/
  | drainEnd
  /-- CHIP_MODE_CLK_WRITE (R54): A write requests a clock-axis and Damper value for the next or a named epoch. -/
  | chipModeClkWrite (v : Word)
  /-- CLOCK_REQUEST_APPLY (R56): At its epoch the clock request sets HCLK and Damper values. -/
  | clockRequestApply
  /-- CHIP_METER_CLR (R45): Clears CHIP_METER_LATE, _DROP and _WORST in one cc. -/
  | chipMeterClr
  /-- CHIP_MODE_CLR (R66): Clears CHIP_MODE_DRAIN_DROP and CHIP_MODE_FLUSH in one cc. -/
  | chipModeClr
  /-- CARVE (R234): A CARVE in CHAIN with every cell free starts carving, or sets CARVE_ERR. -/
  | carve
  /-- CARVING_COMPLETE (R234): After 32,768 cc the pool manager enters BLOCK. -/
  | carvingComplete
  /-- REBUILD (R235): A REBUILD flushes queues, discards Hob blocks and rebuilds the free-cell list. -/
  | rebuild
  /-- REBUILD_COMPLETE (R235): The rebuild ends and the pool manager enters CHAIN. -/
  | rebuildComplete
  /-- BUF_CNT_CLR (R238): Clears the seven BUF counters. -/
  | bufCntClr
  /-- POOL_CNT_CLR (R238): Clears the POOL counters and resets each POOL_LOWp to FREE. -/
  | poolCntClr
  /-- MC_GROUP_WRITE (R267): A multicast port GO writes a group entry of the shadow slot. -/
  | mcGroupWrite (grp : Fin 65536)
  /-- MC_GROUP_READ (R267): A multicast port GO reads a group entry. -/
  | mcGroupRead (grp : Fin 65536) (active : Bool)
  /-- TM_PORT_CLR (R268): Clears TM_XDROP and the port's queue counters. -/
  | tmPortClr (p : Fin 512)
  /-- TM_CHIP_CLR (R268): Clears TM_MC_RES_FULL and TM_MC_EMPTY. -/
  | tmChipClr
  /-- NT_SNAPSHOT_READ (R270): A read of TIME_NOW_HI snapshots all 96 bits of NT. -/
  | ntSnapshotRead
  /-- SAMPLE (R282): TIME_CMD.SAMPLE submits an offset and optional path delay, or is ignored as too soon. -/
  | sample (pdValid : Bool)
  /-- SAMPLE_PROCESS (R283): Four cc after a sample the servo runs its path check, jump or PI update. -/
  | sampleProcess
  /-- SET (R271): TIME_CMD.SET loads TIME_SET into NT as a jump. -/
  | set
  /-- RUN (R281): TIME_CMD.RUN moves the servo from FREE or HOLDOVER to ACQUIRE. -/
  | run
  /-- HOLD (R281): TIME_CMD.HOLD puts the servo in HOLDOVER with cause software. -/
  | hold
  /-- FREE (R281): TIME_CMD.FREE puts the servo in FREE. -/
  | free
  /-- REQUAL (R281): TIME_CMD.REQUAL clears the path average and leaves a path or software holdover. -/
  | requal
  /-- JUMP_OVR (R271): TIME_CMD.JUMP_OVR arms the one-shot jump override. -/
  | jumpOvr
  /-- PPS_EDGE (R290): A 1PPS_IN edge is stamped and, with SRC 1, supplies a sample. -/
  | ppsEdge (rise : Bool) (sub : Fin 43691)
  /-- SAMPLE_TIMEOUT (R281): No sample for SAMPLE_TMO puts the servo in HOLDOVER with cause loss. -/
  | sampleTimeout
  /-- HOLD_MAX_EXPIRY (R281): HOLD_MAX seconds in HOLDOVER return the servo to FREE. -/
  | holdMaxExpiry
  /-- TSQ_POP (R279): A read of TIME_TSQ_W0 removes the oldest stamp-queue entry. -/
  | tsqPop (q : Fin 33)
  /-- TOUT_ARM (R289): ARM loads a timed output's configuration and starts it. -/
  | toutArm (n : Fin 8)
  /-- TOUT_STOP (R289): STOP returns a timed output to idle after its current pulse. -/
  | toutStop (n : Fin 8)
  /-- TOUT_EDGE (R288): A timed output's pulse edge falls due and is produced, skipped or suppressed. -/
  | toutEdge (n : Fin 8)
  /-- TIN_EDGE (R290): An edge on TIN0 to TIN3 is stamped into the FIFO, lost or dropped. -/
  | tinEdge (n : Fin 4) (rise : Bool) (sub : Fin 43691)
  /-- TIN_EVENT_READ (R290): A read of EV_SEC_HI removes the oldest edge entry. -/
  | tinEventRead (n : Fin 5)
  /-- TIN_LOST_CLR (R290): TIME_TIN_CTL.CLR clears LOST. -/
  | tinLostClr (n : Fin 5)
  /-- TIME_CNT_CLR (R292): Clears TIME_SKIP in one cc. -/
  | timeCntClr
  /-- TIME_TSQ_CLR (R292): Clears TIME_TSQ_OVF in one cc. -/
  | timeTsqClr (q : Fin 33)
  /-- HOB_CONTRIB (R303): The home engine checks a CONTRIB and accepts it into its step's bitmap or drops it. -/
  | hobContrib (eng : Fin 32) (cells : List (List Nat))
  /-- HOB_RESULT (R304): A RESULT for a step in UP is accepted and the step goes to DOWN. -/
  | hobResult (eng : Fin 32) (cells : List (List Nat))
  /-- HOB_ACK (R304): An ACK for a step in UP is accepted and the step goes to DOWN. -/
  | hobAck (eng : Fin 32) (cells : List (List Nat))
  /-- HOB_ABORT_FRAME (R314): A valid ABORT from a neighbour aborts the context with cause 2. -/
  | hobAbortFrame (eng : Fin 32) (cells : List (List Nat))
  /-- HOB_LD (R294): Engine operation widening one contribution into the accumulator. -/
  | hobLd (eng : Fin 32) (ctx : Fin 4096)
  /-- HOB_CMB2 (R294): Engine operation combining the first two contributions. -/
  | hobCmb2 (eng : Fin 32) (ctx : Fin 4096)
  /-- HOB_CMBA (R294): Engine operation combining the accumulator with the next contribution. -/
  | hobCmba (eng : Fin 32) (ctx : Fin 4096)
  /-- HOB_CVT (R294): Engine operation converting the accumulator to DTYPE. -/
  | hobCvt (eng : Fin 32) (ctx : Fin 4096)
  /-- HOB_BSQ (R296): Engine operation converting the accumulator to block-scaled fp8. -/
  | hobBsq (eng : Fin 32) (ctx : Fin 4096)
  /-- HOB_BSXT (R296): Engine operation transposing a bf16 tile into block-scaled fp8. -/
  | hobBsxt (eng : Fin 32) (ctx : Fin 4096)
  /-- STEP_BOUNDARY (R304): A step's last operation issues and it moves to DOWN, UP or HELD, emitting frames. -/
  | stepBoundary (ctx : Fin 4096) (cells : List (List Nat))
  /-- CONTRIB_RESEND (R305): A non-root step in UP resends its CONTRIB every STEP_TMO / 4. -/
  | contribResend (ctx : Fin 4096) (cells : List (List Nat))
  /-- STEP_DEADLINE (R312): A context's step deadline fires and it aborts with cause 1. -/
  | stepDeadline (ctx : Fin 4096) (cells : List (List Nat))
  /-- HOB_POOL_RETRY (R310): A refused Hob block request is made again every 64 cc. -/
  | hobPoolRetry (ctx : Fin 4096) (cells : List (List Nat)) (ecc : Fin 3)
  /-- HOB_CTX_READ (R320): Context port command reading any context. -/
  | hobCtxRead (ctx : Fin 16384)
  /-- HOB_CTX_WRITE (R320): Context port command writing descriptor words of a FREE context. -/
  | hobCtxWrite (ctx : Fin 16384)
  /-- ACTIVATE (R320): Context port command checking a FREE context and making it ACTIVE. -/
  | activate (ctx : Fin 16384)
  /-- HOB_CTX_ABORT (R320): Context port command aborting an ACTIVE context with cause 3. -/
  | hobCtxAbort (ctx : Fin 16384)
  /-- HOB_CTX_FREE (R320): Context port command returning a DONE or ABORTED context to FREE. -/
  | hobCtxFree (ctx : Fin 16384)
  /-- NBR_READ (R320): Context port command reading a neighbour entry. -/
  | nbrRead (idx : Fin 16384)
  /-- NBR_WRITE (R320): Context port command writing a neighbour entry unless an ACTIVE context uses it. -/
  | nbrWrite (idx : Fin 16384)
  /-- HOB_CTX_INVALID_CMD (R320): Context port command 7 ends with RESULT 4. -/
  | hobCtxInvalidCmd (idx : Fin 16384)
  /-- HOB_CTX_ACCESS_DONE (R320): A context port access completes 8 cc after GO. -/
  | hobCtxAccessDone (cells : List (List Nat))
  /-- HOB_CNT_CLR (R321): Clears the eleven HOB counters. -/
  | hobCntClr
  /-- POWER_EPOCH (R327): Each 1 µs epoch the controller estimates power and sets the Hob share, Damper values and operating point. -/
  | powerEpoch
  /-- POWER_MEASUREMENT (R324): Every 50 µs rail currents are measured, calibration updated and energy counted. -/
  | powerMeasurement (total : Nat) (hob : Nat) (valid : Bool)
  /-- VGOOD_REPORT (R329): HOB_VGOOD reports the rail settled and HCLK moves at the next epoch. -/
  | vgoodReport
  /-- BELLOWS_ABANDON (R329): No VGOOD 20 µs after a raise abandons the step and raises POWER. -/
  | bellowsAbandon
  /-- DAMPER_DEFER_END (R334): A deferred Damper cut takes effect when the COMBINE steps finish or 20 µs pass. -/
  | damperDeferEnd (e : Fin 32)
  /-- HINT_SUBMIT (R333): A write of PWR_HINT submits a hint, or refuses it with HINT_FULL. -/
  | hintSubmit (v : Word)
  /-- HINT_DUE (R333): A hint falls due and the engines of its mask take its phase. -/
  | hintDue
  /-- RELEARN (R332): PWR_PHASE_CFG.RELEARN returns a phase slot to its default values. -/
  | relearn (ph : Fin 64)
  /-- THERMAL_READING (R338): Every 10 µs the sensors are read and thresholds, throttling and trip judged. -/
  | thermalReading (temps : List (Nat × Nat))
  /-- PWR_ENERGY_READ (R340): A read of PWR_ENERGY_LO snapshots PWR_ENERGY_HI. -/
  | pwrEnergyRead
  /-- PWR_CNT_CLR (R342): Clears the four PWR counters. -/
  | pwrCntClr
  /-- HELLO_SEND (R345): A domain link sends its hello in its epoch of the period. -/
  | helloSend (p : Fin 512)
  /-- HELLO_RECEIVE (R350): A valid hello is compared with the local view and the link state updated. -/
  | helloReceive (p : Fin 512)
  /-- HELLO_SILENCE (R351): No valid hello within the silence limit quarantines the link with cause 2. -/
  | helloSilence (p : Fin 512)
  /-- DOM_PORT_CLR (R356): Clears a port's five DOM counters. -/
  | domPortClr (p : Fin 512)
  /-- TELEMETRY_EPOCH (R364): At a telemetry epoch boundary histograms and digests move to the read banks and postcards are sent. -/
  | telemetryEpoch (cells : List (List Nat))
  /-- TLM_CNT_CLR (R374): Clears the five TLM counters. -/
  | tlmCntClr
  /-- PMC_COUNT (R367): Each counter adds its filtered events and may wrap and set OVF. -/
  | pmcCount
  /-- PMC_CARRY (R370): A chained even counter's wrap delivers a carry to the odd counter in the next cc. -/
  | pmcCarry
  /-- PMC_CFG_WRITE (R372): A PMC_CFG write configures a counter, delayed one cc behind a pending carry, or is ignored. -/
  | pmcCfgWrite (idx : Nat) (v : Word)
  /-- PMC_CLR (R372): A PMC_CLR bit clears a counter in one cc. -/
  | pmcClr (w : Nat) (v : Word)
  /-- FREEZE (R372): PMC_CTL.FREEZE stops every counter. -/
  | freeze (on : Bool)
  /-- PMC_LO_READ (R371): A read of a counter's _LO snapshots its _HI, or all four words of a chained pair. -/
  | pmcLoRead (idx : Nat)
  /-- NOP (R380): Stoker instruction with no effect. -/
  | nop (k : Fin 4)
  /-- ADD (R380): Stoker register add. -/
  | add (k : Fin 4) (rd : Fin 32) (ra : Fin 32) (rb : Fin 32)
  /-- SUB (R380): Stoker register subtract. -/
  | sub (k : Fin 4) (rd : Fin 32) (ra : Fin 32) (rb : Fin 32)
  /-- AND (R380): Stoker register AND. -/
  | stkAnd (k : Fin 4) (rd : Fin 32) (ra : Fin 32) (rb : Fin 32)
  /-- OR (R380): Stoker register OR. -/
  | stkOr (k : Fin 4) (rd : Fin 32) (ra : Fin 32) (rb : Fin 32)
  /-- XOR (R380): Stoker register XOR. -/
  | stkXor (k : Fin 4) (rd : Fin 32) (ra : Fin 32) (rb : Fin 32)
  /-- SHL (R380): Stoker shift left by RB[5:0]. -/
  | shl (k : Fin 4) (rd : Fin 32) (ra : Fin 32) (rb : Fin 32)
  /-- SHR (R380): Stoker logical shift right by RB[5:0]. -/
  | shr (k : Fin 4) (rd : Fin 32) (ra : Fin 32) (rb : Fin 32)
  /-- SRA (R380): Stoker arithmetic shift right. -/
  | sra (k : Fin 4) (rd : Fin 32) (ra : Fin 32) (rb : Fin 32)
  /-- MUL (R380): Stoker multiply, low 64 bits. -/
  | mul (k : Fin 4) (rd : Fin 32) (ra : Fin 32) (rb : Fin 32)
  /-- SLT (R380): Stoker signed set-less-than. -/
  | slt (k : Fin 4) (rd : Fin 32) (ra : Fin 32) (rb : Fin 32)
  /-- SLTU (R380): Stoker unsigned set-less-than. -/
  | sltu (k : Fin 4) (rd : Fin 32) (ra : Fin 32) (rb : Fin 32)
  /-- ADDI (R380): Stoker add of a sign-extended immediate. -/
  | addi (k : Fin 4) (rd : Fin 32) (ra : Fin 32) (imm : Word)
  /-- ANDI (R380): Stoker AND with a zero-extended immediate. -/
  | andi (k : Fin 4) (rd : Fin 32) (ra : Fin 32) (imm : Word)
  /-- ORI (R380): Stoker OR with a zero-extended immediate. -/
  | ori (k : Fin 4) (rd : Fin 32) (ra : Fin 32) (imm : Word)
  /-- XORI (R380): Stoker XOR with a zero-extended immediate. -/
  | xori (k : Fin 4) (rd : Fin 32) (ra : Fin 32) (imm : Word)
  /-- SHLI (R380): Stoker shift left by an immediate. -/
  | shli (k : Fin 4) (rd : Fin 32) (ra : Fin 32) (imm : Word)
  /-- SHRI (R380): Stoker shift right by an immediate. -/
  | shri (k : Fin 4) (rd : Fin 32) (ra : Fin 32) (imm : Word)
  /-- LI (R380): Stoker load of a sign-extended immediate. -/
  | li (k : Fin 4) (rd : Fin 32) (imm : Word)
  /-- LIH (R380): Stoker load of an immediate into the upper half. -/
  | lih (k : Fin 4) (rd : Fin 32) (imm : Word)
  /-- BEQ (R380): Stoker branch when equal. -/
  | beq (k : Fin 4) (ra : Fin 32) (rb : Fin 32) (imm : Word)
  /-- BNE (R380): Stoker branch when not equal. -/
  | bne (k : Fin 4) (ra : Fin 32) (rb : Fin 32) (imm : Word)
  /-- BLT (R380): Stoker branch when signed less. -/
  | blt (k : Fin 4) (ra : Fin 32) (rb : Fin 32) (imm : Word)
  /-- BGE (R380): Stoker branch when signed greater or equal. -/
  | bge (k : Fin 4) (ra : Fin 32) (rb : Fin 32) (imm : Word)
  /-- BLTU (R380): Stoker branch when unsigned less. -/
  | bltu (k : Fin 4) (ra : Fin 32) (rb : Fin 32) (imm : Word)
  /-- BGEU (R380): Stoker branch when unsigned greater or equal. -/
  | bgeu (k : Fin 4) (ra : Fin 32) (rb : Fin 32) (imm : Word)
  /-- JAL (R380): Stoker jump and link relative. -/
  | jal (k : Fin 4) (rd : Fin 32) (imm : Word)
  /-- JALR (R380): Stoker jump and link through a register. -/
  | jalr (k : Fin 4) (rd : Fin 32) (ra : Fin 32) (imm : Word)
  /-- LD (R380): Stoker 64-bit SRAM load. -/
  | ld (k : Fin 4) (rd : Fin 32) (ra : Fin 32) (imm : Word)
  /-- LDW (R380): Stoker 32-bit SRAM load, zero-extended. -/
  | ldw (k : Fin 4) (rd : Fin 32) (ra : Fin 32) (imm : Word)
  /-- ST (R380): Stoker 64-bit SRAM store. -/
  | st (k : Fin 4) (rb : Fin 32) (ra : Fin 32) (imm : Word)
  /-- STW (R380): Stoker 32-bit SRAM store. -/
  | stw (k : Fin 4) (rb : Fin 32) (ra : Fin 32) (imm : Word)
  /-- CSRR (R380): Stoker read of a CSR at a chip address. -/
  | csrr (k : Fin 4) (rd : Fin 32) (ra : Fin 32) (imm : Word)
  /-- CSRW (R379): Stoker write of a CSR, effective in its last cc. -/
  | csrw (k : Fin 4) (ra : Fin 32) (rb : Fin 32) (imm : Word)
  /-- BMOV (R383): Stoker block move of up to 16,384 bytes. -/
  | bmov (k : Fin 4) (rd : Fin 32) (ra : Fin 32) (rb : Fin 32)
  /-- RDNT (R380): Stoker read of NT in whole ns and fraction. -/
  | rdnt (k : Fin 4) (rd : Fin 32)
  /-- WAITT (R386): Stoker wait until NT reaches a value. -/
  | waitt (k : Fin 4) (ra : Fin 32)
  /-- SYSC (R380): Stoker system call raising cause 6. -/
  | sysc (k : Fin 4) (imm : Word)
  /-- BRK (R380): Stoker breakpoint raising cause 7. -/
  | brk (k : Fin 4)
  /-- RETI (R392): Stoker return from a handler or machine check. -/
  | reti (k : Fin 4)
  /-- WAITI (R386): Stoker wait for an interrupt. -/
  | waiti (k : Fin 4)
  /-- HOSTI (R390): Stoker queues a host interrupt message on a ring. -/
  | hosti (k : Fin 4) (rd : Fin 32) (ring : Fin 2) (imm : Word)
  /-- HOSTIS (R390): Stoker queues a host interrupt message and halts. -/
  | hostis (k : Fin 4) (rd : Fin 32) (ring : Fin 2) (imm : Word)
  /-- TBW (R384): Stoker table write of up to 256 entries through the table or action port. -/
  | tbw (k : Fin 4) (rd : Fin 32) (ra : Fin 32) (rb : Fin 32)
  /-- TSCAN (R385): Stoker scan of SRAM rows for a masked match. -/
  | tscan (k : Fin 4) (rd : Fin 32) (ra : Fin 32)
  /-- CMT (R387): Stoker commit request or cancel as one indivisible sequence. -/
  | cmt (k : Fin 4) (rd : Fin 32) (ra : Fin 32) (rb : Fin 32) (x : BitVec 9)
  /-- PHASE (R388): Stoker submits a power hint. -/
  | phase (k : Fin 4) (rd : Fin 32) (ra : Fin 32) (imm : Word)
  /-- SEMTS (R389): Stoker test-and-set of a semaphore. -/
  | semts (k : Fin 4) (rd : Fin 32) (imm : Word)
  /-- SEMREL (R389): Stoker release of a semaphore it holds. -/
  | semrel (k : Fin 4) (rd : Fin 32) (imm : Word)
  /-- SEND (R398): Stoker sends a frame on the queued or direct path. -/
  | send (k : Fin 4) (rd : Fin 32) (ra : Fin 32) (cells : List Nat) (ecc : Fin 3)
  /-- CRNEXT (R396): Stoker takes the next command-ring entry and settles duplicates. -/
  | crnext (k : Fin 4) (rd : Fin 32) (ring : Fin 2)
  /-- CRDONE (R397): Stoker completes a command entry and may queue a host interrupt. -/
  | crdone (k : Fin 4) (rd : Fin 32) (ra : Fin 32) (rb : Fin 32) (ring : Fin 2)
  /-- ILLEGAL_OPCODE (R380): A reserved OPC or non-zero unused field raises cause 1. -/
  | illegalOpcode (k : Fin 4) (w : BitVec 64)
  /-- EXCEPTION_ENTRY (R391): At a boundary a core enters the handler for an exception. -/
  | exceptionEntry (k : Fin 4)
  /-- INTERRUPT_ENTRY (R391): At a boundary a core takes the lowest enabled pending interrupt. -/
  | interruptEntry (k : Fin 4)
  /-- MACHINE_CHECK (R393): A control-store parity, stack or unmapped-address error aborts the instruction and enters MCVEC. -/
  | machineCheck (k : Fin 4) (kind : Fin 16) (store : Fin 4) (addr : BitVec 15) (w : BitVec 64) (done : Nat) (cells : List Nat)
  /-- CORE_HALT (R391): STK_Kk_CTL.HALT halts the core at its next boundary. -/
  | coreHalt (k : Fin 4)
  /-- CORE_RUN (R390): STK_Kk_CTL.RUN resumes a halted core at PC. -/
  | coreRun (k : Fin 4)
  /-- SWI (R391): STK_SWI.SET raises interrupt source 12. -/
  | swi
  /-- COMMAND_RING_TAIL_WRITE (R394): A write of a command ring's TAIL posts entries and raises CRA or CRB. -/
  | commandRingTailWrite (ring : Fin 2) (idx : BitVec 12)
  /-- RING_CFG_WRITE (R400): A ring CFG write clears HEAD and TAIL and empties the duplicate window. -/
  | ringCfgWrite (ring : Fin 36) (v : Word)
  /-- RX_RING_WRITE (R399): The chip writes a punt or AUX frame to a receive ring slot and advances HEAD, or drops it when full. -/
  | rxRingWrite (ring : Fin 34) (ecc : Fin 3)
  /-- STK_CNT_CLR (R401): Clears the five STK counters. -/
  | stkCntClr
  /-- LOAD_GO (R416): UC_CTL.LOAD_GO starts a patch load from SRAM, or is refused. -/
  | loadGo
  /-- PATCH_LOAD_DONE (R416): The loader finishes its checks and loads patch RAM and traps, or clears them. -/
  | patchLoadDone
  /-- TRAP_ON (R413): Writing TRAP_ON with a loaded patch puts traps in force and sets UC_VER. -/
  | trapOn
  /-- LOCK (R413): Writing LOCK freezes UC_CTL until reset. -/
  | lock
  /-- UC_PDATA_READ (R418): A read of UC_PDATA returns a patch RAM word and may auto-increment ADDR. -/
  | ucPdataRead
  /-- UC_CNT_CLR (R419): Clears UC_PAR_ERR. -/
  | ucCntClr
  /-- RING_BLOCK_LOCK (R422): A ring input sees 64 valid sync headers and enters LOCK. -/
  | ringBlockLock (ring : Fin 2)
  /-- RING_INPUT_UP (R422): A ring input receives 16 valid blocks and enters UP. -/
  | ringInputUp (ring : Fin 2)
  /-- RING_INPUT_DOWN (R422): Invalid sync headers or signal loss return a ring input to DOWN and send BRK. -/
  | ringInputDown (ring : Fin 2)
  /-- BRK_BLOCK_RX (R422): A chip in UP relays BRK blocks and records their address. -/
  | brkBlockRx (ring : Fin 2) (a : Fin 64)
  /-- READ (R428): Joring READ inserts data as the payload passes and applies side effects at a good trailer. -/
  | read (ring : Fin 2) (ws : List (BitVec 64))
  /-- WRITE (R429): Joring WRITE is queued at a good trailer, or answered BUSY. -/
  | write (ring : Fin 2) (ws : List (BitVec 64))
  /-- TAS (R430): Joring test-and-set grants a free semaphore to the ring. -/
  | tas (ring : Fin 2) (ws : List (BitVec 64))
  /-- REL (R430): Joring release frees a semaphore the ring holds. -/
  | rel (ring : Fin 2) (ws : List (BitVec 64))
  /-- COLLECT (R433): Each chip writes queued messages into empty COLLECT slots. -/
  | collect (ring : Fin 2) (ws : List (BitVec 64))
  /-- ENUM (R432): Each chip takes or reports its ring address as the ENUM frame passes. -/
  | enum (ring : Fin 2) (ws : List (BitVec 64))
  /-- BADOP (R427): A frame with an invalid OP is answered BADOP by its DEST chip. -/
  | badop (ring : Fin 2) (ws : List (BitVec 64))
  /-- JORING_FRAME_RELAY (R426): A frame not acted on, malformed or with a bad header is relayed unchanged and counted. -/
  | joringFrameRelay (ring : Fin 2) (ws : List (BitVec 64)) (malformed : Bool)
  /-- WRITE_QUEUE_DRAIN (R429): A ring's queued WRITE is applied one word per cc. -/
  | writeQueueDrain (ring : Fin 2)
  /-- BUF_MEM_STAGE_FETCH (R428): A ring's cell stage fetches the cell that a BUSY READ named. -/
  | bufMemStageFetch (ring : Fin 2) (errs : List (Nat × Nat))
  /-- SEM_RING_TIMEOUT (R431): A ring out of UP for TMO_MS loses every semaphore it holds. -/
  | semRingTimeout (ring : Fin 2)
  /-- JOR_SEM_FREE (R431): A write frees the named semaphore whoever holds it. -/
  | jorSemFree (n : Fin 64)
  /-- JOR_MSG_ACK (R433): A write removes every message up to the MSEQ written. -/
  | jorMsgAck (ring : Fin 2) (mseq : BitVec 8)
  /-- JOR_CNT_CLR (R440): Clears a ring's six JOR counters. -/
  | jorCntClr (ring : Fin 2)
  /-- POWER_ON_RESET (R443): PORST_N low or a rail below threshold resets the chip fully and samples TEST_EN. -/
  | powerOnReset (testEn : Bool)
  /-- SYSTEM_RESET (R443): SYSRST_N low resets the chip. -/
  | systemReset
  /-- SOFTWARE_RESET (R443): A BOOT_CTL write with SWRST and the key resets the chip. -/
  | softwareReset
  /-- WATCHDOG_RESET (R450): BOOT_WDOG expiry resets the chip and raises ATTEMPT. -/
  | watchdogReset
  /-- HARDWARE_INITIALISATION (R445): After reset deassertion the hardware clears memories, sets initial states and starts K0. -/
  | hardwareInitialisation
  /-- BOOT_ROM_START (R449): The boot ROM discovers the flash, checks firmware images and jumps to the first that passes, or enters RECOVERY. -/
  | bootRomStart
  /-- WDOG_KICK (R450): BOOT_CTL.WDOG_KICK restarts the watchdog count. -/
  | wdogKick
  /-- HOSTLOAD (R451): In RECOVERY a host image is checked and entered, or ERR 3 set. -/
  | hostload
  /-- FLASH_READ (R458): The flash engine reads flash into memory. -/
  | flashRead
  /-- FLASH_PROGRAM (R458): The flash engine programs flash from memory. -/
  | flashProgram
  /-- FLASH_ERASE (R458): The flash engine erases the sectors covering a range. -/
  | flashErase
  /-- FLASH_TRANSFER_DONE (R458): A flash transfer ends, BUSY clears and RESULT is set. -/
  | flashTransferDone (timeout : Bool)
  /-- FAULT_RECORD (R462): A detected fault is written to its class record, escalated if open, and reacted to. -/
  | faultRecord (c : Fin 16)
  /-- SAFE_STATE_COMMAND (R470): Twelve cc after entry the safe-state command reaches every block and forces its state. -/
  | safeStateCommand
  /-- SAFE_ENTER (R469): FLT_SAFE_CTL.ENTER enters the safe state by software. -/
  | safeEnter
  /-- SAFE_EXIT (R472): FLT_SAFE_CTL.EXIT leaves the safe state when no record has SAFED, or is refused. -/
  | safeExit
  /-- ACK (R466): FLT_RECc_CTL.ACK closes a record unless its class is live. -/
  | ack (c : Fin 16)
  /-- FAULT_INJECT (R474): FLT_INJ.GO raises an injected fault in test state, or SECURITY outside it. -/
  | faultInject (v : Word)
  /-- MEM_INJECT_ARM (R474): FLT_INJ_MEM.ARM inverts bits on the next read of a word in test state. -/
  | memInjectArm (v : Word)
  /-- FLT_CNT_CLR (R476): Clears the sixteen FLT_TOTAL counters. -/
  | fltCntClr
  /-- REGISTER_WRITE (R18): A write to a register with no row of its own acts by its access types, shadow rules and the status-flag rule. -/
  | registerWrite (m : Fin 6) (a : BitVec 48) (v : Word)
  /-- START_BLOCK_READY (R137): The receive PCS comes to hold a frame's header lead, so its start block is ready and waits for a header slot, or a fifth waiting frame is discarded. -/
  | startBlockReady (p : Fin 514) (bytes : List Byte)
  /-- RX_EMBER_EXIT (R87): A receiver in Ember sees the partner's exit burst, re-converges and delivers data, clearing RX_EMBER. -/
  | rxEmberExit (n : Fin 514)
  /-- REMOTE_FAULT_CLEAR (R106): Remote fault stops being received on an UP port, so the MAC sends queued frames again and releases the held queues. -/
  | remoteFaultClear (p : Fin 514)
  /-- HOB_VGOOD_LOSS (R481): HOB_VGOOD deasserts outside a change of point, and PWR_STAT.VGOOD reads 0 while the point stays unchanged. -/
  | hobVgoodLoss
  /-- JTAG_INSTRUCTION (R487): TCK and TMS drive the TAP through IEEE 1149.1 and 1149.6 instructions such as EXTEST, CLAMP and HIGHZ, which set the boundary cells and pins. -/
  | jtagInstruction (ir : Nat) (dr : List Bool)
deriving DecidableEq, Repr

end Sys2Proof
end

