-- ==== Sys2Proof/Decode.lean ====
section
/-! DEFINITION. Words that spell a command.  The operation table gives no row of this hardware any bits: its commands are events and
register accesses, not words.  So no word spells a command. -/

namespace Sys2Proof

/-- The command that an instruction word spells: the table gives bits to no row, so none. -/
def decodeTableWord (_nbits _w : Nat) : Option Instr := none

end Sys2Proof
end

