-- ==== Sys2Proof/Config.lean ====
section
/-! DEFINITION. What a chip of this type fixes outside the spec's words, and the free values: constants without a body, of which
no proof can see more than the type. -/

namespace Sys2Proof

/-- Free values, one for each number: values that the spec does not state (each use has a row of the assumption log). -/
opaque Config.freeNat : Nat → Nat

/-- One-time-programmed values: 0 the stepping, 1 KEYSET, 2 UC_OTP, 3 BOOT_OTP, 4 the test unlock, 5 the
256-bit patch key, 16 + k the hash of patch key slot k, 32 + k that of firmware key slot k. -/
opaque Config.fused : Nat → Nat

/-- The contents of the boot flash as it was when the chip met it. -/
opaque Config.flashByte : Nat → Byte

/-- What the flash part's SFDP table says (R447): 0 whether it answers, 1 log2 of its size, 2 the widest mode (1 single, 2 quad, 3
octal), 3 its sector size, 4 whether a transfer times out. -/
opaque Config.flashPart : Nat → Nat

/-- The contents of the micro ROM by micro-address (32 bits) and of the nano ROM by nano-address (192 bits); the spec gives their layout (R403,
R404) and not the words. -/
opaque Config.microRom : Nat → Nat
opaque Config.nanoRom : Nat → Nat

/-- What a unit of the nano-word's datapath answers to a command, by cc, UNIT, UNIT_OP and unit data: bit 0 busy, bits 2 and 1 the result, bits 12
to 3 its status bits, the data above.  The codes are part of the ROM contents (R404). -/
opaque Config.microUnit : Nat → Nat → Nat → Nat → Nat

/-- C (bit 0) and V (bit 1) of an ALU operation for which the spec states neither, by ALU_OP and operands (R404). -/
opaque Config.microFlags : Nat → Nat → Nat → Nat

/-- The contents of the boot ROM, by byte offset. -/
opaque Config.rom : Nat → Byte

/-- The electrical weights of the power estimate that are characterised per chip, by number. -/
opaque Config.weight : Nat → Nat

/-- The ten check bits of the inner code over the 256 bits of a chunk (R218); the spec names the code's size and power and not its matrix. -/
opaque Config.innerCheck : Nat → Nat

/-- The value that a lane's pattern generator begins with (R88), by lane; the spec states none. -/
opaque Config.prbsSeed : Nat → Nat

/-- Which NaN pattern a conversion out of fp32 gives, by data type; the spec says that it is a NaN. -/
opaque Config.nanBits : Nat → Nat

/-- The fp32 lane of a block-scaled element whose value exceeds fp32, by scale byte and element; the spec states none. -/
opaque Config.scaleOver : Nat → Nat → Nat

end Sys2Proof
end

