-- ==== Sys2Proof/Machine/Regs.lean ====
section
/-! DEFINITION. The catalogue of the chip's registers: each CSR with its chip address (R437, R438: block base plus the
chapter's offset), its reset value and whether it is a configuration register (R44), each field with its bits, access
type (R18), stored limits and status-flag companion (R468), and each 48-bit counter.  A register's index arguments are
the spec's own subscripts in the spec's order (lane n, port p, slice s and stage g, ...); AUX0 and AUX1 are the lanes, MAC
ports and time ports 512 and 513, the AUX stamp queue is queue 32 and the 1PPS input is edge input 4. -/

namespace Sys2Proof.Machine

/-- The access types of R18. -/
inductive Acc where
  | rw | ro | w1c | w1s | wo
deriving DecidableEq, Repr

/-- What a write of a register sets in motion beside storing its fields: `none`, or the block that acts on it. -/
inductive Act where
  | none | auxCfg | bootCtl | bootFl | bootStat | bufCntClr | chipMeterClr | chipModeClr | crCfg | crTail | domPortClr | fltAck | fltCntClr | fltInj | fltInjMem | fltReact | fltSafe | fspTx | gateAdm | gateCtl | gateEnt | genCmt | genCntClr | hobCntClr | hobCtx | jorCntClr | jorMsgAck | laneCntClr | laneCtl | lanePrbs | macAux | macCntClr | macCt | modeClk | octCfg | pmcCfg | pmcClr | pmcClrS | pmcSCfg | poolCntClr | poolCtl | prsCntClr | prsProg | pwrCntClr | pwrHint | pwrPhase | refclk | rxCfg | semFree | stgAcc | stgAct | stgActCntClr | stgCntClr | stkCntClr | stkCode | stkCtl | stkPc | stkSwi | timeCmd | timeCntClr | tinCtl | tlmCntClr | tlmEpoch | tmChipClr | tmMc | tmPortClr | toutCtl | trkMemClr | tsqClr | ucCntClr | ucCtl
deriving DecidableEq, Repr

/-- What a read of a register does beside returning the stored word: `plain`, or a value or side effect of its block. -/
inductive Rd where
  | plain | backoff | bootOtp | chipStep | domSum | energyHi | energyLo | fltRec | fltSum | fspRx | genStat | poolPtr | prsProg | semHeld | semOwn | timeNow | tinEv | tmDepth | tsqW0 | ucOtp | ucPdata | ucVer
deriving DecidableEq, Repr

/-- One register, or one array of registers of up to three subscripts: strides `s0 s1 s2` and counts `n0 n1 n2`. -/
structure Reg where
  base : Nat
  s0 : Nat := 0
  n0 : Nat := 1
  s1 : Nat := 0
  n1 : Nat := 1
  s2 : Nat := 0
  n2 : Nat := 1
  reset : Nat → Nat → Nat → Nat := fun _ _ _ => 0
  cfg : Bool := false
  act : Act := .none
  rd : Rd := .plain

/-- One field: bits [lsb + w - 1 : lsb] of a register.  `norm` lists the written ranges that are stored as another value;
`sa` places a W1C flag's SET_AGAIN companion: the distance of its register and its lowest bit. -/
structure Fld where
  reg : Reg
  lsb : Nat
  w : Nat
  acc : Acc
  norm : List (Nat × Nat × Nat) := []
  sa : Option (Nat × Nat) := none

/-- One 48-bit counter, or one array of them: the chip address of its _LO register (its _HI register is 4 bytes above). -/
structure Cnt where
  lo : Nat
  s0 : Nat := 0
  n0 : Nat := 1
  s1 : Nat := 0
  n1 : Nat := 1

/-- CHIP_METER (R44). -/
def CHIP_METER : Reg := { base := 0x100, reset := fun _ _ _ => 0x3C, cfg := true }
def CHIP_METER_LATE_MAX : Fld := { reg := CHIP_METER, lsb := 16, w := 12, acc := .rw }
def CHIP_METER_METER_L : Fld := { reg := CHIP_METER, lsb := 0, w := 12, acc := .rw, norm := [(0, 59, 60)] }
/-- CHIP_METER_LATE (R44). -/
def CHIP_METER_LATE : Reg := { base := 0x104 }
def CHIP_METER_LATE_COUNT : Fld := { reg := CHIP_METER_LATE, lsb := 0, w := 32, acc := .ro }
/-- CHIP_METER_DROP (R44). -/
def CHIP_METER_DROP : Reg := { base := 0x108 }
def CHIP_METER_DROP_COUNT : Fld := { reg := CHIP_METER_DROP, lsb := 0, w := 32, acc := .ro }
/-- CHIP_METER_WORST (R44). -/
def CHIP_METER_WORST : Reg := { base := 0x10C }
def CHIP_METER_WORST_OVER : Fld := { reg := CHIP_METER_WORST, lsb := 31, w := 1, acc := .ro }
def CHIP_METER_WORST_WORST_CC : Fld := { reg := CHIP_METER_WORST, lsb := 0, w := 12, acc := .ro }
/-- CHIP_METER_CTL (R44). -/
def CHIP_METER_CTL : Reg := { base := 0x110, act := .chipMeterClr }
def CHIP_METER_CTL_CLR : Fld := { reg := CHIP_METER_CTL, lsb := 0, w := 1, acc := .wo }
/-- CHIP_MODE (R64). -/
def CHIP_MODE : Reg := { base := 0x0 }
def CHIP_MODE_MODE : Fld := { reg := CHIP_MODE, lsb := 0, w := 3, acc := .ro }
/-- CHIP_MODE_CFG (R65). -/
def CHIP_MODE_CFG : Reg := { base := 0x4, reset := fun _ _ _ => 0x3E80000, cfg := true }
def CHIP_MODE_CFG_DRAIN_TX : Fld := { reg := CHIP_MODE_CFG, lsb := 16, w := 13, acc := .rw, norm := [(8001, 8191, 8000)] }
def CHIP_MODE_CFG_LAT : Fld := { reg := CHIP_MODE_CFG, lsb := 2, w := 1, acc := .rw }
def CHIP_MODE_CFG_BUF : Fld := { reg := CHIP_MODE_CFG, lsb := 0, w := 1, acc := .rw }
/-- CHIP_MODE_CLK (R65). -/
def CHIP_MODE_CLK : Reg := { base := 0x8, reset := fun _ _ _ => 0x2000, act := .modeClk }
def CHIP_MODE_CLK_USE_AT : Fld := { reg := CHIP_MODE_CLK, lsb := 15, w := 1, acc := .rw }
def CHIP_MODE_CLK_DAMPER_FIX : Fld := { reg := CHIP_MODE_CLK, lsb := 8, w := 6, acc := .rw, norm := [(0, 0, 1), (33, 63, 32)] }
def CHIP_MODE_CLK_FIXED : Fld := { reg := CHIP_MODE_CLK, lsb := 0, w := 1, acc := .rw }
/-- CHIP_MODE_AT_LO (R65). -/
def CHIP_MODE_AT_LO : Reg := { base := 0xC }
def CHIP_MODE_AT_LO_EPOCH_LO : Fld := { reg := CHIP_MODE_AT_LO, lsb := 0, w := 32, acc := .rw }
/-- CHIP_MODE_AT_HI (R65). -/
def CHIP_MODE_AT_HI : Reg := { base := 0x10 }
def CHIP_MODE_AT_HI_EPOCH_HI : Fld := { reg := CHIP_MODE_AT_HI, lsb := 0, w := 32, acc := .rw }
/-- CHIP_MODE_STAT (R65). -/
def CHIP_MODE_STAT : Reg := { base := 0x14 }
def CHIP_MODE_STAT_DRAIN_ACTIVE : Fld := { reg := CHIP_MODE_STAT, lsb := 31, w := 1, acc := .ro }
def CHIP_MODE_STAT_CLK_PENDING : Fld := { reg := CHIP_MODE_STAT, lsb := 30, w := 1, acc := .ro }
def CHIP_MODE_STAT_AT_PAST : Fld := { reg := CHIP_MODE_STAT, lsb := 29, w := 1, acc := .w1c, sa := some (0, 27) }
def CHIP_MODE_STAT_DRAIN_DONE : Fld := { reg := CHIP_MODE_STAT, lsb := 28, w := 1, acc := .w1c, sa := some (0, 26) }
def CHIP_MODE_STAT_AT_PAST_SA : Fld := { reg := CHIP_MODE_STAT, lsb := 27, w := 1, acc := .w1c }
def CHIP_MODE_STAT_DRAIN_DONE_SA : Fld := { reg := CHIP_MODE_STAT, lsb := 26, w := 1, acc := .w1c }
def CHIP_MODE_STAT_LAST_DRAIN_US : Fld := { reg := CHIP_MODE_STAT, lsb := 0, w := 14, acc := .ro }
/-- CHIP_MODE_DRAIN_DROP (R65). -/
def CHIP_MODE_DRAIN_DROP : Reg := { base := 0x18 }
def CHIP_MODE_DRAIN_DROP_COUNT : Fld := { reg := CHIP_MODE_DRAIN_DROP, lsb := 0, w := 32, acc := .ro }
/-- CHIP_MODE_FLUSH (R65). -/
def CHIP_MODE_FLUSH : Reg := { base := 0x1C }
def CHIP_MODE_FLUSH_COUNT : Fld := { reg := CHIP_MODE_FLUSH, lsb := 0, w := 32, acc := .ro }
/-- CHIP_MODE_CTL (R65). -/
def CHIP_MODE_CTL : Reg := { base := 0x20, act := .chipModeClr }
def CHIP_MODE_CTL_CLR : Fld := { reg := CHIP_MODE_CTL, lsb := 0, w := 1, acc := .wo }
/-- LANE_REFCLK (R91). -/
def LANE_REFCLK : Reg := { base := 0x400000, s0 := 0x4, n0 := 8, act := .refclk }
def LANE_REFCLK_PRESENT : Fld := { reg := LANE_REFCLK, lsb := 31, w := 1, acc := .ro }
def LANE_REFCLK_SPREAD : Fld := { reg := LANE_REFCLK, lsb := 0, w := 1, acc := .rw }
/-- LANE_OCT_CFG (R91). -/
def LANE_OCT_CFG : Reg := { base := 0x400100, s0 := 0x10, n0 := 64, cfg := true, act := .octCfg }
def LANE_OCT_CFG_COMMON : Fld := { reg := LANE_OCT_CFG, lsb := 8, w := 1, acc := .rw }
def LANE_OCT_CFG_RATE : Fld := { reg := LANE_OCT_CFG, lsb := 0, w := 3, acc := .rw }
/-- LANE_OCT_STAT (R91). -/
def LANE_OCT_STAT : Reg := { base := 0x400104, s0 := 0x10, n0 := 64 }
def LANE_OCT_STAT_PLL_LOCK : Fld := { reg := LANE_OCT_STAT, lsb := 31, w := 1, acc := .ro }
def LANE_OCT_STAT_SPREAD_CONFLICT : Fld := { reg := LANE_OCT_STAT, lsb := 30, w := 1, acc := .ro }
def LANE_OCT_STAT_CFG_ERR : Fld := { reg := LANE_OCT_STAT, lsb := 29, w := 1, acc := .w1c, sa := some (0, 28) }
def LANE_OCT_STAT_CFG_ERR_SA : Fld := { reg := LANE_OCT_STAT, lsb := 28, w := 1, acc := .w1c }
/-- LANE_AUX_CFG (R92). -/
def LANE_AUX_CFG : Reg := { base := 0x400500, s0 := 0x10, n0 := 2, reset := fun _ _ _ => 0x2, act := .auxCfg }
def LANE_AUX_CFG_CFG_ERR : Fld := { reg := LANE_AUX_CFG, lsb := 31, w := 1, acc := .w1c, sa := some (0, 30) }
def LANE_AUX_CFG_CFG_ERR_SA : Fld := { reg := LANE_AUX_CFG, lsb := 30, w := 1, acc := .w1c }
def LANE_AUX_CFG_RATE : Fld := { reg := LANE_AUX_CFG, lsb := 0, w := 3, acc := .rw }
/-- LANE_CTL (R92). -/
def LANE_CTL : Reg := { base := 0x401000, s0 := 0x40, n0 := 514, act := .laneCtl }
def LANE_CTL_RX_INV : Fld := { reg := LANE_CTL, lsb := 10, w := 1, acc := .rw }
def LANE_CTL_TX_INV : Fld := { reg := LANE_CTL, lsb := 9, w := 1, acc := .rw }
def LANE_CTL_PRECODE : Fld := { reg := LANE_CTL, lsb := 8, w := 1, acc := .rw }
def LANE_CTL_LOOP : Fld := { reg := LANE_CTL, lsb := 4, w := 3, acc := .rw, norm := [(4, 7, 0)] }
def LANE_CTL_EN : Fld := { reg := LANE_CTL, lsb := 0, w := 1, acc := .rw }
/-- LANE_TRAIN_CFG (R92). -/
def LANE_TRAIN_CFG : Reg := { base := 0x401004, s0 := 0x40, n0 := 514, reset := fun _ _ _ => 0xA01F4 }
def LANE_TRAIN_CFG_FREEZE_RUN : Fld := { reg := LANE_TRAIN_CFG, lsb := 16, w := 8, acc := .rw, norm := [(0, 0, 1)] }
def LANE_TRAIN_CFG_TMO_MS : Fld := { reg := LANE_TRAIN_CFG, lsb := 0, w := 16, acc := .rw, norm := [(0, 9, 10), (8001, 65535, 8000)] }
/-- LANE_STAT (R92). -/
def LANE_STAT : Reg := { base := 0x401008, s0 := 0x40, n0 := 514 }
def LANE_STAT_TRAIN_FAIL : Fld := { reg := LANE_STAT, lsb := 31, w := 1, acc := .w1c, sa := some (0, 30) }
def LANE_STAT_TRAIN_FAIL_SA : Fld := { reg := LANE_STAT, lsb := 30, w := 1, acc := .w1c }
def LANE_STAT_LINK_FAIL : Fld := { reg := LANE_STAT, lsb := 29, w := 1, acc := .w1c, sa := some (0, 28) }
def LANE_STAT_LINK_FAIL_SA : Fld := { reg := LANE_STAT, lsb := 28, w := 1, acc := .w1c }
def LANE_STAT_FAIL_CAUSE : Fld := { reg := LANE_STAT, lsb := 12, w := 4, acc := .ro }
def LANE_STAT_TX_EMBER : Fld := { reg := LANE_STAT, lsb := 11, w := 1, acc := .ro }
def LANE_STAT_RX_EMBER : Fld := { reg := LANE_STAT, lsb := 10, w := 1, acc := .ro }
def LANE_STAT_PRECODE_ON : Fld := { reg := LANE_STAT, lsb := 9, w := 1, acc := .ro }
def LANE_STAT_SIG_DET : Fld := { reg := LANE_STAT, lsb := 8, w := 1, acc := .ro }
def LANE_STAT_BLOCK_LOCK : Fld := { reg := LANE_STAT, lsb := 7, w := 1, acc := .ro }
def LANE_STAT_AM_LOCK : Fld := { reg := LANE_STAT, lsb := 6, w := 1, acc := .ro }
def LANE_STAT_FROZEN : Fld := { reg := LANE_STAT, lsb := 5, w := 1, acc := .ro }
def LANE_STAT_STATE : Fld := { reg := LANE_STAT, lsb := 0, w := 4, acc := .ro }
/-- LANE_BACKOFF (R92). -/
def LANE_BACKOFF : Reg := { base := 0x40100C, s0 := 0x40, n0 := 514, rd := .backoff }
def LANE_BACKOFF_FAILS : Fld := { reg := LANE_BACKOFF, lsb := 24, w := 8, acc := .ro }
def LANE_BACKOFF_REMAIN_MS : Fld := { reg := LANE_BACKOFF, lsb := 0, w := 14, acc := .ro }
/-- LANE_ATTEMPTS (R92). -/
def LANE_ATTEMPTS : Reg := { base := 0x401010, s0 := 0x40, n0 := 514 }
def LANE_ATTEMPTS_COUNT : Fld := { reg := LANE_ATTEMPTS, lsb := 0, w := 32, acc := .ro }
/-- LANE_SKEW (R92). -/
def LANE_SKEW : Reg := { base := 0x401014, s0 := 0x40, n0 := 514 }
def LANE_SKEW_SKEW : Fld := { reg := LANE_SKEW, lsb := 0, w := 16, acc := .ro }
/-- LANE_PRBS (R92). -/
def LANE_PRBS : Reg := { base := 0x401018, s0 := 0x40, n0 := 514, act := .lanePrbs }
def LANE_PRBS_LOCK_LOST_SA : Fld := { reg := LANE_PRBS, lsb := 10, w := 1, acc := .w1c }
def LANE_PRBS_LOCK_LOST : Fld := { reg := LANE_PRBS, lsb := 9, w := 1, acc := .w1c, sa := some (0, 10) }
def LANE_PRBS_CHK_LOCK : Fld := { reg := LANE_PRBS, lsb := 8, w := 1, acc := .ro }
def LANE_PRBS_INSERT_ERR : Fld := { reg := LANE_PRBS, lsb := 7, w := 1, acc := .wo }
def LANE_PRBS_CHK_EN : Fld := { reg := LANE_PRBS, lsb := 5, w := 1, acc := .rw }
def LANE_PRBS_GEN_EN : Fld := { reg := LANE_PRBS, lsb := 4, w := 1, acc := .rw }
def LANE_PRBS_PATTERN : Fld := { reg := LANE_PRBS, lsb := 0, w := 4, acc := .rw, norm := [(9, 15, 5)] }
/-- LANE_CNT_CTL (R92). -/
def LANE_CNT_CTL : Reg := { base := 0x40101C, s0 := 0x40, n0 := 514, act := .laneCntClr }
def LANE_CNT_CTL_CLR : Fld := { reg := LANE_CNT_CTL, lsb := 0, w := 1, acc := .wo }
/-- MAC_PORT_CFG (R111). -/
def MAC_PORT_CFG : Reg := { base := 0x800000, s0 := 0x100, n0 := 514, reset := fun p _ _ => 0x24000000 + (if 512 ≤ p then 0x10 else 0), cfg := true }
def MAC_PORT_CFG_MAX_LEN : Fld := { reg := MAC_PORT_CFG, lsb := 16, w := 14, acc := .rw, norm := [(0, 63, 64), (16001, 16383, 16000)] }
def MAC_PORT_CFG_WIDTH : Fld := { reg := MAC_PORT_CFG, lsb := 4, w := 3, acc := .rw }
def MAC_PORT_CFG_EN : Fld := { reg := MAC_PORT_CFG, lsb := 0, w := 1, acc := .rw }
/-- MAC_PORT_STAT (R111). -/
def MAC_PORT_STAT : Reg := { base := 0x800004, s0 := 0x100, n0 := 514 }
def MAC_PORT_STAT_MAP_ERR : Fld := { reg := MAC_PORT_STAT, lsb := 31, w := 1, acc := .w1c, sa := some (0, 30) }
def MAC_PORT_STAT_MAP_ERR_SA : Fld := { reg := MAC_PORT_STAT, lsb := 30, w := 1, acc := .w1c }
def MAC_PORT_STAT_DOWN_EV : Fld := { reg := MAC_PORT_STAT, lsb := 29, w := 1, acc := .w1c, sa := some (0, 28) }
def MAC_PORT_STAT_DOWN_EV_SA : Fld := { reg := MAC_PORT_STAT, lsb := 28, w := 1, acc := .w1c }
def MAC_PORT_STAT_LF : Fld := { reg := MAC_PORT_STAT, lsb := 7, w := 1, acc := .ro }
def MAC_PORT_STAT_RF : Fld := { reg := MAC_PORT_STAT, lsb := 6, w := 1, acc := .ro }
def MAC_PORT_STAT_LPI_RX : Fld := { reg := MAC_PORT_STAT, lsb := 5, w := 1, acc := .ro }
def MAC_PORT_STAT_LPI_TX : Fld := { reg := MAC_PORT_STAT, lsb := 4, w := 1, acc := .ro }
def MAC_PORT_STAT_STATE : Fld := { reg := MAC_PORT_STAT, lsb := 0, w := 2, acc := .ro }
/-- MAC_CT (R111). -/
def MAC_CT : Reg := { base := 0x800008, s0 := 0x100, n0 := 514, act := .macCt }
def MAC_CT_T_BASE : Fld := { reg := MAC_CT, lsb := 8, w := 6, acc := .rw }
def MAC_CT_T_CUR : Fld := { reg := MAC_CT, lsb := 0, w := 6, acc := .ro }
/-- MAC_FC_CFG (R111). -/
def MAC_FC_CFG : Reg := { base := 0x80000C, s0 := 0x100, n0 := 514 }
def MAC_FC_CFG_PAUSE_EXEMPT : Fld := { reg := MAC_FC_CFG, lsb := 16, w := 12, acc := .rw }
def MAC_FC_CFG_PAUSE_TX_EN : Fld := { reg := MAC_FC_CFG, lsb := 3, w := 1, acc := .rw }
def MAC_FC_CFG_PFC_TX_EN : Fld := { reg := MAC_FC_CFG, lsb := 2, w := 1, acc := .rw }
def MAC_FC_CFG_PFC_RX_EN : Fld := { reg := MAC_FC_CFG, lsb := 1, w := 1, acc := .rw }
def MAC_FC_CFG_PAUSE_RX_EN : Fld := { reg := MAC_FC_CFG, lsb := 0, w := 1, acc := .rw }
/-- MAC_PFC_MAP (R111). -/
def MAC_PFC_MAP : Reg := { base := 0x800010, s0 := 0x100, n0 := 514, s1 := 0x4, n1 := 4, reset := fun _ j _ => 2^(2*j) + 2^(2*j+1) * 65536 }
def MAC_PFC_MAP_MAP_ODD : Fld := { reg := MAC_PFC_MAP, lsb := 16, w := 12, acc := .rw }
def MAC_PFC_MAP_MAP_EVEN : Fld := { reg := MAC_PFC_MAP, lsb := 0, w := 12, acc := .rw }
/-- MAC_PFC_TX (R111). -/
def MAC_PFC_TX : Reg := { base := 0x800020, s0 := 0x100, n0 := 514, reset := fun _ _ _ => 0xFFFF }
def MAC_PFC_TX_QUANTA : Fld := { reg := MAC_PFC_TX, lsb := 0, w := 16, acc := .rw, norm := [(0, 0, 1)] }
/-- MAC_EEE (R111). -/
def MAC_EEE : Reg := { base := 0x800024, s0 := 0x100, n0 := 514, reset := fun _ _ _ => 0x10A00 }
def MAC_EEE_TW_TX_US : Fld := { reg := MAC_EEE, lsb := 16, w := 16, acc := .rw, norm := [(0, 0, 1)] }
def MAC_EEE_IDLE_US : Fld := { reg := MAC_EEE, lsb := 8, w := 8, acc := .rw, norm := [(0, 0, 1)] }
def MAC_EEE_EN : Fld := { reg := MAC_EEE, lsb := 0, w := 1, acc := .rw }
/-- MAC_CNT_CTL (R111). -/
def MAC_CNT_CTL : Reg := { base := 0x800028, s0 := 0x100, n0 := 514, act := .macCntClr }
def MAC_CNT_CTL_CLR : Fld := { reg := MAC_CNT_CTL, lsb := 0, w := 1, acc := .wo }
/-- MAC_AUX_CTL (R111). -/
def MAC_AUX_CTL : Reg := { base := 0x820030, s0 := 0x100, n0 := 2, act := .macAux }
def MAC_AUX_CTL_WAKE : Fld := { reg := MAC_AUX_CTL, lsb := 31, w := 1, acc := .w1c, sa := some (0, 30) }
def MAC_AUX_CTL_WAKE_SA : Fld := { reg := MAC_AUX_CTL, lsb := 30, w := 1, acc := .w1c }
def MAC_AUX_CTL_WAKE_EN : Fld := { reg := MAC_AUX_CTL, lsb := 1, w := 1, acc := .rw }
def MAC_AUX_CTL_SLEEP : Fld := { reg := MAC_AUX_CTL, lsb := 0, w := 1, acc := .rw }
/-- MAC_SA_BASE_LO (R111). -/
def MAC_SA_BASE_LO : Reg := { base := 0x830000 }
def MAC_SA_BASE_LO_ADDR_LO : Fld := { reg := MAC_SA_BASE_LO, lsb := 0, w := 32, acc := .rw }
/-- MAC_SA_BASE_HI (R111). -/
def MAC_SA_BASE_HI : Reg := { base := 0x830004 }
def MAC_SA_BASE_HI_ADDR_HI : Fld := { reg := MAC_SA_BASE_HI, lsb := 0, w := 16, acc := .rw }
/-- TRK_GRP_CFG (R131). -/
def TRK_GRP_CFG : Reg := { base := 0xC00000, s0 := 0x200, n0 := 32, s1 := 0x40, n1 := 8, reset := fun _ _ _ => 0x20000, cfg := true }
def TRK_GRP_CFG_EN : Fld := { reg := TRK_GRP_CFG, lsb := 31, w := 1, acc := .rw }
def TRK_GRP_CFG_MIN_ACT : Fld := { reg := TRK_GRP_CFG, lsb := 16, w := 5, acc := .rw }
def TRK_GRP_CFG_LANE_MASK : Fld := { reg := TRK_GRP_CFG, lsb := 0, w := 16, acc := .rw }
/-- TRK_GRP_ID (R131). -/
def TRK_GRP_ID : Reg := { base := 0xC00004, s0 := 0x200, n0 := 32, s1 := 0x40, n1 := 8, cfg := true }
def TRK_GRP_ID_GID_EXP : Fld := { reg := TRK_GRP_ID, lsb := 8, w := 8, acc := .rw }
def TRK_GRP_ID_GID_TX : Fld := { reg := TRK_GRP_ID, lsb := 0, w := 8, acc := .rw }
/-- TRK_GRP_CTL (R131). -/
def TRK_GRP_CTL : Reg := { base := 0xC00008, s0 := 0x200, n0 := 32, s1 := 0x40, n1 := 8 }
def TRK_GRP_CTL_WITHDRAW : Fld := { reg := TRK_GRP_CTL, lsb := 0, w := 16, acc := .rw }
/-- TRK_GRP_STAT (R131). -/
def TRK_GRP_STAT : Reg := { base := 0xC0000C, s0 := 0x200, n0 := 32, s1 := 0x40, n1 := 8 }
def TRK_GRP_STAT_GRP_ERR : Fld := { reg := TRK_GRP_STAT, lsb := 31, w := 1, acc := .w1c, sa := some (0, 30) }
def TRK_GRP_STAT_GRP_ERR_SA : Fld := { reg := TRK_GRP_STAT, lsb := 30, w := 1, acc := .w1c }
def TRK_GRP_STAT_DOWN_EV : Fld := { reg := TRK_GRP_STAT, lsb := 29, w := 1, acc := .w1c, sa := some (0, 28) }
def TRK_GRP_STAT_DOWN_EV_SA : Fld := { reg := TRK_GRP_STAT, lsb := 28, w := 1, acc := .w1c }
def TRK_GRP_STAT_RDI_RX : Fld := { reg := TRK_GRP_STAT, lsb := 3, w := 1, acc := .ro }
def TRK_GRP_STAT_AIS_TX : Fld := { reg := TRK_GRP_STAT, lsb := 2, w := 1, acc := .ro }
def TRK_GRP_STAT_TX_UP : Fld := { reg := TRK_GRP_STAT, lsb := 1, w := 1, acc := .ro }
def TRK_GRP_STAT_RX_UP : Fld := { reg := TRK_GRP_STAT, lsb := 0, w := 1, acc := .ro }
/-- TRK_GRP_MAP (R131). -/
def TRK_GRP_MAP : Reg := { base := 0xC00010, s0 := 0x200, n0 := 32, s1 := 0x40, n1 := 8 }
def TRK_GRP_MAP_ACT_TX : Fld := { reg := TRK_GRP_MAP, lsb := 16, w := 16, acc := .ro }
def TRK_GRP_MAP_RXMAP_TX : Fld := { reg := TRK_GRP_MAP, lsb := 0, w := 16, acc := .ro }
/-- TRK_GRP_PEER (R131). -/
def TRK_GRP_PEER : Reg := { base := 0xC00014, s0 := 0x200, n0 := 32, s1 := 0x40, n1 := 8 }
def TRK_GRP_PEER_ACT_RX : Fld := { reg := TRK_GRP_PEER, lsb := 16, w := 16, acc := .ro }
def TRK_GRP_PEER_RXMAP_RX : Fld := { reg := TRK_GRP_PEER, lsb := 0, w := 16, acc := .ro }
/-- TRK_MEM_STAT (R131). -/
def TRK_MEM_STAT : Reg := { base := 0xC10000, s0 := 0x40, n0 := 512 }
def TRK_MEM_STAT_DEF_EV : Fld := { reg := TRK_MEM_STAT, lsb := 31, w := 1, acc := .w1c, sa := some (0, 30) }
def TRK_MEM_STAT_DEF_EV_SA : Fld := { reg := TRK_MEM_STAT, lsb := 30, w := 1, acc := .w1c }
def TRK_MEM_STAT_RDI_M : Fld := { reg := TRK_MEM_STAT, lsb := 29, w := 1, acc := .ro }
def TRK_MEM_STAT_AIS_RX : Fld := { reg := TRK_MEM_STAT, lsb := 28, w := 1, acc := .ro }
def TRK_MEM_STAT_MEMBER_RX : Fld := { reg := TRK_MEM_STAT, lsb := 24, w := 4, acc := .ro }
def TRK_MEM_STAT_STATE : Fld := { reg := TRK_MEM_STAT, lsb := 16, w := 3, acc := .ro }
def TRK_MEM_STAT_LAG : Fld := { reg := TRK_MEM_STAT, lsb := 0, w := 16, acc := .ro }
/-- TRK_MEM_CNT_CTL (R131). -/
def TRK_MEM_CNT_CTL : Reg := { base := 0xC10004, s0 := 0x40, n0 := 512, act := .trkMemClr }
def TRK_MEM_CNT_CTL_CLR : Fld := { reg := TRK_MEM_CNT_CTL, lsb := 0, w := 1, acc := .wo }
/-- TRK_FSP_CFG (R132). -/
def TRK_FSP_CFG : Reg := { base := 0xC20000, s0 := 0x20, n0 := 4, cfg := true }
def TRK_FSP_CFG_EN : Fld := { reg := TRK_FSP_CFG, lsb := 31, w := 1, acc := .rw }
def TRK_FSP_CFG_SRC : Fld := { reg := TRK_FSP_CFG, lsb := 30, w := 1, acc := .rw }
def TRK_FSP_CFG_SLICE : Fld := { reg := TRK_FSP_CFG, lsb := 24, w := 5, acc := .rw }
def TRK_FSP_CFG_GROUP : Fld := { reg := TRK_FSP_CFG, lsb := 16, w := 3, acc := .rw }
def TRK_FSP_CFG_MEMBER : Fld := { reg := TRK_FSP_CFG, lsb := 0, w := 4, acc := .rw }
/-- TRK_FSP_STAT (R132). -/
def TRK_FSP_STAT : Reg := { base := 0xC20004, s0 := 0x20, n0 := 4 }
def TRK_FSP_STAT_RX_OVF : Fld := { reg := TRK_FSP_STAT, lsb := 31, w := 1, acc := .w1c, sa := some (0, 30) }
def TRK_FSP_STAT_RX_OVF_SA : Fld := { reg := TRK_FSP_STAT, lsb := 30, w := 1, acc := .w1c }
def TRK_FSP_STAT_TX_FULL : Fld := { reg := TRK_FSP_STAT, lsb := 29, w := 1, acc := .w1c, sa := some (0, 28) }
def TRK_FSP_STAT_TX_FULL_SA : Fld := { reg := TRK_FSP_STAT, lsb := 28, w := 1, acc := .w1c }
def TRK_FSP_STAT_FLUE_LOSS : Fld := { reg := TRK_FSP_STAT, lsb := 27, w := 1, acc := .ro }
def TRK_FSP_STAT_RX_LEVEL : Fld := { reg := TRK_FSP_STAT, lsb := 8, w := 7, acc := .ro }
def TRK_FSP_STAT_TX_LEVEL : Fld := { reg := TRK_FSP_STAT, lsb := 0, w := 7, acc := .ro }
/-- TRK_FSP_RX (R132). -/
def TRK_FSP_RX : Reg := { base := 0xC20008, s0 := 0x20, n0 := 4, rd := .fspRx }
def TRK_FSP_RX_VALID : Fld := { reg := TRK_FSP_RX, lsb := 8, w := 1, acc := .ro }
def TRK_FSP_RX_BYTE : Fld := { reg := TRK_FSP_RX, lsb := 0, w := 8, acc := .ro }
/-- TRK_FSP_TX (R132). -/
def TRK_FSP_TX : Reg := { base := 0xC2000C, s0 := 0x20, n0 := 4, act := .fspTx }
def TRK_FSP_TX_BYTE : Fld := { reg := TRK_FSP_TX, lsb := 0, w := 8, acc := .wo }
/-- PRS_PROG_ADDR (R160). -/
def PRS_PROG_ADDR : Reg := { base := 0x1000000, s0 := 0x100, n0 := 32 }
def PRS_PROG_ADDR_AUTO_INC : Fld := { reg := PRS_PROG_ADDR, lsb := 31, w := 1, acc := .rw }
def PRS_PROG_ADDR_BCAST : Fld := { reg := PRS_PROG_ADDR, lsb := 30, w := 1, acc := .rw }
def PRS_PROG_ADDR_ADDR : Fld := { reg := PRS_PROG_ADDR, lsb := 0, w := 13, acc := .rw }
/-- PRS_PROG_DATA (R160). -/
def PRS_PROG_DATA : Reg := { base := 0x1000004, s0 := 0x100, n0 := 32, act := .prsProg, rd := .prsProg }
def PRS_PROG_DATA_DATA : Fld := { reg := PRS_PROG_DATA, lsb := 0, w := 32, acc := .rw }
/-- PRS_CNT_CTL (R160). -/
def PRS_CNT_CTL : Reg := { base := 0x1000008, s0 := 0x100, n0 := 32, act := .prsCntClr }
def PRS_CNT_CTL_CLR : Fld := { reg := PRS_CNT_CTL, lsb := 0, w := 1, acc := .wo }
/-- STG_TBL_CFG (R161). -/
def STG_TBL_CFG : Reg := { base := 0x1400000, s0 := 0x4000, n0 := 32, s1 := 0x200, n1 := 18, s2 := 0x10, n2 := 4, cfg := true }
def STG_TBL_CFG_EN : Fld := { reg := STG_TBL_CFG, lsb := 31, w := 1, acc := .rw }
def STG_TBL_CFG_KIND : Fld := { reg := STG_TBL_CFG, lsb := 28, w := 3, acc := .rw }
def STG_TBL_CFG_KEYMAP : Fld := { reg := STG_TBL_CFG, lsb := 24, w := 4, acc := .rw }
def STG_TBL_CFG_D_WORDS : Fld := { reg := STG_TBL_CFG, lsb := 22, w := 2, acc := .rw, norm := [(3, 3, 2)] }
def STG_TBL_CFG_KEY_BYTES : Fld := { reg := STG_TBL_CFG, lsb := 16, w := 6, acc := .rw }
def STG_TBL_CFG_TBLK : Fld := { reg := STG_TBL_CFG, lsb := 0, w := 16, acc := .rw }
/-- STG_TBL_UNITS (R161). -/
def STG_TBL_UNITS : Reg := { base := 0x1400004, s0 := 0x4000, n0 := 32, s1 := 0x200, n1 := 18, s2 := 0x10, n2 := 4, cfg := true }
def STG_TBL_UNITS_UNITS : Fld := { reg := STG_TBL_UNITS, lsb := 0, w := 32, acc := .rw }
/-- STG_TBL_DEF (R161). -/
def STG_TBL_DEF : Reg := { base := 0x1400008, s0 := 0x4000, n0 := 32, s1 := 0x200, n1 := 18, s2 := 0x10, n2 := 4, cfg := true }
def STG_TBL_DEF_IF_HDR : Fld := { reg := STG_TBL_DEF, lsb := 16, w := 7, acc := .rw }
def STG_TBL_DEF_DEF_ACTION : Fld := { reg := STG_TBL_DEF, lsb := 0, w := 16, acc := .rw }
/-- STG_TBL_SEED (R161). -/
def STG_TBL_SEED : Reg := { base := 0x140000C, s0 := 0x4000, n0 := 32, s1 := 0x200, n1 := 18, s2 := 0x10, n2 := 4, cfg := true }
def STG_TBL_SEED_SEED : Fld := { reg := STG_TBL_SEED, lsb := 0, w := 32, acc := .rw }
/-- STG_ACT_SEL (R189). -/
def STG_ACT_SEL : Reg := { base := 0x1400050, s0 := 0x4000, n0 := 32, s1 := 0x200, n1 := 18, cfg := true }
def STG_ACT_SEL_MODE : Fld := { reg := STG_ACT_SEL, lsb := 31, w := 1, acc := .rw }
def STG_ACT_SEL_SLOT : Fld := { reg := STG_ACT_SEL, lsb := 0, w := 2, acc := .rw }
/-- STG_ACT_BAD (R189). -/
def STG_ACT_BAD : Reg := { base := 0x1400054, s0 := 0x4000, n0 := 32, s1 := 0x200, n1 := 18 }
def STG_ACT_BAD_BAD : Fld := { reg := STG_ACT_BAD, lsb := 31, w := 1, acc := .w1c, sa := some (0, 30) }
def STG_ACT_BAD_BAD_SA : Fld := { reg := STG_ACT_BAD, lsb := 30, w := 1, acc := .w1c }
def STG_ACT_BAD_BUNDLE : Fld := { reg := STG_ACT_BAD, lsb := 16, w := 10, acc := .ro }
def STG_ACT_BAD_ISLOT : Fld := { reg := STG_ACT_BAD, lsb := 8, w := 2, acc := .ro }
def STG_ACT_BAD_CODE : Fld := { reg := STG_ACT_BAD, lsb := 0, w := 4, acc := .ro }
/-- STG_ACC_CTL (R161). -/
def STG_ACC_CTL : Reg := { base := 0x1403000, s0 := 0x4000, n0 := 32, act := .stgAcc }
def STG_ACC_CTL_GO : Fld := { reg := STG_ACC_CTL, lsb := 31, w := 1, acc := .wo }
def STG_ACC_CTL_BCAST : Fld := { reg := STG_ACC_CTL, lsb := 30, w := 1, acc := .rw }
def STG_ACC_CTL_READ : Fld := { reg := STG_ACC_CTL, lsb := 29, w := 1, acc := .rw }
def STG_ACC_CTL_SPACE : Fld := { reg := STG_ACC_CTL, lsb := 20, w := 4, acc := .rw }
def STG_ACC_CTL_STAGE : Fld := { reg := STG_ACC_CTL, lsb := 13, w := 5, acc := .rw }
/-- STG_ACC_ADDR (R161). -/
def STG_ACC_ADDR : Reg := { base := 0x1403004, s0 := 0x4000, n0 := 32 }
def STG_ACC_ADDR_ADDR : Fld := { reg := STG_ACC_ADDR, lsb := 0, w := 15, acc := .rw }
/-- STG_ACC_STAT (R161). -/
def STG_ACC_STAT : Reg := { base := 0x1403008, s0 := 0x4000, n0 := 32 }
def STG_ACC_STAT_BUSY : Fld := { reg := STG_ACC_STAT, lsb := 31, w := 1, acc := .ro }
def STG_ACC_STAT_DONE : Fld := { reg := STG_ACC_STAT, lsb := 30, w := 1, acc := .w1c, sa := some (0, 29) }
def STG_ACC_STAT_DONE_SA : Fld := { reg := STG_ACC_STAT, lsb := 29, w := 1, acc := .w1c }
def STG_ACC_STAT_COLLIDE : Fld := { reg := STG_ACC_STAT, lsb := 28, w := 1, acc := .w1c, sa := some (0, 27) }
def STG_ACC_STAT_COLLIDE_SA : Fld := { reg := STG_ACC_STAT, lsb := 27, w := 1, acc := .w1c }
def STG_ACC_STAT_RESULT : Fld := { reg := STG_ACC_STAT, lsb := 0, w := 2, acc := .ro }
/-- STG_ACC_DATA (R161). -/
def STG_ACC_DATA : Reg := { base := 0x1403010, s0 := 0x4000, n0 := 32, s1 := 0x4, n1 := 12 }
def STG_ACC_DATA_DATA : Fld := { reg := STG_ACC_DATA, lsb := 0, w := 32, acc := .rw }
/-- STG_CNT_CTL (R161). -/
def STG_CNT_CTL : Reg := { base := 0x1403048, s0 := 0x4000, n0 := 32, act := .stgCntClr }
def STG_CNT_CTL_CLR : Fld := { reg := STG_CNT_CTL, lsb := 0, w := 1, acc := .wo }
/-- STG_REPIN_CTL (R161). -/
def STG_REPIN_CTL : Reg := { base := 0x1480000 }
def STG_REPIN_CTL_STAGE : Fld := { reg := STG_REPIN_CTL, lsb := 13, w := 5, acc := .rw }
def STG_REPIN_CTL_EN : Fld := { reg := STG_REPIN_CTL, lsb := 0, w := 4, acc := .rw }
/-- STG_REPIN_STAT (R161). -/
def STG_REPIN_STAT : Reg := { base := 0x1480004 }
def STG_REPIN_STAT_ACTIVE : Fld := { reg := STG_REPIN_STAT, lsb := 31, w := 1, acc := .ro }
def STG_REPIN_STAT_DONE : Fld := { reg := STG_REPIN_STAT, lsb := 30, w := 1, acc := .w1c, sa := some (0, 29) }
def STG_REPIN_STAT_DONE_SA : Fld := { reg := STG_REPIN_STAT, lsb := 29, w := 1, acc := .w1c }
def STG_REPIN_STAT_NO_SURVIVOR : Fld := { reg := STG_REPIN_STAT, lsb := 28, w := 1, acc := .w1c, sa := some (0, 27) }
def STG_REPIN_STAT_NO_SURVIVOR_SA : Fld := { reg := STG_REPIN_STAT, lsb := 27, w := 1, acc := .w1c }
def STG_REPIN_STAT_PORT : Fld := { reg := STG_REPIN_STAT, lsb := 0, w := 9, acc := .ro }
/-- STG_ACT_CTL (R189). -/
def STG_ACT_CTL : Reg := { base := 0x1403100, s0 := 0x4000, n0 := 32, act := .stgAct }
def STG_ACT_CTL_GO : Fld := { reg := STG_ACT_CTL, lsb := 31, w := 1, acc := .wo }
def STG_ACT_CTL_BCAST : Fld := { reg := STG_ACT_CTL, lsb := 30, w := 1, acc := .rw }
def STG_ACT_CTL_READ : Fld := { reg := STG_ACT_CTL, lsb := 29, w := 1, acc := .rw }
def STG_ACT_CTL_ACTIVE : Fld := { reg := STG_ACT_CTL, lsb := 28, w := 1, acc := .rw }
def STG_ACT_CTL_SPACE : Fld := { reg := STG_ACT_CTL, lsb := 20, w := 4, acc := .rw }
def STG_ACT_CTL_STAGE : Fld := { reg := STG_ACT_CTL, lsb := 13, w := 5, acc := .rw }
/-- STG_ACT_ADDR (R189). -/
def STG_ACT_ADDR : Reg := { base := 0x1403104, s0 := 0x4000, n0 := 32 }
def STG_ACT_ADDR_ADDR : Fld := { reg := STG_ACT_ADDR, lsb := 0, w := 13, acc := .rw }
/-- STG_ACT_STAT (R189). -/
def STG_ACT_STAT : Reg := { base := 0x1403108, s0 := 0x4000, n0 := 32 }
def STG_ACT_STAT_BUSY : Fld := { reg := STG_ACT_STAT, lsb := 31, w := 1, acc := .ro }
def STG_ACT_STAT_DONE : Fld := { reg := STG_ACT_STAT, lsb := 30, w := 1, acc := .w1c, sa := some (0, 29) }
def STG_ACT_STAT_DONE_SA : Fld := { reg := STG_ACT_STAT, lsb := 29, w := 1, acc := .w1c }
def STG_ACT_STAT_COLLIDE : Fld := { reg := STG_ACT_STAT, lsb := 28, w := 1, acc := .w1c, sa := some (0, 27) }
def STG_ACT_STAT_COLLIDE_SA : Fld := { reg := STG_ACT_STAT, lsb := 27, w := 1, acc := .w1c }
def STG_ACT_STAT_RESULT : Fld := { reg := STG_ACT_STAT, lsb := 0, w := 2, acc := .ro }
/-- STG_ACT_DATA (R189). -/
def STG_ACT_DATA : Reg := { base := 0x1403110, s0 := 0x4000, n0 := 32, s1 := 0x4, n1 := 4 }
def STG_ACT_DATA_DATA : Fld := { reg := STG_ACT_DATA, lsb := 0, w := 32, acc := .rw }
/-- STG_ACT_CNT_CTL (R189). -/
def STG_ACT_CNT_CTL : Reg := { base := 0x1403128, s0 := 0x4000, n0 := 32, act := .stgActCntClr }
def STG_ACT_CNT_CTL_CLR : Fld := { reg := STG_ACT_CNT_CTL, lsb := 0, w := 1, acc := .wo }
/-- STG_MIR_SESS (R189). -/
def STG_MIR_SESS : Reg := { base := 0x1480100, s0 := 0x4, n0 := 256, cfg := true }
def STG_MIR_SESS_EN : Fld := { reg := STG_MIR_SESS, lsb := 31, w := 1, acc := .rw }
def STG_MIR_SESS_PORT : Fld := { reg := STG_MIR_SESS, lsb := 16, w := 9, acc := .rw }
def STG_MIR_SESS_QUEUE : Fld := { reg := STG_MIR_SESS, lsb := 12, w := 4, acc := .rw, norm := [(12, 15, 11)] }
def STG_MIR_SESS_TRUNC : Fld := { reg := STG_MIR_SESS, lsb := 0, w := 8, acc := .rw, norm := [(251, 255, 250)] }
/-- GEN_STAT (R212). -/
def GEN_STAT : Reg := { base := 0x1800000, reset := fun _ _ _ => 0x3, rd := .genStat }
def GEN_STAT_DONE : Fld := { reg := GEN_STAT, lsb := 31, w := 1, acc := .w1c, sa := some (0, 30) }
def GEN_STAT_DONE_SA : Fld := { reg := GEN_STAT, lsb := 30, w := 1, acc := .w1c }
def GEN_STAT_MISSED : Fld := { reg := GEN_STAT, lsb := 29, w := 1, acc := .w1c, sa := some (0, 28) }
def GEN_STAT_MISSED_SA : Fld := { reg := GEN_STAT, lsb := 28, w := 1, acc := .w1c }
def GEN_STAT_REFUSED : Fld := { reg := GEN_STAT, lsb := 27, w := 1, acc := .w1c, sa := some (0, 26) }
def GEN_STAT_REFUSED_SA : Fld := { reg := GEN_STAT, lsb := 26, w := 1, acc := .w1c }
def GEN_STAT_WR_CLOSED : Fld := { reg := GEN_STAT, lsb := 25, w := 1, acc := .w1c, sa := some (0, 24) }
def GEN_STAT_WR_CLOSED_SA : Fld := { reg := GEN_STAT, lsb := 24, w := 1, acc := .w1c }
def GEN_STAT_STALLED : Fld := { reg := GEN_STAT, lsb := 23, w := 1, acc := .ro }
def GEN_STAT_DRAIN_WAIT : Fld := { reg := GEN_STAT, lsb := 22, w := 1, acc := .ro }
def GEN_STAT_ACTIVE_SLOT : Fld := { reg := GEN_STAT, lsb := 16, w := 1, acc := .ro }
def GEN_STAT_RESULT : Fld := { reg := GEN_STAT, lsb := 8, w := 4, acc := .ro }
def GEN_STAT_CSTATE : Fld := { reg := GEN_STAT, lsb := 0, w := 3, acc := .ro }
/-- GEN_ACTIVE (R212). -/
def GEN_ACTIVE : Reg := { base := 0x1800004 }
def GEN_ACTIVE_NUM : Fld := { reg := GEN_ACTIVE, lsb := 0, w := 32, acc := .ro }
/-- GEN_SLOT_NUM (R212). -/
def GEN_SLOT_NUM : Reg := { base := 0x1800008, s0 := 0x4, n0 := 2 }
def GEN_SLOT_NUM_NUM : Fld := { reg := GEN_SLOT_NUM, lsb := 0, w := 32, acc := .ro }
/-- GEN_SLOT_INFL (R212). -/
def GEN_SLOT_INFL : Reg := { base := 0x1800010, s0 := 0x4, n0 := 2 }
def GEN_SLOT_INFL_COUNT : Fld := { reg := GEN_SLOT_INFL, lsb := 0, w := 32, acc := .ro }
/-- GEN_CMT_NUM (R212). -/
def GEN_CMT_NUM : Reg := { base := 0x1800020 }
def GEN_CMT_NUM_NUM : Fld := { reg := GEN_CMT_NUM, lsb := 0, w := 32, acc := .rw }
/-- GEN_CMT_AT_HI (R212). -/
def GEN_CMT_AT_HI : Reg := { base := 0x1800024 }
def GEN_CMT_AT_HI_SEC_HI : Fld := { reg := GEN_CMT_AT_HI, lsb := 0, w := 16, acc := .rw }
/-- GEN_CMT_AT_MID (R212). -/
def GEN_CMT_AT_MID : Reg := { base := 0x1800028 }
def GEN_CMT_AT_MID_SEC_LO : Fld := { reg := GEN_CMT_AT_MID, lsb := 0, w := 32, acc := .rw }
/-- GEN_CMT_AT_LO (R212). -/
def GEN_CMT_AT_LO : Reg := { base := 0x180002C }
def GEN_CMT_AT_LO_NS : Fld := { reg := GEN_CMT_AT_LO, lsb := 0, w := 32, acc := .rw, norm := [(1000000000, 4294967295, 999999999)] }
/-- GEN_CMT_CTL (R212). -/
def GEN_CMT_CTL : Reg := { base := 0x1800030, act := .genCmt }
def GEN_CMT_CTL_GO : Fld := { reg := GEN_CMT_CTL, lsb := 31, w := 1, acc := .wo }
def GEN_CMT_CTL_CANCEL : Fld := { reg := GEN_CMT_CTL, lsb := 30, w := 1, acc := .wo }
def GEN_CMT_CTL_ANYNUM : Fld := { reg := GEN_CMT_CTL, lsb := 5, w := 1, acc := .rw }
def GEN_CMT_CTL_NOW : Fld := { reg := GEN_CMT_CTL, lsb := 4, w := 1, acc := .rw }
def GEN_CMT_CTL_SRC : Fld := { reg := GEN_CMT_CTL, lsb := 0, w := 2, acc := .rw }
/-- GEN_AGE (R212). -/
def GEN_AGE : Reg := { base := 0x1800034, reset := fun _ _ _ => 0x2710 }
def GEN_AGE_MAX_AGE : Fld := { reg := GEN_AGE, lsb := 0, w := 20, acc := .rw, norm := [(0, 99, 100), (1000001, 1048575, 1000000)] }
/-- GEN_DIGEST_LO (R212). -/
def GEN_DIGEST_LO : Reg := { base := 0x1800038 }
def GEN_DIGEST_LO_DIGEST : Fld := { reg := GEN_DIGEST_LO, lsb := 0, w := 32, acc := .ro }
/-- GEN_DIGEST_HI (R212). -/
def GEN_DIGEST_HI : Reg := { base := 0x180003C }
def GEN_DIGEST_HI_DIGEST : Fld := { reg := GEN_DIGEST_HI, lsb := 0, w := 32, acc := .ro }
/-- GEN_BANK_STAT (R212). -/
def GEN_BANK_STAT : Reg := { base := 0x1800040, reset := fun _ _ _ => 0x20000 }
def GEN_BANK_STAT_BOOT_BANK : Fld := { reg := GEN_BANK_STAT, lsb := 16, w := 2, acc := .ro }
def GEN_BANK_STAT_TIE : Fld := { reg := GEN_BANK_STAT, lsb := 2, w := 1, acc := .ro }
def GEN_BANK_STAT_VALID1 : Fld := { reg := GEN_BANK_STAT, lsb := 1, w := 1, acc := .ro }
def GEN_BANK_STAT_VALID0 : Fld := { reg := GEN_BANK_STAT, lsb := 0, w := 1, acc := .ro }
/-- GEN_BANK_SEQ (R212). -/
def GEN_BANK_SEQ : Reg := { base := 0x1800044, s0 := 0x4, n0 := 2 }
def GEN_BANK_SEQ_SEQ : Fld := { reg := GEN_BANK_SEQ, lsb := 0, w := 32, acc := .ro }
/-- GEN_CTL (R212). -/
def GEN_CTL : Reg := { base := 0x180004C }
def GEN_CTL_RD_ACTIVE : Fld := { reg := GEN_CTL, lsb := 0, w := 1, acc := .rw }
/-- GEN_CNT_CTL (R212). -/
def GEN_CNT_CTL : Reg := { base := 0x1800060, act := .genCntClr }
def GEN_CNT_CTL_CLR : Fld := { reg := GEN_CNT_CTL, lsb := 0, w := 1, acc := .wo }
/-- BUF_STAT (R237). -/
def BUF_STAT : Reg := { base := 0x1C00000 }
def BUF_STAT_UNCORR : Fld := { reg := BUF_STAT, lsb := 31, w := 1, acc := .w1c, sa := some (0, 30) }
def BUF_STAT_UNCORR_SA : Fld := { reg := BUF_STAT, lsb := 30, w := 1, acc := .w1c }
def BUF_STAT_CORR_THR : Fld := { reg := BUF_STAT, lsb := 29, w := 1, acc := .w1c, sa := some (0, 28) }
def BUF_STAT_CORR_THR_SA : Fld := { reg := BUF_STAT, lsb := 28, w := 1, acc := .w1c }
/-- BUF_ERR_LOC (R237). -/
def BUF_ERR_LOC : Reg := { base := 0x1C00004 }
def BUF_ERR_LOC_ERASED : Fld := { reg := BUF_ERR_LOC, lsb := 21, w := 10, acc := .ro }
def BUF_ERR_LOC_CELL : Fld := { reg := BUF_ERR_LOC, lsb := 0, w := 21, acc := .ro }
/-- BUF_CORR_THR (R237). -/
def BUF_CORR_THR : Reg := { base := 0x1C00008, reset := fun _ _ _ => 0xF4240 }
def BUF_CORR_THR_THR : Fld := { reg := BUF_CORR_THR, lsb := 0, w := 32, acc := .rw }
/-- BUF_CNT_CTL (R237). -/
def BUF_CNT_CTL : Reg := { base := 0x1C0000C, act := .bufCntClr }
def BUF_CNT_CTL_CLR : Fld := { reg := BUF_CNT_CTL, lsb := 0, w := 1, acc := .wo }
/-- POOL_CTL (R237). -/
def POOL_CTL : Reg := { base := 0x2000000, act := .poolCtl }
def POOL_CTL_REBUILD : Fld := { reg := POOL_CTL, lsb := 2, w := 1, acc := .wo }
def POOL_CTL_CARVE : Fld := { reg := POOL_CTL, lsb := 1, w := 1, acc := .wo }
/-- POOL_STAT (R237). -/
def POOL_STAT : Reg := { base := 0x2000004 }
def POOL_STAT_BAD_FREE : Fld := { reg := POOL_STAT, lsb := 31, w := 1, acc := .w1c, sa := some (0, 30) }
def POOL_STAT_BAD_FREE_SA : Fld := { reg := POOL_STAT, lsb := 30, w := 1, acc := .w1c }
def POOL_STAT_CARVE_ERR : Fld := { reg := POOL_STAT, lsb := 29, w := 1, acc := .w1c, sa := some (0, 28) }
def POOL_STAT_CARVE_ERR_SA : Fld := { reg := POOL_STAT, lsb := 28, w := 1, acc := .w1c }
def POOL_STAT_LOW : Fld := { reg := POOL_STAT, lsb := 27, w := 1, acc := .w1c, sa := some (0, 26) }
def POOL_STAT_LOW_SA : Fld := { reg := POOL_STAT, lsb := 26, w := 1, acc := .w1c }
def POOL_STAT_STATE : Fld := { reg := POOL_STAT, lsb := 0, w := 2, acc := .ro }
/-- POOL_CARVE (R237). -/
def POOL_CARVE : Reg := { base := 0x2000010, s0 := 0x4, n0 := 4, reset := fun p _ _ => if p = 0 then 0x800 else if p = 1 then 0x1000 else if p = 2 then 0x2000 else 0x4800 }
def POOL_CARVE_SB : Fld := { reg := POOL_CARVE, lsb := 0, w := 16, acc := .rw, norm := [(32769, 65535, 32768)] }
/-- POOL_FREE (R237). -/
def POOL_FREE : Reg := { base := 0x2000020, s0 := 0x4, n0 := 4 }
def POOL_FREE_FREE : Fld := { reg := POOL_FREE, lsb := 0, w := 22, acc := .ro }
/-- POOL_FREE_CELLS (R237). -/
def POOL_FREE_CELLS : Reg := { base := 0x2000030, reset := fun _ _ _ => 0x200000 }
def POOL_FREE_CELLS_CELLS : Fld := { reg := POOL_FREE_CELLS, lsb := 0, w := 22, acc := .ro }
/-- POOL_LOW (R237). -/
def POOL_LOW : Reg := { base := 0x2000040, s0 := 0x4, n0 := 4 }
def POOL_LOW_LOW : Fld := { reg := POOL_LOW, lsb := 0, w := 22, acc := .ro }
/-- POOL_LOWTHR (R237). -/
def POOL_LOWTHR : Reg := { base := 0x2000050, s0 := 0x4, n0 := 4 }
def POOL_LOWTHR_THR : Fld := { reg := POOL_LOWTHR, lsb := 0, w := 22, acc := .rw }
/-- POOL_PTR (R237). -/
def POOL_PTR : Reg := { base := 0x2000060, rd := .poolPtr }
def POOL_PTR_PTR : Fld := { reg := POOL_PTR, lsb := 0, w := 6, acc := .ro }
/-- POOL_BAD_INFO (R237). -/
def POOL_BAD_INFO : Reg := { base := 0x2000064 }
def POOL_BAD_INFO_REASON : Fld := { reg := POOL_BAD_INFO, lsb := 31, w := 1, acc := .ro }
def POOL_BAD_INFO_REQ : Fld := { reg := POOL_BAD_INFO, lsb := 25, w := 6, acc := .ro }
def POOL_BAD_INFO_CELL : Fld := { reg := POOL_BAD_INFO, lsb := 0, w := 21, acc := .ro }
/-- POOL_CNT_CTL (R237). -/
def POOL_CNT_CTL : Reg := { base := 0x2000068, act := .poolCntClr }
def POOL_CNT_CTL_CLR : Fld := { reg := POOL_CNT_CTL, lsb := 0, w := 1, acc := .wo }
/-- TM_PORT_CFG (R267). -/
def TM_PORT_CFG : Reg := { base := 0x2400000, s0 := 0x400, n0 := 512, cfg := true }
def TM_PORT_CFG_MCQ9 : Fld := { reg := TM_PORT_CFG, lsb := 0, w := 8, acc := .rw }
/-- TM_PORT_STAT (R267). -/
def TM_PORT_STAT : Reg := { base := 0x2400004, s0 := 0x400, n0 := 512 }
def TM_PORT_STAT_FLUSH_DONE : Fld := { reg := TM_PORT_STAT, lsb := 31, w := 1, acc := .w1c, sa := some (0, 30) }
def TM_PORT_STAT_FLUSH_DONE_SA : Fld := { reg := TM_PORT_STAT, lsb := 30, w := 1, acc := .w1c }
def TM_PORT_STAT_HDRM_OVF : Fld := { reg := TM_PORT_STAT, lsb := 29, w := 1, acc := .w1c, sa := some (0, 28) }
def TM_PORT_STAT_HDRM_OVF_SA : Fld := { reg := TM_PORT_STAT, lsb := 28, w := 1, acc := .w1c }
def TM_PORT_STAT_XOFF : Fld := { reg := TM_PORT_STAT, lsb := 16, w := 8, acc := .ro }
def TM_PORT_STAT_FLUSHING : Fld := { reg := TM_PORT_STAT, lsb := 0, w := 1, acc := .ro }
/-- TM_PORT_CTL (R267). -/
def TM_PORT_CTL : Reg := { base := 0x2400008, s0 := 0x400, n0 := 512, act := .tmPortClr }
def TM_PORT_CTL_CLR : Fld := { reg := TM_PORT_CTL, lsb := 0, w := 1, acc := .wo }
/-- TM_ING_CFG (R267). -/
def TM_ING_CFG : Reg := { base := 0x240000C, s0 := 0x400, n0 := 512, reset := fun _ _ _ => 0x70010000, cfg := true }
def TM_ING_CFG_ALPHA_ING : Fld := { reg := TM_ING_CFG, lsb := 28, w := 4, acc := .rw }
def TM_ING_CFG_XON_DELTA : Fld := { reg := TM_ING_CFG, lsb := 8, w := 16, acc := .rw }
def TM_ING_CFG_LL : Fld := { reg := TM_ING_CFG, lsb := 0, w := 8, acc := .rw }
/-- TM_ING_THR (R267). -/
def TM_ING_THR : Reg := { base := 0x2400010, s0 := 0x400, n0 := 512, reset := fun _ _ _ => 0x10000, cfg := true }
def TM_ING_THR_THR : Fld := { reg := TM_ING_THR, lsb := 0, w := 22, acc := .rw }
/-- TM_ING_HDRM (R267). -/
def TM_ING_HDRM : Reg := { base := 0x2400014, s0 := 0x400, n0 := 512, reset := fun _ _ _ => 0x1000, cfg := true }
def TM_ING_HDRM_HEADROOM : Fld := { reg := TM_ING_HDRM, lsb := 0, w := 22, acc := .rw }
/-- TM_GATE_CTL (R267). -/
def TM_GATE_CTL : Reg := { base := 0x2400018, s0 := 0x400, n0 := 512, reset := fun _ _ _ => 0x1, act := .gateCtl }
def TM_GATE_CTL_SWAP : Fld := { reg := TM_GATE_CTL, lsb := 31, w := 1, acc := .wo }
def TM_GATE_CTL_EN : Fld := { reg := TM_GATE_CTL, lsb := 16, w := 1, acc := .rw }
def TM_GATE_CTL_LEN : Fld := { reg := TM_GATE_CTL, lsb := 0, w := 9, acc := .rw, norm := [(0, 0, 1), (257, 511, 256)] }
/-- TM_GATE_BASE_HI (R267). -/
def TM_GATE_BASE_HI : Reg := { base := 0x240001C, s0 := 0x400, n0 := 512, act := .gateAdm }
def TM_GATE_BASE_HI_SEC_HI : Fld := { reg := TM_GATE_BASE_HI, lsb := 0, w := 16, acc := .rw }
/-- TM_GATE_BASE_MID (R267). -/
def TM_GATE_BASE_MID : Reg := { base := 0x2400020, s0 := 0x400, n0 := 512, act := .gateAdm }
def TM_GATE_BASE_MID_SEC_LO : Fld := { reg := TM_GATE_BASE_MID, lsb := 0, w := 32, acc := .rw }
/-- TM_GATE_BASE_LO (R267). -/
def TM_GATE_BASE_LO : Reg := { base := 0x2400024, s0 := 0x400, n0 := 512, act := .gateAdm }
def TM_GATE_BASE_LO_NS : Fld := { reg := TM_GATE_BASE_LO, lsb := 0, w := 32, acc := .rw, norm := [(1000000000, 4294967295, 999999999)] }
/-- TM_GATE_CYCLE (R267). -/
def TM_GATE_CYCLE : Reg := { base := 0x2400028, s0 := 0x400, n0 := 512, reset := fun _ _ _ => 0xF4240, act := .gateAdm }
def TM_GATE_CYCLE_CYCLE : Fld := { reg := TM_GATE_CYCLE, lsb := 0, w := 32, acc := .rw, norm := [(0, 99, 100), (1000000001, 4294967295, 1000000000)] }
/-- TM_GATE_STAT (R267). -/
def TM_GATE_STAT : Reg := { base := 0x240002C, s0 := 0x400, n0 := 512, reset := fun _ _ _ => 0xFFF }
def TM_GATE_STAT_SWAPPED : Fld := { reg := TM_GATE_STAT, lsb := 31, w := 1, acc := .w1c, sa := some (0, 30) }
def TM_GATE_STAT_SWAPPED_SA : Fld := { reg := TM_GATE_STAT, lsb := 30, w := 1, acc := .w1c }
def TM_GATE_STAT_GL_REFUSED : Fld := { reg := TM_GATE_STAT, lsb := 29, w := 1, acc := .w1c, sa := some (0, 28) }
def TM_GATE_STAT_GL_REFUSED_SA : Fld := { reg := TM_GATE_STAT, lsb := 28, w := 1, acc := .w1c }
def TM_GATE_STAT_PENDING : Fld := { reg := TM_GATE_STAT, lsb := 27, w := 1, acc := .ro }
def TM_GATE_STAT_OPER : Fld := { reg := TM_GATE_STAT, lsb := 26, w := 1, acc := .ro }
def TM_GATE_STAT_OPER_EN : Fld := { reg := TM_GATE_STAT, lsb := 25, w := 1, acc := .ro }
def TM_GATE_STAT_GATES : Fld := { reg := TM_GATE_STAT, lsb := 0, w := 12, acc := .ro }
/-- TM_ING_CNT (R267). -/
def TM_ING_CNT : Reg := { base := 0x2400040, s0 := 0x400, n0 := 512, s1 := 0x4, n1 := 8 }
def TM_ING_CNT_CELLS : Fld := { reg := TM_ING_CNT, lsb := 0, w := 22, acc := .ro }
/-- TM_Q_CFG (R267). -/
def TM_Q_CFG : Reg := { base := 0x2400100, s0 := 0x400, n0 := 512, s1 := 0x20, n1 := 12, reset := fun _ q _ => 0x170000 + 0x100 * (q % 8) + (if q = 10 ∨ q = 11 then 0xE0000000 else 0), cfg := true }
def TM_Q_CFG_LVL : Fld := { reg := TM_Q_CFG, lsb := 29, w := 3, acc := .rw }
def TM_Q_CFG_WEIGHT : Fld := { reg := TM_Q_CFG, lsb := 20, w := 8, acc := .rw, norm := [(0, 0, 1)] }
def TM_Q_CFG_ALPHA : Fld := { reg := TM_Q_CFG, lsb := 16, w := 4, acc := .rw }
def TM_Q_CFG_IPRI : Fld := { reg := TM_Q_CFG, lsb := 8, w := 3, acc := .rw }
/-- TM_Q_LIMIT (R267). -/
def TM_Q_LIMIT : Reg := { base := 0x2400104, s0 := 0x400, n0 := 512, s1 := 0x20, n1 := 12, reset := fun _ _ _ => 0x40000, cfg := true }
def TM_Q_LIMIT_LIMIT : Fld := { reg := TM_Q_LIMIT, lsb := 0, w := 22, acc := .rw }
/-- TM_Q_DEPTH (R267). -/
def TM_Q_DEPTH : Reg := { base := 0x2400108, s0 := 0x400, n0 := 512, s1 := 0x20, n1 := 12, rd := .tmDepth }
def TM_Q_DEPTH_STATE : Fld := { reg := TM_Q_DEPTH, lsb := 29, w := 3, acc := .ro }
def TM_Q_DEPTH_CELLS : Fld := { reg := TM_Q_DEPTH, lsb := 0, w := 22, acc := .ro }
/-- TM_Q_DWRR (R267). -/
def TM_Q_DWRR : Reg := { base := 0x240010C, s0 := 0x400, n0 := 512, s1 := 0x20, n1 := 12 }
def TM_Q_DWRR_DC : Fld := { reg := TM_Q_DWRR, lsb := 0, w := 32, acc := .ro }
/-- TM_CHIP_CFG (R267). -/
def TM_CHIP_CFG : Reg := { base := 0x2480000, reset := fun _ _ _ => 0x64, cfg := true }
def TM_CHIP_CFG_RES_MAX : Fld := { reg := TM_CHIP_CFG, lsb := 0, w := 14, acc := .rw, norm := [(0, 0, 1), (10001, 16383, 10000)] }
/-- TM_PART_CFG (R267). -/
def TM_PART_CFG : Reg := { base := 0x2480004, reset := fun _ _ _ => 0x10000, cfg := true }
def TM_PART_CFG_HOB_RSV : Fld := { reg := TM_PART_CFG, lsb := 0, w := 22, acc := .rw }
/-- TM_CHIP_STAT (R267). -/
def TM_CHIP_STAT : Reg := { base := 0x2480008 }
def TM_CHIP_STAT_CFG_ERR : Fld := { reg := TM_CHIP_STAT, lsb := 31, w := 1, acc := .w1c, sa := some (0, 30) }
def TM_CHIP_STAT_CFG_ERR_SA : Fld := { reg := TM_CHIP_STAT, lsb := 30, w := 1, acc := .w1c }
def TM_CHIP_STAT_RES_FULL : Fld := { reg := TM_CHIP_STAT, lsb := 29, w := 1, acc := .w1c, sa := some (0, 28) }
def TM_CHIP_STAT_RES_FULL_SA : Fld := { reg := TM_CHIP_STAT, lsb := 28, w := 1, acc := .w1c }
def TM_CHIP_STAT_RES_USED : Fld := { reg := TM_CHIP_STAT, lsb := 0, w := 15, acc := .ro }
/-- TM_CHIP_CTL (R267). -/
def TM_CHIP_CTL : Reg := { base := 0x248000C, act := .tmChipClr }
def TM_CHIP_CTL_CLR : Fld := { reg := TM_CHIP_CTL, lsb := 0, w := 1, acc := .wo }
/-- TM_MC_CTL (R267). -/
def TM_MC_CTL : Reg := { base := 0x2480100, act := .tmMc }
def TM_MC_CTL_GO : Fld := { reg := TM_MC_CTL, lsb := 31, w := 1, acc := .wo }
def TM_MC_CTL_ACTIVE : Fld := { reg := TM_MC_CTL, lsb := 30, w := 1, acc := .rw }
def TM_MC_CTL_READ : Fld := { reg := TM_MC_CTL, lsb := 29, w := 1, acc := .rw }
def TM_MC_CTL_GROUP : Fld := { reg := TM_MC_CTL, lsb := 0, w := 16, acc := .rw }
/-- TM_MC_STAT (R267). -/
def TM_MC_STAT : Reg := { base := 0x2480104 }
def TM_MC_STAT_BUSY : Fld := { reg := TM_MC_STAT, lsb := 31, w := 1, acc := .ro }
def TM_MC_STAT_DONE : Fld := { reg := TM_MC_STAT, lsb := 30, w := 1, acc := .w1c, sa := some (0, 29) }
def TM_MC_STAT_DONE_SA : Fld := { reg := TM_MC_STAT, lsb := 29, w := 1, acc := .w1c }
def TM_MC_STAT_COLLIDE : Fld := { reg := TM_MC_STAT, lsb := 28, w := 1, acc := .w1c, sa := some (0, 27) }
def TM_MC_STAT_COLLIDE_SA : Fld := { reg := TM_MC_STAT, lsb := 27, w := 1, acc := .w1c }
def TM_MC_STAT_RESULT : Fld := { reg := TM_MC_STAT, lsb := 0, w := 2, acc := .ro }
/-- TM_MC_FLAGS (R267). -/
def TM_MC_FLAGS : Reg := { base := 0x2480108 }
def TM_MC_FLAGS_PRUNE : Fld := { reg := TM_MC_FLAGS, lsb := 0, w := 1, acc := .rw }
/-- TM_MC_DATA (R267). -/
def TM_MC_DATA : Reg := { base := 0x2480110, s0 := 0x4, n0 := 16 }
def TM_MC_DATA_MAP : Fld := { reg := TM_MC_DATA, lsb := 0, w := 32, acc := .rw }
/-- TM_GATE_ENT0 (R257). -/
def TM_GATE_ENT0 : Reg := { base := 0x2500000, s0 := 0x1000, n0 := 512, s1 := 0x800, n1 := 2, s2 := 0x8, n2 := 256, reset := fun _ _ _ => 0xFFF, act := .gateEnt }
def TM_GATE_ENT0_GATES : Fld := { reg := TM_GATE_ENT0, lsb := 0, w := 12, acc := .rw }
/-- TM_GATE_ENT1 (R257). -/
def TM_GATE_ENT1 : Reg := { base := 0x2500004, s0 := 0x1000, n0 := 512, s1 := 0x800, n1 := 2, s2 := 0x8, n2 := 256, reset := fun _ _ _ => 0xF4240, act := .gateEnt }
def TM_GATE_ENT1_INTERVAL : Fld := { reg := TM_GATE_ENT1, lsb := 0, w := 32, acc := .rw, norm := [(0, 0, 1)] }
/-- TIME_STAT (R291). -/
def TIME_STAT : Reg := { base := 0x2800000 }
def TIME_STAT_JUMP_REF : Fld := { reg := TIME_STAT, lsb := 31, w := 1, acc := .w1c, sa := some (0, 30) }
def TIME_STAT_JUMP_REF_SA : Fld := { reg := TIME_STAT, lsb := 30, w := 1, acc := .w1c }
def TIME_STAT_PATH_STEP : Fld := { reg := TIME_STAT, lsb := 29, w := 1, acc := .w1c, sa := some (0, 28) }
def TIME_STAT_PATH_STEP_SA : Fld := { reg := TIME_STAT, lsb := 28, w := 1, acc := .w1c }
def TIME_STAT_STEPPED : Fld := { reg := TIME_STAT, lsb := 27, w := 1, acc := .w1c, sa := some (0, 26) }
def TIME_STAT_STEPPED_SA : Fld := { reg := TIME_STAT, lsb := 26, w := 1, acc := .w1c }
def TIME_STAT_SAMPLE_LOST : Fld := { reg := TIME_STAT, lsb := 25, w := 1, acc := .w1c, sa := some (0, 24) }
def TIME_STAT_SAMPLE_LOST_SA : Fld := { reg := TIME_STAT, lsb := 24, w := 1, acc := .w1c }
def TIME_STAT_CAUSE : Fld := { reg := TIME_STAT, lsb := 4, w := 2, acc := .ro }
def TIME_STAT_JUMP_OVR : Fld := { reg := TIME_STAT, lsb := 3, w := 1, acc := .ro }
def TIME_STAT_STATE : Fld := { reg := TIME_STAT, lsb := 0, w := 2, acc := .ro }
/-- TIME_CMD (R291). -/
def TIME_CMD : Reg := { base := 0x2800004, act := .timeCmd }
def TIME_CMD_SAMPLE : Fld := { reg := TIME_CMD, lsb := 31, w := 1, acc := .wo }
def TIME_CMD_PD_VALID : Fld := { reg := TIME_CMD, lsb := 30, w := 1, acc := .wo }
def TIME_CMD_SET : Fld := { reg := TIME_CMD, lsb := 29, w := 1, acc := .wo }
def TIME_CMD_RUN : Fld := { reg := TIME_CMD, lsb := 28, w := 1, acc := .wo }
def TIME_CMD_HOLD : Fld := { reg := TIME_CMD, lsb := 27, w := 1, acc := .wo }
def TIME_CMD_FREE : Fld := { reg := TIME_CMD, lsb := 26, w := 1, acc := .wo }
def TIME_CMD_REQUAL : Fld := { reg := TIME_CMD, lsb := 25, w := 1, acc := .wo }
def TIME_CMD_JUMP_OVR : Fld := { reg := TIME_CMD, lsb := 24, w := 1, acc := .wo }
/-- TIME_NOW_HI (R291). -/
def TIME_NOW_HI : Reg := { base := 0x2800008, rd := .timeNow }
def TIME_NOW_HI_SEC_HI : Fld := { reg := TIME_NOW_HI, lsb := 0, w := 16, acc := .ro }
/-- TIME_NOW_MID (R291). -/
def TIME_NOW_MID : Reg := { base := 0x280000C }
def TIME_NOW_MID_SEC_LO : Fld := { reg := TIME_NOW_MID, lsb := 0, w := 32, acc := .ro }
/-- TIME_NOW_LO (R291). -/
def TIME_NOW_LO : Reg := { base := 0x2800010 }
def TIME_NOW_LO_NS : Fld := { reg := TIME_NOW_LO, lsb := 0, w := 32, acc := .ro }
/-- TIME_NOW_FRAC (R291). -/
def TIME_NOW_FRAC : Reg := { base := 0x2800014 }
def TIME_NOW_FRAC_FRAC : Fld := { reg := TIME_NOW_FRAC, lsb := 0, w := 16, acc := .ro }
/-- TIME_SET_HI (R291). -/
def TIME_SET_HI : Reg := { base := 0x2800018 }
def TIME_SET_HI_SEC_HI : Fld := { reg := TIME_SET_HI, lsb := 0, w := 16, acc := .rw }
/-- TIME_SET_MID (R291). -/
def TIME_SET_MID : Reg := { base := 0x280001C }
def TIME_SET_MID_SEC_LO : Fld := { reg := TIME_SET_MID, lsb := 0, w := 32, acc := .rw }
/-- TIME_SET_LO (R291). -/
def TIME_SET_LO : Reg := { base := 0x2800020 }
def TIME_SET_LO_NS : Fld := { reg := TIME_SET_LO, lsb := 0, w := 32, acc := .rw, norm := [(1000000000, 4294967295, 999999999)] }
/-- TIME_SET_FRAC (R291). -/
def TIME_SET_FRAC : Reg := { base := 0x2800024 }
def TIME_SET_FRAC_FRAC : Fld := { reg := TIME_SET_FRAC, lsb := 0, w := 16, acc := .rw }
/-- TIME_OFS_HI (R291). -/
def TIME_OFS_HI : Reg := { base := 0x2800028 }
def TIME_OFS_HI_OFS_HI : Fld := { reg := TIME_OFS_HI, lsb := 0, w := 16, acc := .rw }
/-- TIME_OFS_LO (R291). -/
def TIME_OFS_LO : Reg := { base := 0x280002C }
def TIME_OFS_LO_OFS_LO : Fld := { reg := TIME_OFS_LO, lsb := 0, w := 32, acc := .rw }
/-- TIME_PD (R291). -/
def TIME_PD : Reg := { base := 0x2800030 }
def TIME_PD_PD : Fld := { reg := TIME_PD, lsb := 0, w := 32, acc := .rw }
/-- TIME_FREQ (R291). -/
def TIME_FREQ : Reg := { base := 0x2800034 }
def TIME_FREQ_ADJ : Fld := { reg := TIME_FREQ, lsb := 0, w := 32, acc := .ro }
/-- TIME_CFG (R291). -/
def TIME_CFG : Reg := { base := 0x2800038, reset := fun _ _ _ => 0x13030D40 }
def TIME_CFG_SRC : Fld := { reg := TIME_CFG, lsb := 31, w := 1, acc := .rw }
def TIME_CFG_PTP_TYPE : Fld := { reg := TIME_CFG, lsb := 24, w := 7, acc := .rw }
def TIME_CFG_FREQ_MAX : Fld := { reg := TIME_CFG, lsb := 0, w := 24, acc := .rw, norm := [(0, 0, 1), (1000001, 16777215, 1000000)] }
/-- TIME_GAIN (R291). -/
def TIME_GAIN : Reg := { base := 0x280003C, reset := fun _ _ _ => 0x800008 }
def TIME_GAIN_KP : Fld := { reg := TIME_GAIN, lsb := 16, w := 16, acc := .rw }
def TIME_GAIN_KI : Fld := { reg := TIME_GAIN, lsb := 0, w := 16, acc := .rw }
/-- TIME_LOCK (R291). -/
def TIME_LOCK : Reg := { base := 0x2800040, reset := fun _ _ _ => 0x80C8032 }
def TIME_LOCK_LOCK_CNT : Fld := { reg := TIME_LOCK, lsb := 24, w := 8, acc := .rw, norm := [(0, 0, 1)] }
def TIME_LOCK_UNLOCK_THR : Fld := { reg := TIME_LOCK, lsb := 12, w := 12, acc := .rw }
def TIME_LOCK_LOCK_THR : Fld := { reg := TIME_LOCK, lsb := 0, w := 12, acc := .rw }
/-- TIME_STEP (R291). -/
def TIME_STEP : Reg := { base := 0x2800044, reset := fun _ _ _ => 0x1F40032 }
def TIME_STEP_STEP_THR : Fld := { reg := TIME_STEP, lsb := 16, w := 16, acc := .rw }
def TIME_STEP_PATH_STEP_MAX : Fld := { reg := TIME_STEP, lsb := 0, w := 16, acc := .rw }
/-- TIME_JUMP (R291). -/
def TIME_JUMP : Reg := { base := 0x2800048, reset := fun _ _ _ => 0x3E8 }
def TIME_JUMP_JUMP_MAX : Fld := { reg := TIME_JUMP, lsb := 0, w := 32, acc := .rw, norm := [(0, 0, 1)] }
/-- TIME_TMO (R291). -/
def TIME_TMO : Reg := { base := 0x280004C, reset := fun _ _ _ => 0xE100BB8 }
def TIME_TMO_HOLD_MAX : Fld := { reg := TIME_TMO, lsb := 16, w := 16, acc := .rw, norm := [(0, 0, 1)] }
def TIME_TMO_SAMPLE_TMO : Fld := { reg := TIME_TMO, lsb := 0, w := 16, acc := .rw, norm := [(0, 0, 1)] }
/-- TIME_CNT_CTL (R291). -/
def TIME_CNT_CTL : Reg := { base := 0x2800058, act := .timeCntClr }
def TIME_CNT_CTL_CLR : Fld := { reg := TIME_CNT_CTL, lsb := 0, w := 1, acc := .wo }
/-- TIME_PORT_CFG (R291). -/
def TIME_PORT_CFG : Reg := { base := 0x2801000, s0 := 0x10, n0 := 514 }
def TIME_PORT_CFG_OS_EN : Fld := { reg := TIME_PORT_CFG, lsb := 1, w := 1, acc := .rw }
def TIME_PORT_CFG_TC_EN : Fld := { reg := TIME_PORT_CFG, lsb := 0, w := 1, acc := .rw }
/-- TIME_PORT_RXC (R291). -/
def TIME_PORT_RXC : Reg := { base := 0x2801004, s0 := 0x10, n0 := 514 }
def TIME_PORT_RXC_CORR : Fld := { reg := TIME_PORT_RXC, lsb := 0, w := 24, acc := .rw }
/-- TIME_PORT_TXC (R291). -/
def TIME_PORT_TXC : Reg := { base := 0x2801008, s0 := 0x10, n0 := 514 }
def TIME_PORT_TXC_CORR : Fld := { reg := TIME_PORT_TXC, lsb := 0, w := 24, acc := .rw }
/-- TIME_TSQ_W0 (R279). -/
def TIME_TSQ_W0 : Reg := { base := 0x2804000, s0 := 0x40, n0 := 33, rd := .tsqW0 }
def TIME_TSQ_W0_WORD : Fld := { reg := TIME_TSQ_W0, lsb := 0, w := 32, acc := .ro }
/-- TIME_TSQ_W1 (R279). -/
def TIME_TSQ_W1 : Reg := { base := 0x2804004, s0 := 0x40, n0 := 33 }
def TIME_TSQ_W1_WORD : Fld := { reg := TIME_TSQ_W1, lsb := 0, w := 32, acc := .ro }
/-- TIME_TSQ_W2 (R279). -/
def TIME_TSQ_W2 : Reg := { base := 0x2804008, s0 := 0x40, n0 := 33 }
def TIME_TSQ_W2_WORD : Fld := { reg := TIME_TSQ_W2, lsb := 0, w := 32, acc := .ro }
/-- TIME_TSQ_W3 (R279). -/
def TIME_TSQ_W3 : Reg := { base := 0x280400C, s0 := 0x40, n0 := 33 }
def TIME_TSQ_W3_WORD : Fld := { reg := TIME_TSQ_W3, lsb := 0, w := 32, acc := .ro }
/-- TIME_TSQ_W4 (R279). -/
def TIME_TSQ_W4 : Reg := { base := 0x2804010, s0 := 0x40, n0 := 33 }
def TIME_TSQ_W4_WORD : Fld := { reg := TIME_TSQ_W4, lsb := 0, w := 32, acc := .ro }
/-- TIME_TSQ_STAT (R291). -/
def TIME_TSQ_STAT : Reg := { base := 0x2804014, s0 := 0x40, n0 := 33 }
def TIME_TSQ_STAT_NEXT_QSEQ : Fld := { reg := TIME_TSQ_STAT, lsb := 16, w := 16, acc := .ro }
def TIME_TSQ_STAT_LEVEL : Fld := { reg := TIME_TSQ_STAT, lsb := 0, w := 10, acc := .ro }
/-- TIME_TSQ_CTL (R291). -/
def TIME_TSQ_CTL : Reg := { base := 0x2804020, s0 := 0x40, n0 := 33, act := .tsqClr }
def TIME_TSQ_CTL_CLR : Fld := { reg := TIME_TSQ_CTL, lsb := 0, w := 1, acc := .wo }
/-- TIME_TOUT_CTL (R292). -/
def TIME_TOUT_CTL : Reg := { base := 0x2805000, s0 := 0x40, n0 := 8, act := .toutCtl }
def TIME_TOUT_CTL_ARM : Fld := { reg := TIME_TOUT_CTL, lsb := 31, w := 1, acc := .wo }
def TIME_TOUT_CTL_STOP : Fld := { reg := TIME_TOUT_CTL, lsb := 30, w := 1, acc := .wo }
def TIME_TOUT_CTL_MODE : Fld := { reg := TIME_TOUT_CTL, lsb := 4, w := 2, acc := .rw, norm := [(3, 3, 0)] }
def TIME_TOUT_CTL_QUAL : Fld := { reg := TIME_TOUT_CTL, lsb := 3, w := 1, acc := .rw }
def TIME_TOUT_CTL_POL : Fld := { reg := TIME_TOUT_CTL, lsb := 2, w := 1, acc := .rw }
/-- TIME_TOUT_STAT (R292). -/
def TIME_TOUT_STAT : Reg := { base := 0x2805004, s0 := 0x40, n0 := 8 }
def TIME_TOUT_STAT_LATE : Fld := { reg := TIME_TOUT_STAT, lsb := 31, w := 1, acc := .w1c, sa := some (0, 30) }
def TIME_TOUT_STAT_LATE_SA : Fld := { reg := TIME_TOUT_STAT, lsb := 30, w := 1, acc := .w1c }
def TIME_TOUT_STAT_HELD : Fld := { reg := TIME_TOUT_STAT, lsb := 29, w := 1, acc := .w1c, sa := some (0, 28) }
def TIME_TOUT_STAT_HELD_SA : Fld := { reg := TIME_TOUT_STAT, lsb := 28, w := 1, acc := .w1c }
def TIME_TOUT_STAT_RUN : Fld := { reg := TIME_TOUT_STAT, lsb := 27, w := 1, acc := .ro }
def TIME_TOUT_STAT_SUPPRESS : Fld := { reg := TIME_TOUT_STAT, lsb := 26, w := 1, acc := .ro }
/-- TIME_TOUT_START_HI (R292). -/
def TIME_TOUT_START_HI : Reg := { base := 0x2805008, s0 := 0x40, n0 := 8 }
def TIME_TOUT_START_HI_SEC_HI : Fld := { reg := TIME_TOUT_START_HI, lsb := 0, w := 16, acc := .rw }
/-- TIME_TOUT_START_MID (R292). -/
def TIME_TOUT_START_MID : Reg := { base := 0x280500C, s0 := 0x40, n0 := 8 }
def TIME_TOUT_START_MID_SEC_LO : Fld := { reg := TIME_TOUT_START_MID, lsb := 0, w := 32, acc := .rw }
/-- TIME_TOUT_START_LO (R292). -/
def TIME_TOUT_START_LO : Reg := { base := 0x2805010, s0 := 0x40, n0 := 8 }
def TIME_TOUT_START_LO_NS : Fld := { reg := TIME_TOUT_START_LO, lsb := 0, w := 32, acc := .rw, norm := [(1000000000, 4294967295, 999999999)] }
/-- TIME_TOUT_START_FRAC (R292). -/
def TIME_TOUT_START_FRAC : Reg := { base := 0x2805014, s0 := 0x40, n0 := 8 }
def TIME_TOUT_START_FRAC_FRAC : Fld := { reg := TIME_TOUT_START_FRAC, lsb := 0, w := 16, acc := .rw }
/-- TIME_TOUT_PER (R292). -/
def TIME_TOUT_PER : Reg := { base := 0x2805018, s0 := 0x40, n0 := 8, reset := fun _ _ _ => 0x8 }
def TIME_TOUT_PER_PER_NS : Fld := { reg := TIME_TOUT_PER, lsb := 0, w := 32, acc := .rw, norm := [(0, 7, 8)] }
/-- TIME_TOUT_WF (R292). -/
def TIME_TOUT_WF : Reg := { base := 0x280501C, s0 := 0x40, n0 := 8, reset := fun _ _ _ => 0x4 }
def TIME_TOUT_WF_PER_FRAC : Fld := { reg := TIME_TOUT_WF, lsb := 16, w := 16, acc := .rw }
def TIME_TOUT_WF_WIDTH : Fld := { reg := TIME_TOUT_WF, lsb := 0, w := 16, acc := .rw }
/-- TIME_TIN_CTL (R292). -/
def TIME_TIN_CTL : Reg := { base := 0x2806000, s0 := 0x20, n0 := 5, act := .tinCtl }
def TIME_TIN_CTL_CLR : Fld := { reg := TIME_TIN_CTL, lsb := 31, w := 1, acc := .wo }
def TIME_TIN_CTL_IRQ_EN : Fld := { reg := TIME_TIN_CTL, lsb := 2, w := 1, acc := .rw }
def TIME_TIN_CTL_EDGE : Fld := { reg := TIME_TIN_CTL, lsb := 0, w := 2, acc := .rw }
/-- TIME_TIN_STAT (R292). -/
def TIME_TIN_STAT : Reg := { base := 0x2806004, s0 := 0x20, n0 := 5 }
def TIME_TIN_STAT_OVF : Fld := { reg := TIME_TIN_STAT, lsb := 31, w := 1, acc := .w1c, sa := some (0, 30) }
def TIME_TIN_STAT_OVF_SA : Fld := { reg := TIME_TIN_STAT, lsb := 30, w := 1, acc := .w1c }
def TIME_TIN_STAT_LEVEL : Fld := { reg := TIME_TIN_STAT, lsb := 16, w := 5, acc := .ro }
def TIME_TIN_STAT_LOST : Fld := { reg := TIME_TIN_STAT, lsb := 0, w := 16, acc := .ro }
/-- TIME_TIN_EV_SEC_HI (R292). -/
def TIME_TIN_EV_SEC_HI : Reg := { base := 0x2806008, s0 := 0x20, n0 := 5, rd := .tinEv }
def TIME_TIN_EV_SEC_HI_VALID : Fld := { reg := TIME_TIN_EV_SEC_HI, lsb := 31, w := 1, acc := .ro }
def TIME_TIN_EV_SEC_HI_RISE : Fld := { reg := TIME_TIN_EV_SEC_HI, lsb := 30, w := 1, acc := .ro }
def TIME_TIN_EV_SEC_HI_SEC_HI : Fld := { reg := TIME_TIN_EV_SEC_HI, lsb := 0, w := 16, acc := .ro }
/-- TIME_TIN_EV_SEC_LO (R292). -/
def TIME_TIN_EV_SEC_LO : Reg := { base := 0x280600C, s0 := 0x20, n0 := 5 }
def TIME_TIN_EV_SEC_LO_SEC_LO : Fld := { reg := TIME_TIN_EV_SEC_LO, lsb := 0, w := 32, acc := .ro }
/-- TIME_TIN_EV_NS (R292). -/
def TIME_TIN_EV_NS : Reg := { base := 0x2806010, s0 := 0x20, n0 := 5 }
def TIME_TIN_EV_NS_NS : Fld := { reg := TIME_TIN_EV_NS, lsb := 0, w := 32, acc := .ro }
/-- TIME_TIN_EV_FRAC (R292). -/
def TIME_TIN_EV_FRAC : Reg := { base := 0x2806014, s0 := 0x20, n0 := 5 }
def TIME_TIN_EV_FRAC_FRAC : Fld := { reg := TIME_TIN_EV_FRAC, lsb := 0, w := 16, acc := .ro }
/-- HOB_CTX_CTL (R320). -/
def HOB_CTX_CTL : Reg := { base := 0x2C00000, act := .hobCtx }
def HOB_CTX_CTL_GO : Fld := { reg := HOB_CTX_CTL, lsb := 31, w := 1, acc := .wo }
def HOB_CTX_CTL_CMD : Fld := { reg := HOB_CTX_CTL, lsb := 28, w := 3, acc := .rw }
def HOB_CTX_CTL_INDEX : Fld := { reg := HOB_CTX_CTL, lsb := 0, w := 14, acc := .rw }
/-- HOB_CTX_STAT (R320). -/
def HOB_CTX_STAT : Reg := { base := 0x2C00004 }
def HOB_CTX_STAT_BUSY : Fld := { reg := HOB_CTX_STAT, lsb := 31, w := 1, acc := .ro }
def HOB_CTX_STAT_DONE : Fld := { reg := HOB_CTX_STAT, lsb := 30, w := 1, acc := .w1c, sa := some (0, 29) }
def HOB_CTX_STAT_DONE_SA : Fld := { reg := HOB_CTX_STAT, lsb := 29, w := 1, acc := .w1c }
def HOB_CTX_STAT_COLLIDE : Fld := { reg := HOB_CTX_STAT, lsb := 28, w := 1, acc := .w1c, sa := some (0, 27) }
def HOB_CTX_STAT_COLLIDE_SA : Fld := { reg := HOB_CTX_STAT, lsb := 27, w := 1, acc := .w1c }
def HOB_CTX_STAT_RESULT : Fld := { reg := HOB_CTX_STAT, lsb := 0, w := 3, acc := .ro }
/-- HOB_EVT (R320). -/
def HOB_EVT : Reg := { base := 0x2C00008 }
def HOB_EVT_ABORTED : Fld := { reg := HOB_EVT, lsb := 31, w := 1, acc := .w1c, sa := some (0, 30) }
def HOB_EVT_ABORTED_SA : Fld := { reg := HOB_EVT, lsb := 30, w := 1, acc := .w1c }
def HOB_EVT_CTX_DONE : Fld := { reg := HOB_EVT, lsb := 29, w := 1, acc := .w1c, sa := some (0, 28) }
def HOB_EVT_CTX_DONE_SA : Fld := { reg := HOB_EVT, lsb := 28, w := 1, acc := .w1c }
def HOB_EVT_LAST_CTX : Fld := { reg := HOB_EVT, lsb := 0, w := 12, acc := .ro }
/-- HOB_ABORT_INFO (R320). -/
def HOB_ABORT_INFO : Reg := { base := 0x2C0000C }
def HOB_ABORT_INFO_CAUSE : Fld := { reg := HOB_ABORT_INFO, lsb := 29, w := 3, acc := .ro }
def HOB_ABORT_INFO_CHILD : Fld := { reg := HOB_ABORT_INFO, lsb := 23, w := 6, acc := .ro }
def HOB_ABORT_INFO_CTX : Fld := { reg := HOB_ABORT_INFO, lsb := 0, w := 12, acc := .ro }
/-- HOB_CNT_CTL (R320). -/
def HOB_CNT_CTL : Reg := { base := 0x2C00010, act := .hobCntClr }
def HOB_CNT_CTL_CLR : Fld := { reg := HOB_CNT_CTL, lsb := 0, w := 1, acc := .wo }
/-- HOB_CTX_DATA (R320). -/
def HOB_CTX_DATA : Reg := { base := 0x2C00020, s0 := 0x4, n0 := 32 }
def HOB_CTX_DATA_DATA : Fld := { reg := HOB_CTX_DATA, lsb := 0, w := 32, acc := .rw }
/-- HOB_ENG_STAT (R320). -/
def HOB_ENG_STAT : Reg := { base := 0x2C00100, s0 := 0x4, n0 := 32, reset := fun _ _ _ => 0x20000000 }
def HOB_ENG_STAT_HALTED : Fld := { reg := HOB_ENG_STAT, lsb := 31, w := 1, acc := .ro }
def HOB_ENG_STAT_DAMPER : Fld := { reg := HOB_ENG_STAT, lsb := 24, w := 6, acc := .ro }
def HOB_ENG_STAT_ACTIVE : Fld := { reg := HOB_ENG_STAT, lsb := 0, w := 8, acc := .ro }
/-- PWR_CAP (R341). -/
def PWR_CAP : Reg := { base := 0x3000000, reset := fun _ _ _ => 0xA047E }
def PWR_CAP_MARGIN : Fld := { reg := PWR_CAP, lsb := 16, w := 8, acc := .rw }
def PWR_CAP_CAP : Fld := { reg := PWR_CAP, lsb := 0, w := 11, acc := .rw, norm := [(0, 299, 300), (1301, 2047, 1300)] }
/-- PWR_STAT (R341). -/
def PWR_STAT : Reg := { base := 0x3000004 }
def PWR_STAT_OVER : Fld := { reg := PWR_STAT, lsb := 31, w := 1, acc := .w1c, sa := some (0, 30) }
def PWR_STAT_OVER_SA : Fld := { reg := PWR_STAT, lsb := 30, w := 1, acc := .w1c }
def PWR_STAT_SENSOR_FAIL : Fld := { reg := PWR_STAT, lsb := 29, w := 1, acc := .w1c, sa := some (0, 28) }
def PWR_STAT_SENSOR_FAIL_SA : Fld := { reg := PWR_STAT, lsb := 28, w := 1, acc := .w1c }
def PWR_STAT_CAL_LIMIT : Fld := { reg := PWR_STAT, lsb := 27, w := 1, acc := .w1c, sa := some (0, 26) }
def PWR_STAT_CAL_LIMIT_SA : Fld := { reg := PWR_STAT, lsb := 26, w := 1, acc := .w1c }
def PWR_STAT_HINT_FULL : Fld := { reg := PWR_STAT, lsb := 25, w := 1, acc := .w1c, sa := some (0, 24) }
def PWR_STAT_HINT_FULL_SA : Fld := { reg := PWR_STAT, lsb := 24, w := 1, acc := .w1c }
def PWR_STAT_EST_ENERGY : Fld := { reg := PWR_STAT, lsb := 4, w := 1, acc := .ro }
def PWR_STAT_THROTTLE : Fld := { reg := PWR_STAT, lsb := 3, w := 1, acc := .ro }
def PWR_STAT_VGOOD : Fld := { reg := PWR_STAT, lsb := 2, w := 1, acc := .ro }
def PWR_STAT_FLOOR : Fld := { reg := PWR_STAT, lsb := 1, w := 1, acc := .ro }
/-- PWR_EST (R341). -/
def PWR_EST : Reg := { base := 0x3000008 }
def PWR_EST_HOB : Fld := { reg := PWR_EST, lsb := 16, w := 16, acc := .ro }
def PWR_EST_FIX : Fld := { reg := PWR_EST, lsb := 0, w := 16, acc := .ro }
/-- PWR_MEAS (R341). -/
def PWR_MEAS : Reg := { base := 0x300000C }
def PWR_MEAS_HOB : Fld := { reg := PWR_MEAS, lsb := 16, w := 16, acc := .ro }
def PWR_MEAS_TOTAL : Fld := { reg := PWR_MEAS, lsb := 0, w := 16, acc := .ro }
/-- PWR_SHARE (R341). -/
def PWR_SHARE : Reg := { base := 0x3000010 }
def PWR_SHARE_CAP_EFF : Fld := { reg := PWR_SHARE, lsb := 16, w := 11, acc := .ro }
def PWR_SHARE_S : Fld := { reg := PWR_SHARE, lsb := 0, w := 16, acc := .ro }
/-- PWR_CAL (R341). -/
def PWR_CAL : Reg := { base := 0x3000014, reset := fun _ _ _ => 0x40000000 }
def PWR_CAL_GAIN : Fld := { reg := PWR_CAL, lsb := 16, w := 16, acc := .ro }
def PWR_CAL_OFFSET : Fld := { reg := PWR_CAL, lsb := 0, w := 16, acc := .ro }
/-- PWR_CFG (R341). -/
def PWR_CFG : Reg := { base := 0x3000018, reset := fun _ _ _ => 0x804 }
def PWR_CFG_BOOST_HOLD : Fld := { reg := PWR_CFG, lsb := 8, w := 4, acc := .rw, norm := [(0, 0, 1)] }
def PWR_CFG_BOOST_MAX : Fld := { reg := PWR_CFG, lsb := 0, w := 3, acc := .rw, norm := [(5, 7, 4)] }
/-- PWR_BELLOWS (R341). -/
def PWR_BELLOWS : Reg := { base := 0x300001C }
def PWR_BELLOWS_CEIL : Fld := { reg := PWR_BELLOWS, lsb := 8, w := 3, acc := .ro }
def PWR_BELLOWS_TARGET : Fld := { reg := PWR_BELLOWS, lsb := 4, w := 3, acc := .ro }
def PWR_BELLOWS_POINT : Fld := { reg := PWR_BELLOWS, lsb := 0, w := 3, acc := .ro }
/-- PWR_HINT (R341). -/
def PWR_HINT : Reg := { base := 0x3000020, act := .pwrHint }
def PWR_HINT_LEAD : Fld := { reg := PWR_HINT, lsb := 16, w := 16, acc := .wo }
def PWR_HINT_OPP : Fld := { reg := PWR_HINT, lsb := 8, w := 3, acc := .wo }
def PWR_HINT_PHASE : Fld := { reg := PWR_HINT, lsb := 0, w := 6, acc := .wo }
/-- PWR_HINT_MASK (R341). -/
def PWR_HINT_MASK : Reg := { base := 0x3000024 }
def PWR_HINT_MASK_ENG : Fld := { reg := PWR_HINT_MASK, lsb := 0, w := 32, acc := .rw }
/-- PWR_THERM (R341). -/
def PWR_THERM : Reg := { base := 0x3000030, reset := fun _ _ _ => 0x6E645F }
def PWR_THERM_TRIP : Fld := { reg := PWR_THERM, lsb := 16, w := 8, acc := .rw, norm := [(111, 255, 110)] }
def PWR_THERM_HI : Fld := { reg := PWR_THERM, lsb := 8, w := 8, acc := .rw }
def PWR_THERM_WARN : Fld := { reg := PWR_THERM, lsb := 0, w := 8, acc := .rw }
/-- PWR_TMAX (R341). -/
def PWR_TMAX : Reg := { base := 0x3000034 }
def PWR_TMAX_SENSOR : Fld := { reg := PWR_TMAX, lsb := 16, w := 6, acc := .ro }
def PWR_TMAX_TEMP : Fld := { reg := PWR_TMAX, lsb := 0, w := 16, acc := .ro }
/-- PWR_ENERGY_LO (R341). -/
def PWR_ENERGY_LO : Reg := { base := 0x3000040, rd := .energyLo }
def PWR_ENERGY_LO_ENERGY : Fld := { reg := PWR_ENERGY_LO, lsb := 0, w := 32, acc := .ro }
/-- PWR_ENERGY_HI (R341). -/
def PWR_ENERGY_HI : Reg := { base := 0x3000044, rd := .energyHi }
def PWR_ENERGY_HI_ENERGY : Fld := { reg := PWR_ENERGY_HI, lsb := 0, w := 32, acc := .ro }
/-- PWR_CNT_CTL (R341). -/
def PWR_CNT_CTL : Reg := { base := 0x3000048, act := .pwrCntClr }
def PWR_CNT_CTL_CLR : Fld := { reg := PWR_CNT_CTL, lsb := 0, w := 1, acc := .wo }
/-- PWR_PHASE_CFG (R341). -/
def PWR_PHASE_CFG : Reg := { base := 0x3000100, s0 := 0x8, n0 := 64, reset := fun _ _ _ => 0x7, act := .pwrPhase }
def PWR_PHASE_CFG_RELEARN : Fld := { reg := PWR_PHASE_CFG, lsb := 31, w := 1, acc := .wo }
def PWR_PHASE_CFG_OPP : Fld := { reg := PWR_PHASE_CFG, lsb := 0, w := 3, acc := .rw, norm := [(5, 6, 7)] }
/-- PWR_PHASE_LRN (R341). -/
def PWR_PHASE_LRN : Reg := { base := 0x3000104, s0 := 0x8, n0 := 64, reset := fun _ _ _ => 0x95CFF00 }
def PWR_PHASE_LRN_PI : Fld := { reg := PWR_PHASE_LRN, lsb := 16, w := 16, acc := .ro }
def PWR_PHASE_LRN_DEMAND : Fld := { reg := PWR_PHASE_LRN, lsb := 8, w := 8, acc := .ro }
def PWR_PHASE_LRN_SAMPLES : Fld := { reg := PWR_PHASE_LRN, lsb := 0, w := 8, acc := .ro }
/-- PWR_TSENS (R341). -/
def PWR_TSENS : Reg := { base := 0x3000400, s0 := 0x4, n0 := 64 }
def PWR_TSENS_VALID : Fld := { reg := PWR_TSENS, lsb := 31, w := 1, acc := .ro }
def PWR_TSENS_TEMP : Fld := { reg := PWR_TSENS, lsb := 0, w := 16, acc := .ro }
/-- PWR_ENG (R341). -/
def PWR_ENG : Reg := { base := 0x3000300, s0 := 0x4, n0 := 32, reset := fun _ _ _ => 0x20000000 }
def PWR_ENG_TARGET_D : Fld := { reg := PWR_ENG, lsb := 24, w := 6, acc := .ro }
def PWR_ENG_PHASE : Fld := { reg := PWR_ENG, lsb := 16, w := 6, acc := .ro }
def PWR_ENG_DEFER : Fld := { reg := PWR_ENG, lsb := 8, w := 1, acc := .ro }
def PWR_ENG_U : Fld := { reg := PWR_ENG, lsb := 0, w := 8, acc := .ro }
/-- DOM_ID (R355). -/
def DOM_ID : Reg := { base := 0x3400000, cfg := true }
def DOM_ID_DOMAIN_ID : Fld := { reg := DOM_ID, lsb := 0, w := 32, acc := .rw }
/-- DOM_CHIP (R355). -/
def DOM_CHIP : Reg := { base := 0x3400004, cfg := true }
def DOM_CHIP_CHIP_ID : Fld := { reg := DOM_CHIP, lsb := 0, w := 16, acc := .rw }
/-- DOM_HELLO (R355). -/
def DOM_HELLO : Reg := { base := 0x3400008, reset := fun _ _ _ => 0x3E80064, cfg := true }
def DOM_HELLO_PERIOD_US : Fld := { reg := DOM_HELLO, lsb := 16, w := 16, acc := .rw, norm := [(0, 99, 100)] }
def DOM_HELLO_TOL_NS : Fld := { reg := DOM_HELLO, lsb := 0, w := 16, acc := .rw, norm := [(0, 0, 1)] }
/-- DOM_GM_HI (R355). -/
def DOM_GM_HI : Reg := { base := 0x3400010 }
def DOM_GM_HI_GM : Fld := { reg := DOM_GM_HI, lsb := 0, w := 32, acc := .rw }
/-- DOM_GM_LO (R355). -/
def DOM_GM_LO : Reg := { base := 0x3400014 }
def DOM_GM_LO_GM : Fld := { reg := DOM_GM_LO, lsb := 0, w := 32, acc := .rw }
/-- DOM_SUM (R355). -/
def DOM_SUM : Reg := { base := 0x3400018, rd := .domSum }
def DOM_SUM_JOINED : Fld := { reg := DOM_SUM, lsb := 31, w := 1, acc := .ro }
def DOM_SUM_QCOUNT : Fld := { reg := DOM_SUM, lsb := 0, w := 10, acc := .ro }
/-- DOM_DCFG (R355). -/
def DOM_DCFG : Reg := { base := 0x3400040, s0 := 0x4, n0 := 16, cfg := true }
def DOM_DCFG_DATA : Fld := { reg := DOM_DCFG, lsb := 0, w := 32, acc := .rw }
/-- DOM_PORT_CFG (R355). -/
def DOM_PORT_CFG : Reg := { base := 0x3401000, s0 := 0x40, n0 := 512, cfg := true }
def DOM_PORT_CFG_EN : Fld := { reg := DOM_PORT_CFG, lsb := 0, w := 1, acc := .rw }
/-- DOM_PORT_PD (R355). -/
def DOM_PORT_PD : Reg := { base := 0x3401004, s0 := 0x40, n0 := 512 }
def DOM_PORT_PD_VALID : Fld := { reg := DOM_PORT_PD, lsb := 31, w := 1, acc := .rw }
def DOM_PORT_PD_PD : Fld := { reg := DOM_PORT_PD, lsb := 0, w := 31, acc := .rw }
/-- DOM_PORT_STAT (R355). -/
def DOM_PORT_STAT : Reg := { base := 0x3401008, s0 := 0x40, n0 := 512, reset := fun _ _ _ => 0x3 }
def DOM_PORT_STAT_QENTER : Fld := { reg := DOM_PORT_STAT, lsb := 31, w := 1, acc := .w1c, sa := some (0, 30) }
def DOM_PORT_STAT_QENTER_SA : Fld := { reg := DOM_PORT_STAT, lsb := 30, w := 1, acc := .w1c }
def DOM_PORT_STAT_AGREE_EV : Fld := { reg := DOM_PORT_STAT, lsb := 29, w := 1, acc := .w1c, sa := some (0, 28) }
def DOM_PORT_STAT_AGREE_EV_SA : Fld := { reg := DOM_PORT_STAT, lsb := 28, w := 1, acc := .w1c }
def DOM_PORT_STAT_CAUSE : Fld := { reg := DOM_PORT_STAT, lsb := 8, w := 4, acc := .ro }
def DOM_PORT_STAT_AGREE_CNT : Fld := { reg := DOM_PORT_STAT, lsb := 4, w := 2, acc := .ro }
def DOM_PORT_STAT_STATE : Fld := { reg := DOM_PORT_STAT, lsb := 0, w := 2, acc := .ro }
/-- DOM_PORT_CTL (R355). -/
def DOM_PORT_CTL : Reg := { base := 0x340100C, s0 := 0x40, n0 := 512, act := .domPortClr }
def DOM_PORT_CTL_CLR : Fld := { reg := DOM_PORT_CTL, lsb := 0, w := 1, acc := .wo }
/-- DOM_PORT_PEER (R355). -/
def DOM_PORT_PEER : Reg := { base := 0x3401038, s0 := 0x40, n0 := 512 }
def DOM_PORT_PEER_CHIP : Fld := { reg := DOM_PORT_PEER, lsb := 16, w := 16, acc := .ro }
def DOM_PORT_PEER_PORT : Fld := { reg := DOM_PORT_PEER, lsb := 0, w := 9, acc := .ro }
/-- DOM_PORT_OFS (R355). -/
def DOM_PORT_OFS : Reg := { base := 0x340103C, s0 := 0x40, n0 := 512 }
def DOM_PORT_OFS_EPS : Fld := { reg := DOM_PORT_OFS, lsb := 0, w := 32, acc := .ro }
/-- TLM_CFG (R373). -/
def TLM_CFG : Reg := { base := 0x3800000, reset := fun _ _ _ => 0x200800 }
def TLM_CFG_EN : Fld := { reg := TLM_CFG, lsb := 31, w := 1, acc := .rw }
def TLM_CFG_INBAND : Fld := { reg := TLM_CFG, lsb := 30, w := 1, acc := .rw }
def TLM_CFG_HIST_PC : Fld := { reg := TLM_CFG, lsb := 29, w := 1, acc := .rw }
def TLM_CFG_DIG_PC : Fld := { reg := TLM_CFG, lsb := 28, w := 1, acc := .rw }
def TLM_CFG_BATCH : Fld := { reg := TLM_CFG, lsb := 16, w := 6, acc := .rw, norm := [(0, 0, 1), (33, 63, 32)] }
def TLM_CFG_HOP_MAX : Fld := { reg := TLM_CFG, lsb := 8, w := 4, acc := .rw, norm := [(0, 0, 1), (9, 15, 8)] }
def TLM_CFG_SINK_COLL : Fld := { reg := TLM_CFG, lsb := 6, w := 2, acc := .rw }
def TLM_CFG_DIG_COLL : Fld := { reg := TLM_CFG, lsb := 4, w := 2, acc := .rw }
def TLM_CFG_HIST_COLL : Fld := { reg := TLM_CFG, lsb := 2, w := 2, acc := .rw }
def TLM_CFG_REC_COLL : Fld := { reg := TLM_CFG, lsb := 0, w := 2, acc := .rw }
/-- TLM_EPOCH (R373). -/
def TLM_EPOCH : Reg := { base := 0x3800004, reset := fun _ _ _ => 0xF4240, act := .tlmEpoch }
def TLM_EPOCH_EPOCH_US : Fld := { reg := TLM_EPOCH, lsb := 0, w := 32, acc := .rw, norm := [(0, 9, 10)] }
/-- TLM_SEL (R373). -/
def TLM_SEL : Reg := { base := 0x3800008 }
def TLM_SEL_FLOW_MASK : Fld := { reg := TLM_SEL, lsb := 16, w := 16, acc := .rw }
def TLM_SEL_FLOW_MATCH : Fld := { reg := TLM_SEL, lsb := 0, w := 16, acc := .rw }
/-- TLM_STAT (R373). -/
def TLM_STAT : Reg := { base := 0x380000C }
def TLM_STAT_REC_LOST : Fld := { reg := TLM_STAT, lsb := 31, w := 1, acc := .w1c, sa := some (0, 30) }
def TLM_STAT_REC_LOST_SA : Fld := { reg := TLM_STAT, lsb := 30, w := 1, acc := .w1c }
def TLM_STAT_PC_DROP : Fld := { reg := TLM_STAT, lsb := 29, w := 1, acc := .w1c, sa := some (0, 28) }
def TLM_STAT_PC_DROP_SA : Fld := { reg := TLM_STAT, lsb := 28, w := 1, acc := .w1c }
/-- TLM_EPOCH_RD (R373). -/
def TLM_EPOCH_RD : Reg := { base := 0x3800010 }
def TLM_EPOCH_RD_EPOCH : Fld := { reg := TLM_EPOCH_RD, lsb := 0, w := 32, acc := .ro }
/-- TLM_CNT_CTL (R373). -/
def TLM_CNT_CTL : Reg := { base := 0x3800038, act := .tlmCntClr }
def TLM_CNT_CTL_CLR : Fld := { reg := TLM_CNT_CTL, lsb := 0, w := 1, acc := .wo }
/-- TLM_COLL, word 0 (R373), with the layout of a neighbour entry (R320). -/
def TLM_COLL0 : Reg := { base := 0x3800100, s0 := 0x80, n0 := 4 }
def TLM_COLL0_V : Fld := { reg := TLM_COLL0, lsb := 31, w := 1, acc := .rw }
def TLM_COLL0_IPV6 : Fld := { reg := TLM_COLL0, lsb := 30, w := 1, acc := .rw }
def TLM_COLL0_UDPCS0 : Fld := { reg := TLM_COLL0, lsb := 29, w := 1, acc := .rw }
def TLM_COLL0_PORT : Fld := { reg := TLM_COLL0, lsb := 20, w := 9, acc := .rw }
def TLM_COLL0_QUEUE : Fld := { reg := TLM_COLL0, lsb := 16, w := 4, acc := .rw, norm := [(12, 15, 11)] }
def TLM_COLL0_HLEN : Fld := { reg := TLM_COLL0, lsb := 0, w := 7, acc := .rw }
/-- TLM_COLL, words 1 to 30 (R373). -/
def TLM_COLL : Reg := { base := 0x3800104, s0 := 0x80, n0 := 4, s1 := 0x4, n1 := 30 }
def TLM_COLL_WORD : Fld := { reg := TLM_COLL, lsb := 0, w := 32, acc := .rw }
/-- TLM_PORT_CFG (R373). -/
def TLM_PORT_CFG : Reg := { base := 0x3801000, s0 := 0x4, n0 := 512 }
def TLM_PORT_CFG_PKT_SHIFT : Fld := { reg := TLM_PORT_CFG, lsb := 16, w := 4, acc := .rw }
def TLM_PORT_CFG_HIST_QMASK : Fld := { reg := TLM_PORT_CFG, lsb := 4, w := 12, acc := .rw }
def TLM_PORT_CFG_HIST_EN : Fld := { reg := TLM_PORT_CFG, lsb := 3, w := 1, acc := .rw }
def TLM_PORT_CFG_DIGEST : Fld := { reg := TLM_PORT_CFG, lsb := 2, w := 1, acc := .rw }
def TLM_PORT_CFG_ROLE : Fld := { reg := TLM_PORT_CFG, lsb := 0, w := 2, acc := .rw, norm := [(3, 3, 0)] }
/-- TLM_LAT_BIN (R373). -/
def TLM_LAT_BIN : Reg := { base := 0x3804000, s0 := 0x100, n0 := 512, s1 := 0x4, n1 := 16 }
def TLM_LAT_BIN_COUNT : Fld := { reg := TLM_LAT_BIN, lsb := 0, w := 32, acc := .ro }
/-- TLM_DEPTH_BIN (R373). -/
def TLM_DEPTH_BIN : Reg := { base := 0x3804040, s0 := 0x100, n0 := 512, s1 := 0x4, n1 := 16 }
def TLM_DEPTH_BIN_COUNT : Fld := { reg := TLM_DEPTH_BIN, lsb := 0, w := 32, acc := .ro }
/-- TLM_DIG_RD (R373). -/
def TLM_DIG_RD : Reg := { base := 0x3900000, s0 := 0x4000, n0 := 32, s1 := 0x10, n1 := 1024, s2 := 0x4, n2 := 4 }
def TLM_DIG_RD_WORD : Fld := { reg := TLM_DIG_RD, lsb := 0, w := 32, acc := .ro }
/-- PMC_CFG (R374). -/
def PMC_CFG : Reg := { base := 0x3C00000, s0 := 0x10, n0 := 256, act := .pmcCfg }
def PMC_CFG_EN : Fld := { reg := PMC_CFG, lsb := 31, w := 1, acc := .rw }
def PMC_CFG_CHAIN : Fld := { reg := PMC_CFG, lsb := 30, w := 1, acc := .rw }
def PMC_CFG_OVF_IE : Fld := { reg := PMC_CFG, lsb := 29, w := 1, acc := .rw }
def PMC_CFG_EVENT : Fld := { reg := PMC_CFG, lsb := 16, w := 12, acc := .rw }
def PMC_CFG_PRIV : Fld := { reg := PMC_CFG, lsb := 14, w := 2, acc := .rw, norm := [(3, 3, 0)] }
def PMC_CFG_MASTER : Fld := { reg := PMC_CFG, lsb := 8, w := 6, acc := .rw }
def PMC_CFG_CLASS : Fld := { reg := PMC_CFG, lsb := 4, w := 4, acc := .rw }
def PMC_CFG_RANGE_EN : Fld := { reg := PMC_CFG, lsb := 3, w := 1, acc := .rw }
def PMC_CFG_RANGE : Fld := { reg := PMC_CFG, lsb := 0, w := 3, acc := .rw }
/-- PMC_SCFG (R374). -/
def PMC_SCFG : Reg := { base := 0x3C02000, s0 := 0x200, n0 := 32, s1 := 0x10, n1 := 32, act := .pmcSCfg }
def PMC_SCFG_EN : Fld := { reg := PMC_SCFG, lsb := 31, w := 1, acc := .rw }
def PMC_SCFG_CHAIN : Fld := { reg := PMC_SCFG, lsb := 30, w := 1, acc := .rw }
def PMC_SCFG_OVF_IE : Fld := { reg := PMC_SCFG, lsb := 29, w := 1, acc := .rw }
def PMC_SCFG_EVENT : Fld := { reg := PMC_SCFG, lsb := 16, w := 12, acc := .rw }
def PMC_SCFG_PRIV : Fld := { reg := PMC_SCFG, lsb := 14, w := 2, acc := .rw, norm := [(3, 3, 0)] }
def PMC_SCFG_MASTER : Fld := { reg := PMC_SCFG, lsb := 8, w := 6, acc := .rw }
def PMC_SCFG_CLASS : Fld := { reg := PMC_SCFG, lsb := 4, w := 4, acc := .rw }
def PMC_SCFG_RANGE_EN : Fld := { reg := PMC_SCFG, lsb := 3, w := 1, acc := .rw }
def PMC_SCFG_RANGE : Fld := { reg := PMC_SCFG, lsb := 0, w := 3, acc := .rw }
/-- PMC_CTL (R374). -/
def PMC_CTL : Reg := { base := 0x3C08000 }
def PMC_CTL_FREEZE : Fld := { reg := PMC_CTL, lsb := 0, w := 1, acc := .rw }
/-- PMC_STAT (R374). -/
def PMC_STAT : Reg := { base := 0x3C08004 }
def PMC_STAT_CFG_ERR : Fld := { reg := PMC_STAT, lsb := 31, w := 1, acc := .w1c, sa := some (0, 30) }
def PMC_STAT_CFG_ERR_SA : Fld := { reg := PMC_STAT, lsb := 30, w := 1, acc := .w1c }
/-- PMC_USER (R373). -/
def PMC_USER : Reg := { base := 0x3C08010, s0 := 0x4, n0 := 8 }
def PMC_USER_BITS : Fld := { reg := PMC_USER, lsb := 0, w := 32, acc := .rw }
/-- PMC_USER_S (R373). -/
def PMC_USER_S : Reg := { base := 0x3C08100, s0 := 0x4, n0 := 32 }
def PMC_USER_S_BITS : Fld := { reg := PMC_USER_S, lsb := 0, w := 32, acc := .rw }
/-- PMC_CLR (R373). -/
def PMC_CLR : Reg := { base := 0x3C08080, s0 := 0x4, n0 := 8, act := .pmcClr }
def PMC_CLR_BITS : Fld := { reg := PMC_CLR, lsb := 0, w := 32, acc := .wo }
/-- PMC_CLR_S (R373). -/
def PMC_CLR_S : Reg := { base := 0x3C08180, s0 := 0x4, n0 := 32, act := .pmcClrS }
def PMC_CLR_S_BITS : Fld := { reg := PMC_CLR_S, lsb := 0, w := 32, acc := .wo }
/-- PMC_OVF (R373). -/
def PMC_OVF : Reg := { base := 0x3C08300, s0 := 0x4, n0 := 8 }
def PMC_OVF_BITS : Fld := { reg := PMC_OVF, lsb := 0, w := 32, acc := .w1c, sa := some (32, 0) }
/-- PMC_OVF_SA (R373). -/
def PMC_OVF_SA : Reg := { base := 0x3C08320, s0 := 0x4, n0 := 8 }
def PMC_OVF_SA_BITS : Fld := { reg := PMC_OVF_SA, lsb := 0, w := 32, acc := .w1c }
/-- PMC_OVF_S (R373). -/
def PMC_OVF_S : Reg := { base := 0x3C08400, s0 := 0x4, n0 := 32 }
def PMC_OVF_S_BITS : Fld := { reg := PMC_OVF_S, lsb := 0, w := 32, acc := .w1c, sa := some (128, 0) }
/-- PMC_OVF_SA_S (R373). -/
def PMC_OVF_SA_S : Reg := { base := 0x3C08480, s0 := 0x4, n0 := 32 }
def PMC_OVF_SA_S_BITS : Fld := { reg := PMC_OVF_SA_S, lsb := 0, w := 32, acc := .w1c }
/-- PMC_RANGE_BASE_HI (R373). -/
def PMC_RANGE_BASE_HI : Reg := { base := 0x3C08200, s0 := 0x10, n0 := 8 }
def PMC_RANGE_BASE_HI_ADDR : Fld := { reg := PMC_RANGE_BASE_HI, lsb := 0, w := 16, acc := .rw }
/-- PMC_RANGE_BASE_LO (R373). -/
def PMC_RANGE_BASE_LO : Reg := { base := 0x3C08204, s0 := 0x10, n0 := 8 }
def PMC_RANGE_BASE_LO_ADDR : Fld := { reg := PMC_RANGE_BASE_LO, lsb := 0, w := 32, acc := .rw }
/-- PMC_RANGE_LIMIT_HI (R373). -/
def PMC_RANGE_LIMIT_HI : Reg := { base := 0x3C08208, s0 := 0x10, n0 := 8 }
def PMC_RANGE_LIMIT_HI_ADDR : Fld := { reg := PMC_RANGE_LIMIT_HI, lsb := 0, w := 16, acc := .rw }
/-- PMC_RANGE_LIMIT_LO (R373). -/
def PMC_RANGE_LIMIT_LO : Reg := { base := 0x3C0820C, s0 := 0x10, n0 := 8 }
def PMC_RANGE_LIMIT_LO_ADDR : Fld := { reg := PMC_RANGE_LIMIT_LO, lsb := 0, w := 32, acc := .rw }
/-- STK_CTL (R400). -/
def STK_CTL : Reg := { base := 0x4000000, s0 := 0x100, n0 := 4, act := .stkCtl }
def STK_CTL_RUN : Fld := { reg := STK_CTL, lsb := 31, w := 1, acc := .wo }
def STK_CTL_HALT : Fld := { reg := STK_CTL, lsb := 30, w := 1, acc := .wo }
/-- STK_STAT (R400). -/
def STK_STAT : Reg := { base := 0x4000004, s0 := 0x100, n0 := 4, reset := fun k _ _ => if k = 0 then 1 else 0x80000001 }
def STK_STAT_HALTED : Fld := { reg := STK_STAT, lsb := 31, w := 1, acc := .ro }
def STK_STAT_HALT_CAUSE : Fld := { reg := STK_STAT, lsb := 28, w := 2, acc := .ro }
def STK_STAT_MC_IEN : Fld := { reg := STK_STAT, lsb := 7, w := 1, acc := .ro }
def STK_STAT_MC_PRIV : Fld := { reg := STK_STAT, lsb := 6, w := 1, acc := .ro }
def STK_STAT_EIEN : Fld := { reg := STK_STAT, lsb := 5, w := 1, acc := .rw }
def STK_STAT_EPRIV : Fld := { reg := STK_STAT, lsb := 4, w := 1, acc := .rw }
def STK_STAT_MC_ACTIVE : Fld := { reg := STK_STAT, lsb := 3, w := 1, acc := .ro }
def STK_STAT_IEN : Fld := { reg := STK_STAT, lsb := 1, w := 1, acc := .ro }
def STK_STAT_PRIV : Fld := { reg := STK_STAT, lsb := 0, w := 1, acc := .ro }
/-- STK_PC (R400). -/
def STK_PC : Reg := { base := 0x4000008, s0 := 0x100, n0 := 4, reset := fun _ _ _ => 0x1000000, act := .stkPc }
def STK_PC_ADDR : Fld := { reg := STK_PC, lsb := 0, w := 32, acc := .rw }
/-- STK_EPC (R400). -/
def STK_EPC : Reg := { base := 0x400000C, s0 := 0x100, n0 := 4, act := .stkCode }
def STK_EPC_ADDR : Fld := { reg := STK_EPC, lsb := 0, w := 32, acc := .rw }
/-- STK_VEC (R400). -/
def STK_VEC : Reg := { base := 0x4000010, s0 := 0x100, n0 := 4, act := .stkCode }
def STK_VEC_ADDR : Fld := { reg := STK_VEC, lsb := 0, w := 32, acc := .rw }
/-- STK_MCVEC (R400). -/
def STK_MCVEC : Reg := { base := 0x4000014, s0 := 0x100, n0 := 4, act := .stkCode }
def STK_MCVEC_ADDR : Fld := { reg := STK_MCVEC, lsb := 0, w := 32, acc := .rw }
/-- STK_MC_RESUME (R400). -/
def STK_MC_RESUME : Reg := { base := 0x4000018, s0 := 0x100, n0 := 4, act := .stkCode }
def STK_MC_RESUME_ADDR : Fld := { reg := STK_MC_RESUME, lsb := 0, w := 32, acc := .rw }
/-- STK_CAUSE (R400). -/
def STK_CAUSE : Reg := { base := 0x400001C, s0 := 0x100, n0 := 4 }
def STK_CAUSE_INT : Fld := { reg := STK_CAUSE, lsb := 31, w := 1, acc := .ro }
def STK_CAUSE_NUM : Fld := { reg := STK_CAUSE, lsb := 24, w := 5, acc := .ro }
def STK_CAUSE_CODE : Fld := { reg := STK_CAUSE, lsb := 0, w := 16, acc := .ro }
/-- STK_IE (R400). -/
def STK_IE : Reg := { base := 0x4000020, s0 := 0x100, n0 := 4 }
def STK_IE_EN : Fld := { reg := STK_IE, lsb := 0, w := 13, acc := .rw }
/-- STK_MC_DONE (R400). -/
def STK_MC_DONE : Reg := { base := 0x4000024, s0 := 0x100, n0 := 4 }
def STK_MC_DONE_COUNT : Fld := { reg := STK_MC_DONE, lsb := 0, w := 32, acc := .ro }
/-- STK_UWIN_BASE (R400). -/
def STK_UWIN_BASE : Reg := { base := 0x4000028, s0 := 0x100, n0 := 4 }
def STK_UWIN_BASE_SOFS : Fld := { reg := STK_UWIN_BASE, lsb := 0, w := 24, acc := .rw }
/-- STK_UWIN_LIMIT (R400). -/
def STK_UWIN_LIMIT : Reg := { base := 0x400002C, s0 := 0x100, n0 := 4 }
def STK_UWIN_LIMIT_SOFS : Fld := { reg := STK_UWIN_LIMIT, lsb := 0, w := 24, acc := .rw }
/-- STK_IRQ_PEND (R400). -/
def STK_IRQ_PEND : Reg := { base := 0x4001000 }
def STK_IRQ_PEND_PEND_SA : Fld := { reg := STK_IRQ_PEND, lsb := 16, w := 13, acc := .w1c }
def STK_IRQ_PEND_PEND : Fld := { reg := STK_IRQ_PEND, lsb := 0, w := 13, acc := .w1c, sa := some (0, 16) }
/-- STK_SWI (R400). -/
def STK_SWI : Reg := { base := 0x4001004, act := .stkSwi }
def STK_SWI_SET : Fld := { reg := STK_SWI, lsb := 0, w := 1, acc := .wo }
/-- STK_CNT_CTL (R400). -/
def STK_CNT_CTL : Reg := { base := 0x4001008, act := .stkCntClr }
def STK_CNT_CTL_CLR : Fld := { reg := STK_CNT_CTL, lsb := 0, w := 1, acc := .wo }
/-- STK_CR_BASE (R400). -/
def STK_CR_BASE : Reg := { base := 0x4002000, s0 := 0x40, n0 := 2 }
def STK_CR_BASE_BASE : Fld := { reg := STK_CR_BASE, lsb := 6, w := 18, acc := .rw }
/-- STK_CR_CFG (R400). -/
def STK_CR_CFG : Reg := { base := 0x4002004, s0 := 0x40, n0 := 2, reset := fun _ _ _ => 0x4, act := .crCfg }
def STK_CR_CFG_EN : Fld := { reg := STK_CR_CFG, lsb := 31, w := 1, acc := .rw }
def STK_CR_CFG_LOG2 : Fld := { reg := STK_CR_CFG, lsb := 0, w := 4, acc := .rw, norm := [(0, 3, 4), (13, 15, 12)] }
/-- STK_CR_TAIL (R400). -/
def STK_CR_TAIL : Reg := { base := 0x4002008, s0 := 0x40, n0 := 2, act := .crTail }
def STK_CR_TAIL_INDEX : Fld := { reg := STK_CR_TAIL, lsb := 0, w := 12, acc := .rw }
/-- STK_CR_HEAD (R400). -/
def STK_CR_HEAD : Reg := { base := 0x400200C, s0 := 0x40, n0 := 2 }
def STK_CR_HEAD_INDEX : Fld := { reg := STK_CR_HEAD, lsb := 0, w := 12, acc := .ro }
/-- STK_RX_BASE (R400). -/
def STK_RX_BASE : Reg := { base := 0x4003000, s0 := 0x20, n0 := 34 }
def STK_RX_BASE_BASE : Fld := { reg := STK_RX_BASE, lsb := 6, w := 18, acc := .rw }
/-- STK_RX_CFG (R400). -/
def STK_RX_CFG : Reg := { base := 0x4003004, s0 := 0x20, n0 := 34, reset := fun _ _ _ => 0x4, act := .rxCfg }
def STK_RX_CFG_EN : Fld := { reg := STK_RX_CFG, lsb := 31, w := 1, acc := .rw }
def STK_RX_CFG_SLOT : Fld := { reg := STK_RX_CFG, lsb := 16, w := 9, acc := .rw, norm := [(0, 1, 2), (259, 511, 258)] }
def STK_RX_CFG_LOG2 : Fld := { reg := STK_RX_CFG, lsb := 0, w := 4, acc := .rw, norm := [(0, 3, 4), (13, 15, 12)] }
/-- STK_RX_HEAD (R400). -/
def STK_RX_HEAD : Reg := { base := 0x4003008, s0 := 0x20, n0 := 34 }
def STK_RX_HEAD_INDEX : Fld := { reg := STK_RX_HEAD, lsb := 0, w := 12, acc := .ro }
/-- STK_RX_TAIL (R400). -/
def STK_RX_TAIL : Reg := { base := 0x400300C, s0 := 0x20, n0 := 34 }
def STK_RX_TAIL_INDEX : Fld := { reg := STK_RX_TAIL, lsb := 0, w := 12, acc := .rw }
/-- UC_VER (R418). -/
def UC_VER : Reg := { base := 0x4400000, reset := fun _ _ _ => 0x1, rd := .ucVer }
def UC_VER_BASE : Fld := { reg := UC_VER, lsb := 16, w := 16, acc := .ro }
def UC_VER_LEVEL : Fld := { reg := UC_VER, lsb := 0, w := 16, acc := .ro }
/-- UC_CTL (R418). -/
def UC_CTL : Reg := { base := 0x4400004, act := .ucCtl }
def UC_CTL_LOCK : Fld := { reg := UC_CTL, lsb := 31, w := 1, acc := .w1s }
def UC_CTL_TRAP_ON : Fld := { reg := UC_CTL, lsb := 30, w := 1, acc := .w1s }
def UC_CTL_LOAD_GO : Fld := { reg := UC_CTL, lsb := 0, w := 1, acc := .wo }
/-- UC_STAT (R418). -/
def UC_STAT : Reg := { base := 0x4400008 }
def UC_STAT_LOADED : Fld := { reg := UC_STAT, lsb := 31, w := 1, acc := .ro }
def UC_STAT_BUSY : Fld := { reg := UC_STAT, lsb := 30, w := 1, acc := .ro }
def UC_STAT_PAR : Fld := { reg := UC_STAT, lsb := 29, w := 1, acc := .w1c, sa := some (0, 28) }
def UC_STAT_PAR_SA : Fld := { reg := UC_STAT, lsb := 28, w := 1, acc := .w1c }
def UC_STAT_LOAD_EV : Fld := { reg := UC_STAT, lsb := 27, w := 1, acc := .w1c, sa := some (0, 26) }
def UC_STAT_LOAD_EV_SA : Fld := { reg := UC_STAT, lsb := 26, w := 1, acc := .w1c }
def UC_STAT_RESULT : Fld := { reg := UC_STAT, lsb := 0, w := 4, acc := .ro }
/-- UC_LOAD_ADDR (R418). -/
def UC_LOAD_ADDR : Reg := { base := 0x440000C }
def UC_LOAD_ADDR_SOFS : Fld := { reg := UC_LOAD_ADDR, lsb := 0, w := 24, acc := .rw }
/-- UC_LOAD_LEN (R418). -/
def UC_LOAD_LEN : Reg := { base := 0x4400010 }
def UC_LOAD_LEN_BYTES : Fld := { reg := UC_LOAD_LEN, lsb := 0, w := 24, acc := .rw }
/-- UC_ERR (R418). -/
def UC_ERR : Reg := { base := 0x4400014 }
def UC_ERR_STORE : Fld := { reg := UC_ERR, lsb := 30, w := 2, acc := .ro }
def UC_ERR_CORE : Fld := { reg := UC_ERR, lsb := 28, w := 2, acc := .ro }
def UC_ERR_KIND : Fld := { reg := UC_ERR, lsb := 24, w := 4, acc := .ro }
def UC_ERR_EXC_LOST : Fld := { reg := UC_ERR, lsb := 23, w := 1, acc := .ro }
def UC_ERR_ADDR : Fld := { reg := UC_ERR, lsb := 0, w := 15, acc := .ro }
/-- UC_OTP (R418). -/
def UC_OTP : Reg := { base := 0x4400018, rd := .ucOtp }
def UC_OTP_REVOKED : Fld := { reg := UC_OTP, lsb := 28, w := 4, acc := .ro }
def UC_OTP_MIN_LEVEL : Fld := { reg := UC_OTP, lsb := 0, w := 16, acc := .ro }
/-- UC_PADDR (R418). -/
def UC_PADDR : Reg := { base := 0x440001C }
def UC_PADDR_AUTO_INC : Fld := { reg := UC_PADDR, lsb := 31, w := 1, acc := .rw }
def UC_PADDR_ADDR : Fld := { reg := UC_PADDR, lsb := 0, w := 13, acc := .rw }
/-- UC_PDATA (R418). -/
def UC_PDATA : Reg := { base := 0x4400020, rd := .ucPdata }
def UC_PDATA_DATA : Fld := { reg := UC_PDATA, lsb := 0, w := 32, acc := .ro }
/-- UC_CNT_CTL (R418). -/
def UC_CNT_CTL : Reg := { base := 0x4400028, act := .ucCntClr }
def UC_CNT_CTL_CLR : Fld := { reg := UC_CNT_CTL, lsb := 0, w := 1, acc := .wo }
/-- UC_TRAP (R418). -/
def UC_TRAP : Reg := { base := 0x4400100, s0 := 0x4, n0 := 64 }
def UC_TRAP_EN : Fld := { reg := UC_TRAP, lsb := 31, w := 1, acc := .ro }
def UC_TRAP_P : Fld := { reg := UC_TRAP, lsb := 30, w := 1, acc := .ro }
def UC_TRAP_FROM : Fld := { reg := UC_TRAP, lsb := 16, w := 14, acc := .ro }
def UC_TRAP_TO : Fld := { reg := UC_TRAP, lsb := 0, w := 10, acc := .ro }
/-- JOR_RING_STAT (R439). -/
def JOR_RING_STAT : Reg := { base := 0x4800000, s0 := 0x100, n0 := 2 }
def JOR_RING_STAT_BREAK_EV : Fld := { reg := JOR_RING_STAT, lsb := 31, w := 1, acc := .w1c, sa := some (0, 30) }
def JOR_RING_STAT_BREAK_EV_SA : Fld := { reg := JOR_RING_STAT, lsb := 30, w := 1, acc := .w1c }
def JOR_RING_STAT_NOADDR : Fld := { reg := JOR_RING_STAT, lsb := 29, w := 1, acc := .w1c, sa := some (0, 28) }
def JOR_RING_STAT_NOADDR_SA : Fld := { reg := JOR_RING_STAT, lsb := 28, w := 1, acc := .w1c }
def JOR_RING_STAT_BRK_ADDR : Fld := { reg := JOR_RING_STAT, lsb := 16, w := 6, acc := .ro }
def JOR_RING_STAT_BRK_RX : Fld := { reg := JOR_RING_STAT, lsb := 15, w := 1, acc := .ro }
def JOR_RING_STAT_ADDRESSED : Fld := { reg := JOR_RING_STAT, lsb := 14, w := 1, acc := .ro }
def JOR_RING_STAT_ADDR : Fld := { reg := JOR_RING_STAT, lsb := 8, w := 6, acc := .ro }
def JOR_RING_STAT_STATE : Fld := { reg := JOR_RING_STAT, lsb := 0, w := 2, acc := .ro }
/-- JOR_MSG (R439). -/
def JOR_MSG : Reg := { base := 0x4800004, s0 := 0x100, n0 := 2 }
def JOR_MSG_NEXT_MSEQ : Fld := { reg := JOR_MSG, lsb := 16, w := 8, acc := .ro }
def JOR_MSG_QUEUED : Fld := { reg := JOR_MSG, lsb := 0, w := 5, acc := .ro }
/-- JOR_MSG_ACK (R439). -/
def JOR_MSG_ACK : Reg := { base := 0x4800008, s0 := 0x100, n0 := 2, act := .jorMsgAck }
def JOR_MSG_ACK_MSEQ : Fld := { reg := JOR_MSG_ACK, lsb := 0, w := 8, acc := .wo }
/-- JOR_CNT_CTL (R439). -/
def JOR_CNT_CTL : Reg := { base := 0x480000C, s0 := 0x100, n0 := 2, act := .jorCntClr }
def JOR_CNT_CTL_CLR : Fld := { reg := JOR_CNT_CTL, lsb := 0, w := 1, acc := .wo }
/-- JOR_SEM_HELD (R439). -/
def JOR_SEM_HELD : Reg := { base := 0x4800400, s0 := 0x4, n0 := 2, rd := .semHeld }
def JOR_SEM_HELD_HELD : Fld := { reg := JOR_SEM_HELD, lsb := 0, w := 32, acc := .ro }
/-- JOR_SEM_FREE (R439). -/
def JOR_SEM_FREE : Reg := { base := 0x4800408, act := .semFree }
def JOR_SEM_FREE_GO : Fld := { reg := JOR_SEM_FREE, lsb := 31, w := 1, acc := .wo }
def JOR_SEM_FREE_NUM : Fld := { reg := JOR_SEM_FREE, lsb := 0, w := 6, acc := .wo }
/-- JOR_SEM_CFG (R439). -/
def JOR_SEM_CFG : Reg := { base := 0x480040C, reset := fun _ _ _ => 0xA }
def JOR_SEM_CFG_TMO_MS : Fld := { reg := JOR_SEM_CFG, lsb := 0, w := 16, acc := .rw }
/-- JOR_SEM_OWN (R439). -/
def JOR_SEM_OWN : Reg := { base := 0x4800410, s0 := 0x4, n0 := 8, rd := .semOwn }
def JOR_SEM_OWN_OWN : Fld := { reg := JOR_SEM_OWN, lsb := 0, w := 32, acc := .ro }
/-- JOR_SEM_EV (R439). -/
def JOR_SEM_EV : Reg := { base := 0x4800430 }
def JOR_SEM_EV_LOST : Fld := { reg := JOR_SEM_EV, lsb := 31, w := 1, acc := .w1c, sa := some (0, 30) }
def JOR_SEM_EV_LOST_SA : Fld := { reg := JOR_SEM_EV, lsb := 30, w := 1, acc := .w1c }
def JOR_SEM_EV_FORCED : Fld := { reg := JOR_SEM_EV, lsb := 29, w := 1, acc := .w1c, sa := some (0, 28) }
def JOR_SEM_EV_FORCED_SA : Fld := { reg := JOR_SEM_EV, lsb := 28, w := 1, acc := .w1c }
/-- BOOT_STAT (R458). -/
def BOOT_STAT : Reg := { base := 0x5000000, reset := fun _ _ _ => 0x30000000, act := .bootStat }
def BOOT_STAT_TEST : Fld := { reg := BOOT_STAT, lsb := 31, w := 1, acc := .ro }
def BOOT_STAT_FW_SLOT : Fld := { reg := BOOT_STAT, lsb := 28, w := 2, acc := .ro }
def BOOT_STAT_ERR : Fld := { reg := BOOT_STAT, lsb := 16, w := 8, acc := .rw }
def BOOT_STAT_STAGE : Fld := { reg := BOOT_STAT, lsb := 0, w := 8, acc := .rw }
/-- BOOT_RST (R458). -/
def BOOT_RST : Reg := { base := 0x5000004 }
def BOOT_RST_ATTEMPT : Fld := { reg := BOOT_RST, lsb := 8, w := 4, acc := .ro }
def BOOT_RST_CAUSE : Fld := { reg := BOOT_RST, lsb := 0, w := 2, acc := .ro }
/-- BOOT_CTL (R458). -/
def BOOT_CTL : Reg := { base := 0x5000008, act := .bootCtl }
def BOOT_CTL_SWRST : Fld := { reg := BOOT_CTL, lsb := 31, w := 1, acc := .wo }
def BOOT_CTL_HOSTLOAD : Fld := { reg := BOOT_CTL, lsb := 30, w := 1, acc := .wo }
def BOOT_CTL_WDOG_KICK : Fld := { reg := BOOT_CTL, lsb := 29, w := 1, acc := .wo }
def BOOT_CTL_KEY : Fld := { reg := BOOT_CTL, lsb := 0, w := 16, acc := .wo }
/-- BOOT_WDOG (R458). -/
def BOOT_WDOG : Reg := { base := 0x500000C, reset := fun _ _ _ => 0x2710 }
def BOOT_WDOG_MS : Fld := { reg := BOOT_WDOG, lsb := 0, w := 32, acc := .rw }
/-- BOOT_HOST_ADDR (R458). -/
def BOOT_HOST_ADDR : Reg := { base := 0x5000010 }
def BOOT_HOST_ADDR_VALUE : Fld := { reg := BOOT_HOST_ADDR, lsb := 0, w := 24, acc := .rw }
/-- BOOT_HOST_LEN (R458). -/
def BOOT_HOST_LEN : Reg := { base := 0x5000014 }
def BOOT_HOST_LEN_VALUE : Fld := { reg := BOOT_HOST_LEN, lsb := 0, w := 24, acc := .rw }
/-- BOOT_FLASH (R458). -/
def BOOT_FLASH : Reg := { base := 0x5000018 }
def BOOT_FLASH_SFDP_OK : Fld := { reg := BOOT_FLASH, lsb := 31, w := 1, acc := .ro }
def BOOT_FLASH_MODE : Fld := { reg := BOOT_FLASH, lsb := 24, w := 2, acc := .ro }
def BOOT_FLASH_VALID1 : Fld := { reg := BOOT_FLASH, lsb := 17, w := 1, acc := .ro }
def BOOT_FLASH_VALID0 : Fld := { reg := BOOT_FLASH, lsb := 16, w := 1, acc := .ro }
def BOOT_FLASH_SIZE_LOG2 : Fld := { reg := BOOT_FLASH, lsb := 0, w := 8, acc := .ro }
/-- BOOT_FW_SEQ (R458). -/
def BOOT_FW_SEQ : Reg := { base := 0x500001C, s0 := 0x4, n0 := 2 }
def BOOT_FW_SEQ_SEQ : Fld := { reg := BOOT_FW_SEQ, lsb := 0, w := 32, acc := .ro }
/-- BOOT_OTP (R458). -/
def BOOT_OTP : Reg := { base := 0x5000024, rd := .bootOtp }
def BOOT_OTP_FW_REVOKED : Fld := { reg := BOOT_OTP, lsb := 28, w := 4, acc := .ro }
def BOOT_OTP_MIN_FW : Fld := { reg := BOOT_OTP, lsb := 0, w := 16, acc := .ro }
/-- BOOT_FL_OFS (R458). -/
def BOOT_FL_OFS : Reg := { base := 0x5000030 }
def BOOT_FL_OFS_OFS : Fld := { reg := BOOT_FL_OFS, lsb := 0, w := 32, acc := .rw }
/-- BOOT_FL_MEM_LO (R458). -/
def BOOT_FL_MEM_LO : Reg := { base := 0x5000034 }
def BOOT_FL_MEM_LO_ADDR : Fld := { reg := BOOT_FL_MEM_LO, lsb := 0, w := 32, acc := .rw }
/-- BOOT_FL_MEM_HI (R458). -/
def BOOT_FL_MEM_HI : Reg := { base := 0x5000038 }
def BOOT_FL_MEM_HI_ADDR : Fld := { reg := BOOT_FL_MEM_HI, lsb := 0, w := 16, acc := .rw }
/-- BOOT_FL_LEN (R458). -/
def BOOT_FL_LEN : Reg := { base := 0x500003C }
def BOOT_FL_LEN_LEN : Fld := { reg := BOOT_FL_LEN, lsb := 0, w := 32, acc := .rw }
/-- BOOT_FL_CTL (R458). -/
def BOOT_FL_CTL : Reg := { base := 0x5000040, act := .bootFl }
def BOOT_FL_CTL_GO : Fld := { reg := BOOT_FL_CTL, lsb := 31, w := 1, acc := .wo }
def BOOT_FL_CTL_BUSY : Fld := { reg := BOOT_FL_CTL, lsb := 30, w := 1, acc := .ro }
def BOOT_FL_CTL_OP : Fld := { reg := BOOT_FL_CTL, lsb := 28, w := 2, acc := .rw, norm := [(3, 3, 0)] }
def BOOT_FL_CTL_RESULT : Fld := { reg := BOOT_FL_CTL, lsb := 0, w := 2, acc := .ro }
/-- FLT_STAT (R475). -/
def FLT_STAT : Reg := { base := 0x4C00000 }
def FLT_STAT_ACK_REFUSED : Fld := { reg := FLT_STAT, lsb := 31, w := 1, acc := .w1c, sa := some (0, 30) }
def FLT_STAT_ACK_REFUSED_SA : Fld := { reg := FLT_STAT, lsb := 30, w := 1, acc := .w1c }
def FLT_STAT_SAFE_EV : Fld := { reg := FLT_STAT, lsb := 29, w := 1, acc := .w1c, sa := some (0, 28) }
def FLT_STAT_SAFE_EV_SA : Fld := { reg := FLT_STAT, lsb := 28, w := 1, acc := .w1c }
def FLT_STAT_EXIT_REFUSED : Fld := { reg := FLT_STAT, lsb := 27, w := 1, acc := .w1c, sa := some (0, 26) }
def FLT_STAT_EXIT_REFUSED_SA : Fld := { reg := FLT_STAT, lsb := 26, w := 1, acc := .w1c }
def FLT_STAT_SAFE : Fld := { reg := FLT_STAT, lsb := 0, w := 1, acc := .ro }
/-- FLT_SUM (R475). -/
def FLT_SUM : Reg := { base := 0x4C00004, rd := .fltSum }
def FLT_SUM_LIVE : Fld := { reg := FLT_SUM, lsb := 16, w := 16, acc := .ro }
def FLT_SUM_OPEN : Fld := { reg := FLT_SUM, lsb := 0, w := 16, acc := .ro }
/-- FLT_SAFE_CTL (R475). -/
def FLT_SAFE_CTL : Reg := { base := 0x4C00008, act := .fltSafe }
def FLT_SAFE_CTL_EXIT : Fld := { reg := FLT_SAFE_CTL, lsb := 31, w := 1, acc := .wo }
def FLT_SAFE_CTL_ENTER : Fld := { reg := FLT_SAFE_CTL, lsb := 30, w := 1, acc := .wo }
/-- FLT_SAFE_INFO (R475). -/
def FLT_SAFE_INFO : Reg := { base := 0x4C0000C }
def FLT_SAFE_INFO_SW : Fld := { reg := FLT_SAFE_INFO, lsb := 31, w := 1, acc := .ro }
def FLT_SAFE_INFO_CLASS : Fld := { reg := FLT_SAFE_INFO, lsb := 16, w := 4, acc := .ro }
def FLT_SAFE_INFO_CAUSE : Fld := { reg := FLT_SAFE_INFO, lsb := 8, w := 8, acc := .ro }
/-- FLT_INJ (R475). -/
def FLT_INJ : Reg := { base := 0x4C00010, act := .fltInj }
def FLT_INJ_GO : Fld := { reg := FLT_INJ, lsb := 31, w := 1, acc := .wo }
def FLT_INJ_LEVEL : Fld := { reg := FLT_INJ, lsb := 20, w := 2, acc := .rw }
def FLT_INJ_CLASS : Fld := { reg := FLT_INJ, lsb := 16, w := 4, acc := .rw }
def FLT_INJ_CAUSE : Fld := { reg := FLT_INJ, lsb := 8, w := 8, acc := .rw }
/-- FLT_INJ_MEM (R475). -/
def FLT_INJ_MEM : Reg := { base := 0x4C00014, reset := fun _ _ _ => 0x4000000, act := .fltInjMem }
def FLT_INJ_MEM_ARM : Fld := { reg := FLT_INJ_MEM, lsb := 31, w := 1, acc := .wo }
def FLT_INJ_MEM_TARGET : Fld := { reg := FLT_INJ_MEM, lsb := 28, w := 3, acc := .rw, norm := [(4, 7, 0)] }
def FLT_INJ_MEM_FLIPS : Fld := { reg := FLT_INJ_MEM, lsb := 26, w := 2, acc := .rw, norm := [(0, 0, 1), (3, 3, 1)] }
def FLT_INJ_MEM_CHUNK : Fld := { reg := FLT_INJ_MEM, lsb := 22, w := 4, acc := .rw, norm := [(10, 15, 9)] }
def FLT_INJ_MEM_INDEX : Fld := { reg := FLT_INJ_MEM, lsb := 0, w := 22, acc := .rw }
/-- FLT_CNT_CTL (R475). -/
def FLT_CNT_CTL : Reg := { base := 0x4C00018, act := .fltCntClr }
def FLT_CNT_CTL_CLR : Fld := { reg := FLT_CNT_CTL, lsb := 0, w := 1, acc := .wo }
/-- FLT_REACT (R467). -/
def FLT_REACT : Reg := { base := 0x4C00040, s0 := 0x4, n0 := 16, reset := fun _ _ _ => 0xF070100, act := .fltReact }
def FLT_REACT_L3 : Fld := { reg := FLT_REACT, lsb := 24, w := 4, acc := .rw }
def FLT_REACT_L2 : Fld := { reg := FLT_REACT, lsb := 16, w := 4, acc := .rw }
def FLT_REACT_L1 : Fld := { reg := FLT_REACT, lsb := 8, w := 4, acc := .rw }
def FLT_REACT_L0 : Fld := { reg := FLT_REACT, lsb := 0, w := 4, acc := .rw }
/-- FLT_REC_STAT (R475). -/
def FLT_REC_STAT : Reg := { base := 0x4C00100, s0 := 0x20, n0 := 16, rd := .fltRec }
def FLT_REC_STAT_VALID : Fld := { reg := FLT_REC_STAT, lsb := 31, w := 1, acc := .ro }
def FLT_REC_STAT_LIVE : Fld := { reg := FLT_REC_STAT, lsb := 30, w := 1, acc := .ro }
def FLT_REC_STAT_ESC : Fld := { reg := FLT_REC_STAT, lsb := 29, w := 1, acc := .ro }
def FLT_REC_STAT_INJ : Fld := { reg := FLT_REC_STAT, lsb := 28, w := 1, acc := .ro }
def FLT_REC_STAT_SAFED : Fld := { reg := FLT_REC_STAT, lsb := 27, w := 1, acc := .ro }
def FLT_REC_STAT_LEVEL : Fld := { reg := FLT_REC_STAT, lsb := 24, w := 2, acc := .ro }
def FLT_REC_STAT_FIRST_LEVEL : Fld := { reg := FLT_REC_STAT, lsb := 22, w := 2, acc := .ro }
def FLT_REC_STAT_COUNT : Fld := { reg := FLT_REC_STAT, lsb := 16, w := 6, acc := .ro }
def FLT_REC_STAT_CAUSE : Fld := { reg := FLT_REC_STAT, lsb := 8, w := 8, acc := .ro }
def FLT_REC_STAT_LAST_CAUSE : Fld := { reg := FLT_REC_STAT, lsb := 0, w := 8, acc := .ro }
/-- FLT_REC_INFO (R475). -/
def FLT_REC_INFO : Reg := { base := 0x4C00104, s0 := 0x20, n0 := 16 }
def FLT_REC_INFO_LAST_INFO : Fld := { reg := FLT_REC_INFO, lsb := 16, w := 16, acc := .ro }
def FLT_REC_INFO_INFO : Fld := { reg := FLT_REC_INFO, lsb := 0, w := 16, acc := .ro }
/-- FLT_REC_NT_HI (R475). -/
def FLT_REC_NT_HI : Reg := { base := 0x4C00108, s0 := 0x20, n0 := 16 }
def FLT_REC_NT_HI_SEC_HI : Fld := { reg := FLT_REC_NT_HI, lsb := 0, w := 16, acc := .ro }
/-- FLT_REC_NT_MID (R475). -/
def FLT_REC_NT_MID : Reg := { base := 0x4C0010C, s0 := 0x20, n0 := 16 }
def FLT_REC_NT_MID_SEC_LO : Fld := { reg := FLT_REC_NT_MID, lsb := 0, w := 32, acc := .ro }
/-- FLT_REC_NT_LO (R475). -/
def FLT_REC_NT_LO : Reg := { base := 0x4C00110, s0 := 0x20, n0 := 16 }
def FLT_REC_NT_LO_NS : Fld := { reg := FLT_REC_NT_LO, lsb := 0, w := 32, acc := .ro }
/-- FLT_REC_CTL (R475). -/
def FLT_REC_CTL : Reg := { base := 0x4C00114, s0 := 0x20, n0 := 16, act := .fltAck }
def FLT_REC_CTL_ACK : Fld := { reg := FLT_REC_CTL, lsb := 31, w := 1, acc := .wo }
/-- CHIP_STEP (R489). -/
def CHIP_STEP : Reg := { base := 0x200, rd := .chipStep }
def CHIP_STEP_PART : Fld := { reg := CHIP_STEP, lsb := 16, w := 16, acc := .ro }
def CHIP_STEP_KEYSET : Fld := { reg := CHIP_STEP, lsb := 8, w := 8, acc := .ro }
def CHIP_STEP_STEPPING : Fld := { reg := CHIP_STEP, lsb := 0, w := 8, acc := .ro }

/-! The 48-bit counters (R93 and each chapter's counter table). -/

/-- LANE_PRBS_ERR (R93). -/
def C_LANE_PRBS_ERR : Cnt := { lo := 0x401020, s0 := 0x40, n0 := 514 }
/-- LANE_FEC_CORR (R93). -/
def C_LANE_FEC_CORR : Cnt := { lo := 0x401028, s0 := 0x40, n0 := 514 }
/-- LANE_FEC_UNCORR (R93). -/
def C_LANE_FEC_UNCORR : Cnt := { lo := 0x401030, s0 := 0x40, n0 := 514 }
/-- LANE_FEC_SYM (R93). -/
def C_LANE_FEC_SYM : Cnt := { lo := 0x401038, s0 := 0x40, n0 := 514 }
/-- RX_FRAMES (R110). -/
def C_RX_FRAMES : Cnt := { lo := 0x800040, s0 := 0x100, n0 := 514 }
/-- RX_BYTES (R110). -/
def C_RX_BYTES : Cnt := { lo := 0x800048, s0 := 0x100, n0 := 514 }
/-- RX_FCS_ERR (R110). -/
def C_RX_FCS_ERR : Cnt := { lo := 0x800050, s0 := 0x100, n0 := 514 }
/-- RX_RUNT (R110). -/
def C_RX_RUNT : Cnt := { lo := 0x800058, s0 := 0x100, n0 := 514 }
/-- RX_OVERSIZE (R110). -/
def C_RX_OVERSIZE : Cnt := { lo := 0x800060, s0 := 0x100, n0 := 514 }
/-- RX_PAUSE (R110). -/
def C_RX_PAUSE : Cnt := { lo := 0x800068, s0 := 0x100, n0 := 514 }
/-- RX_PFC (R110). -/
def C_RX_PFC : Cnt := { lo := 0x800070, s0 := 0x100, n0 := 514 }
/-- RX_CTRL_OTHER (R110). -/
def C_RX_CTRL_OTHER : Cnt := { lo := 0x800078, s0 := 0x100, n0 := 514 }
/-- TX_FRAMES (R110). -/
def C_TX_FRAMES : Cnt := { lo := 0x800080, s0 := 0x100, n0 := 514 }
/-- TX_BYTES (R110). -/
def C_TX_BYTES : Cnt := { lo := 0x800088, s0 := 0x100, n0 := 514 }
/-- TX_UNDERRUN (R110). -/
def C_TX_UNDERRUN : Cnt := { lo := 0x800090, s0 := 0x100, n0 := 514 }
/-- TX_STOMP (R110). -/
def C_TX_STOMP : Cnt := { lo := 0x800098, s0 := 0x100, n0 := 514 }
/-- TX_ABORT (R110). -/
def C_TX_ABORT : Cnt := { lo := 0x8000A0, s0 := 0x100, n0 := 514 }
/-- TX_FC (R110). -/
def C_TX_FC : Cnt := { lo := 0x8000A8, s0 := 0x100, n0 := 514 }
/-- CT_RISES (R110). -/
def C_CT_RISES : Cnt := { lo := 0x8000B0, s0 := 0x100, n0 := 514 }
/-- LPI_ENTRIES (R110). -/
def C_LPI_ENTRIES : Cnt := { lo := 0x8000B8, s0 := 0x100, n0 := 514 }
/-- RX_HELD_DROP (R110). -/
def C_RX_HELD_DROP : Cnt := { lo := 0x8000C0, s0 := 0x100, n0 := 514 }
/-- BIP_ERR (R132). -/
def C_BIP_ERR : Cnt := { lo := 0xC10008, s0 := 0x40, n0 := 512 }
/-- LOF_ENTRIES (R132). -/
def C_LOF_ENTRIES : Cnt := { lo := 0xC10010, s0 := 0x40, n0 := 512 }
/-- ERR_BLK (R132). -/
def C_ERR_BLK : Cnt := { lo := 0xC10018, s0 := 0x40, n0 := 512 }
/-- PRS_ERR_SHORT (R161). -/
def C_PRS_ERR_SHORT : Cnt := { lo := 0x1000010, s0 := 0x100, n0 := 32 }
/-- PRS_ERR_WINDOW (R161). -/
def C_PRS_ERR_WINDOW : Cnt := { lo := 0x1000018, s0 := 0x100, n0 := 32 }
/-- PRS_ERR_DEPTH (R161). -/
def C_PRS_ERR_DEPTH : Cnt := { lo := 0x1000020, s0 := 0x100, n0 := 32 }
/-- PRS_ERR_REJECT (R161). -/
def C_PRS_ERR_REJECT : Cnt := { lo := 0x1000028, s0 := 0x100, n0 := 32 }
/-- PRS_SLOT_DROP (R161). -/
def C_PRS_SLOT_DROP : Cnt := { lo := 0x1000030, s0 := 0x100, n0 := 32 }
/-- PRS_RECIRC_DROP (R161). -/
def C_PRS_RECIRC_DROP : Cnt := { lo := 0x1000038, s0 := 0x100, n0 := 32 }
/-- STG_DUP_HIT (R161). -/
def C_STG_DUP_HIT : Cnt := { lo := 0x1400040, s0 := 0x4000, n0 := 32, s1 := 0x200, n1 := 18 }
/-- STG_WR_REFUSED (R161). -/
def C_STG_WR_REFUSED : Cnt := { lo := 0x1403040, s0 := 0x4000, n0 := 32 }
/-- STG_ACT_RANGE (R189). -/
def C_STG_ACT_RANGE : Cnt := { lo := 0x1403120, s0 := 0x4000, n0 := 32 }
/-- GEN_STALE_DROP (R213). -/
def C_GEN_STALE_DROP : Cnt := { lo := 0x1800050 }
/-- GEN_WR_REFUSED (R213). -/
def C_GEN_WR_REFUSED : Cnt := { lo := 0x1800058 }
/-- BUF_INNER_CORR (R238). -/
def C_BUF_INNER_CORR : Cnt := { lo := 0x1C00010 }
/-- BUF_OUTER_CORR (R238). -/
def C_BUF_OUTER_CORR : Cnt := { lo := 0x1C00018 }
/-- BUF_UNCORR (R238). -/
def C_BUF_UNCORR : Cnt := { lo := 0x1C00020 }
/-- BUF_UNC_DROP (R238). -/
def C_BUF_UNC_DROP : Cnt := { lo := 0x1C00028 }
/-- BUF_UNC_STOMP (R238). -/
def C_BUF_UNC_STOMP : Cnt := { lo := 0x1C00030 }
/-- BUF_WQ_DROP (R238). -/
def C_BUF_WQ_DROP : Cnt := { lo := 0x1C00038 }
/-- BUF_RECIRC_OVER (R238). -/
def C_BUF_RECIRC_OVER : Cnt := { lo := 0x1C00040 }
/-- POOL_GRANT (R238). -/
def C_POOL_GRANT : Cnt := { lo := 0x2000100, s0 := 0x20, n0 := 4 }
/-- POOL_FALLBACK (R238). -/
def C_POOL_FALLBACK : Cnt := { lo := 0x2000108, s0 := 0x20, n0 := 4 }
/-- POOL_REFUSED (R238). -/
def C_POOL_REFUSED : Cnt := { lo := 0x2000110, s0 := 0x20, n0 := 4 }
/-- POOL_BAD_FREE (R238). -/
def C_POOL_BAD_FREE : Cnt := { lo := 0x2000180 }
/-- TM_XDROP (R268). -/
def C_TM_XDROP : Cnt := { lo := 0x24000F0, s0 := 0x400, n0 := 512 }
/-- TM_Q_ENQ (R268). -/
def C_TM_Q_ENQ : Cnt := { lo := 0x2400280, s0 := 0x400, n0 := 512, s1 := 0x20, n1 := 12 }
/-- TM_Q_ADMIT_DROP (R268). -/
def C_TM_Q_ADMIT_DROP : Cnt := { lo := 0x2400288, s0 := 0x400, n0 := 512, s1 := 0x20, n1 := 12 }
/-- TM_Q_FLUSH (R268). -/
def C_TM_Q_FLUSH : Cnt := { lo := 0x2400290, s0 := 0x400, n0 := 512, s1 := 0x20, n1 := 12 }
/-- TM_Q_RES_EXP (R268). -/
def C_TM_Q_RES_EXP : Cnt := { lo := 0x2400298, s0 := 0x400, n0 := 512, s1 := 0x20, n1 := 12 }
/-- TM_MC_RES_FULL (R268). -/
def C_TM_MC_RES_FULL : Cnt := { lo := 0x2480010 }
/-- TM_MC_EMPTY (R268). -/
def C_TM_MC_EMPTY : Cnt := { lo := 0x2480018 }
/-- TIME_SKIP (R292). -/
def C_TIME_SKIP : Cnt := { lo := 0x2800050 }
/-- TIME_TSQ_OVF (R292). -/
def C_TIME_TSQ_OVF : Cnt := { lo := 0x2804018, s0 := 0x40, n0 := 33 }
/-- HOB_STEPS (R321). -/
def C_HOB_STEPS : Cnt := { lo := 0x2C00200 }
/-- HOB_DUP (R321). -/
def C_HOB_DUP : Cnt := { lo := 0x2C00208 }
/-- HOB_AHEAD (R321). -/
def C_HOB_AHEAD : Cnt := { lo := 0x2C00210 }
/-- HOB_BADHDR (R321). -/
def C_HOB_BADHDR : Cnt := { lo := 0x2C00218 }
/-- HOB_BADCRC (R321). -/
def C_HOB_BADCRC : Cnt := { lo := 0x2C00220 }
/-- HOB_CTX_DROP (R321). -/
def C_HOB_CTX_DROP : Cnt := { lo := 0x2C00228 }
/-- HOB_INTAKE_DROP (R321). -/
def C_HOB_INTAKE_DROP : Cnt := { lo := 0x2C00230 }
/-- HOB_RESEND (R321). -/
def C_HOB_RESEND : Cnt := { lo := 0x2C00238 }
/-- HOB_EMIT_DROP (R321). -/
def C_HOB_EMIT_DROP : Cnt := { lo := 0x2C00240 }
/-- HOB_POOL_WAIT (R321). -/
def C_HOB_POOL_WAIT : Cnt := { lo := 0x2C00248 }
/-- HOB_ABORTS (R321). -/
def C_HOB_ABORTS : Cnt := { lo := 0x2C00250 }
/-- PWR_OVER_EPOCHS (R342). -/
def C_PWR_OVER_EPOCHS : Cnt := { lo := 0x3000080 }
/-- PWR_DEFER (R342). -/
def C_PWR_DEFER : Cnt := { lo := 0x3000088 }
/-- PWR_DEFER_TMO (R342). -/
def C_PWR_DEFER_TMO : Cnt := { lo := 0x3000090 }
/-- PWR_HINT_LATE (R342). -/
def C_PWR_HINT_LATE : Cnt := { lo := 0x3000098 }
/-- DOM_HELLO_TX (R356). -/
def C_DOM_HELLO_TX : Cnt := { lo := 0x3401010, s0 := 0x40, n0 := 512 }
/-- DOM_HELLO_RX (R356). -/
def C_DOM_HELLO_RX : Cnt := { lo := 0x3401018, s0 := 0x40, n0 := 512 }
/-- DOM_BAD (R356). -/
def C_DOM_BAD : Cnt := { lo := 0x3401020, s0 := 0x40, n0 := 512 }
/-- DOM_QRX_DROP (R356). -/
def C_DOM_QRX_DROP : Cnt := { lo := 0x3401028, s0 := 0x40, n0 := 512 }
/-- DOM_Q_ENTRIES (R356). -/
def C_DOM_Q_ENTRIES : Cnt := { lo := 0x3401030, s0 := 0x40, n0 := 512 }
/-- TLM_REC (R374). -/
def C_TLM_REC : Cnt := { lo := 0x3800040 }
/-- TLM_SHIM_FULL (R374). -/
def C_TLM_SHIM_FULL : Cnt := { lo := 0x3800048 }
/-- TLM_REC_LOST (R374). -/
def C_TLM_REC_LOST : Cnt := { lo := 0x3800050 }
/-- TLM_PC_SENT (R374). -/
def C_TLM_PC_SENT : Cnt := { lo := 0x3800058 }
/-- TLM_PC_DROP (R374). -/
def C_TLM_PC_DROP : Cnt := { lo := 0x3800060 }
/-- STK_MEM_CORR (R401). -/
def C_STK_MEM_CORR : Cnt := { lo := 0x4001010 }
/-- STK_CR_DUP0 (R401). -/
def C_STK_CR_DUP0 : Cnt := { lo := 0x4001018 }
/-- STK_CR_DUP1 (R401). -/
def C_STK_CR_DUP1 : Cnt := { lo := 0x4001020 }
/-- STK_RX_DROP (R401). -/
def C_STK_RX_DROP : Cnt := { lo := 0x4001028 }
/-- STK_SEND_DROP (R401). -/
def C_STK_SEND_DROP : Cnt := { lo := 0x4001030 }
/-- UC_PAR_ERR (R419). -/
def C_UC_PAR_ERR : Cnt := { lo := 0x4400030 }
/-- JOR_RX_FRAMES (R440). -/
def C_JOR_RX_FRAMES : Cnt := { lo := 0x4800010, s0 := 0x100, n0 := 2 }
/-- JOR_HCRC_ERR (R440). -/
def C_JOR_HCRC_ERR : Cnt := { lo := 0x4800018, s0 := 0x100, n0 := 2 }
/-- JOR_CRC_ERR (R440). -/
def C_JOR_CRC_ERR : Cnt := { lo := 0x4800020, s0 := 0x100, n0 := 2 }
/-- JOR_DUP (R440). -/
def C_JOR_DUP : Cnt := { lo := 0x4800028, s0 := 0x100, n0 := 2 }
/-- JOR_BUSY (R440). -/
def C_JOR_BUSY : Cnt := { lo := 0x4800030, s0 := 0x100, n0 := 2 }
/-- JOR_MSG_DROP (R440). -/
def C_JOR_MSG_DROP : Cnt := { lo := 0x4800038, s0 := 0x100, n0 := 2 }
/-- FLT_TOTAL (R476). -/
def C_FLT_TOTAL : Cnt := { lo := 0x4C00118, s0 := 0x20, n0 := 16 }
/-- PMC_CNT (R367). -/
def C_PMC_CNT : Cnt := { lo := 0x3C00008, s0 := 0x10, n0 := 256 }
/-- PMC_SCNT (R367). -/
def C_PMC_SCNT : Cnt := { lo := 0x3C02008, s0 := 0x200, n0 := 32, s1 := 0x10, n1 := 32 }

/-! The catalogue, block by block, for finding the register a chip address names. -/

/-- Registers of the CHIP_ block. -/
def regsCHIP : List (Reg × List Fld) :=
  [(CHIP_METER, [CHIP_METER_LATE_MAX, CHIP_METER_METER_L]),
   (CHIP_METER_LATE, [CHIP_METER_LATE_COUNT]),
   (CHIP_METER_DROP, [CHIP_METER_DROP_COUNT]),
   (CHIP_METER_WORST, [CHIP_METER_WORST_OVER, CHIP_METER_WORST_WORST_CC]),
   (CHIP_METER_CTL, [CHIP_METER_CTL_CLR]),
   (CHIP_MODE, [CHIP_MODE_MODE]),
   (CHIP_MODE_CFG, [CHIP_MODE_CFG_DRAIN_TX, CHIP_MODE_CFG_LAT, CHIP_MODE_CFG_BUF]),
   (CHIP_MODE_CLK, [CHIP_MODE_CLK_USE_AT, CHIP_MODE_CLK_DAMPER_FIX, CHIP_MODE_CLK_FIXED]),
   (CHIP_MODE_AT_LO, [CHIP_MODE_AT_LO_EPOCH_LO]),
   (CHIP_MODE_AT_HI, [CHIP_MODE_AT_HI_EPOCH_HI]),
   (CHIP_MODE_STAT, [CHIP_MODE_STAT_DRAIN_ACTIVE, CHIP_MODE_STAT_CLK_PENDING, CHIP_MODE_STAT_AT_PAST, CHIP_MODE_STAT_DRAIN_DONE, CHIP_MODE_STAT_AT_PAST_SA, CHIP_MODE_STAT_DRAIN_DONE_SA, CHIP_MODE_STAT_LAST_DRAIN_US]),
   (CHIP_MODE_DRAIN_DROP, [CHIP_MODE_DRAIN_DROP_COUNT]),
   (CHIP_MODE_FLUSH, [CHIP_MODE_FLUSH_COUNT]),
   (CHIP_MODE_CTL, [CHIP_MODE_CTL_CLR]),
   (CHIP_STEP, [CHIP_STEP_PART, CHIP_STEP_KEYSET, CHIP_STEP_STEPPING])]
/-- Registers of the LANE_ block. -/
def regsLANE : List (Reg × List Fld) :=
  [(LANE_REFCLK, [LANE_REFCLK_PRESENT, LANE_REFCLK_SPREAD]),
   (LANE_OCT_CFG, [LANE_OCT_CFG_COMMON, LANE_OCT_CFG_RATE]),
   (LANE_OCT_STAT, [LANE_OCT_STAT_PLL_LOCK, LANE_OCT_STAT_SPREAD_CONFLICT, LANE_OCT_STAT_CFG_ERR, LANE_OCT_STAT_CFG_ERR_SA]),
   (LANE_AUX_CFG, [LANE_AUX_CFG_CFG_ERR, LANE_AUX_CFG_CFG_ERR_SA, LANE_AUX_CFG_RATE]),
   (LANE_CTL, [LANE_CTL_RX_INV, LANE_CTL_TX_INV, LANE_CTL_PRECODE, LANE_CTL_LOOP, LANE_CTL_EN]),
   (LANE_TRAIN_CFG, [LANE_TRAIN_CFG_FREEZE_RUN, LANE_TRAIN_CFG_TMO_MS]),
   (LANE_STAT, [LANE_STAT_TRAIN_FAIL, LANE_STAT_TRAIN_FAIL_SA, LANE_STAT_LINK_FAIL, LANE_STAT_LINK_FAIL_SA, LANE_STAT_FAIL_CAUSE, LANE_STAT_TX_EMBER, LANE_STAT_RX_EMBER, LANE_STAT_PRECODE_ON, LANE_STAT_SIG_DET, LANE_STAT_BLOCK_LOCK, LANE_STAT_AM_LOCK, LANE_STAT_FROZEN, LANE_STAT_STATE]),
   (LANE_BACKOFF, [LANE_BACKOFF_FAILS, LANE_BACKOFF_REMAIN_MS]),
   (LANE_ATTEMPTS, [LANE_ATTEMPTS_COUNT]),
   (LANE_SKEW, [LANE_SKEW_SKEW]),
   (LANE_PRBS, [LANE_PRBS_LOCK_LOST_SA, LANE_PRBS_LOCK_LOST, LANE_PRBS_CHK_LOCK, LANE_PRBS_INSERT_ERR, LANE_PRBS_CHK_EN, LANE_PRBS_GEN_EN, LANE_PRBS_PATTERN]),
   (LANE_CNT_CTL, [LANE_CNT_CTL_CLR])]
/-- Registers of the MAC_ block. -/
def regsMAC : List (Reg × List Fld) :=
  [(MAC_PORT_CFG, [MAC_PORT_CFG_MAX_LEN, MAC_PORT_CFG_WIDTH, MAC_PORT_CFG_EN]),
   (MAC_PORT_STAT, [MAC_PORT_STAT_MAP_ERR, MAC_PORT_STAT_MAP_ERR_SA, MAC_PORT_STAT_DOWN_EV, MAC_PORT_STAT_DOWN_EV_SA, MAC_PORT_STAT_LF, MAC_PORT_STAT_RF, MAC_PORT_STAT_LPI_RX, MAC_PORT_STAT_LPI_TX, MAC_PORT_STAT_STATE]),
   (MAC_CT, [MAC_CT_T_BASE, MAC_CT_T_CUR]),
   (MAC_FC_CFG, [MAC_FC_CFG_PAUSE_EXEMPT, MAC_FC_CFG_PAUSE_TX_EN, MAC_FC_CFG_PFC_TX_EN, MAC_FC_CFG_PFC_RX_EN, MAC_FC_CFG_PAUSE_RX_EN]),
   (MAC_PFC_MAP, [MAC_PFC_MAP_MAP_ODD, MAC_PFC_MAP_MAP_EVEN]),
   (MAC_PFC_TX, [MAC_PFC_TX_QUANTA]),
   (MAC_EEE, [MAC_EEE_TW_TX_US, MAC_EEE_IDLE_US, MAC_EEE_EN]),
   (MAC_CNT_CTL, [MAC_CNT_CTL_CLR]),
   (MAC_AUX_CTL, [MAC_AUX_CTL_WAKE, MAC_AUX_CTL_WAKE_SA, MAC_AUX_CTL_WAKE_EN, MAC_AUX_CTL_SLEEP]),
   (MAC_SA_BASE_LO, [MAC_SA_BASE_LO_ADDR_LO]),
   (MAC_SA_BASE_HI, [MAC_SA_BASE_HI_ADDR_HI])]
/-- Registers of the TRK_ block. -/
def regsTRK : List (Reg × List Fld) :=
  [(TRK_GRP_CFG, [TRK_GRP_CFG_EN, TRK_GRP_CFG_MIN_ACT, TRK_GRP_CFG_LANE_MASK]),
   (TRK_GRP_ID, [TRK_GRP_ID_GID_EXP, TRK_GRP_ID_GID_TX]),
   (TRK_GRP_CTL, [TRK_GRP_CTL_WITHDRAW]),
   (TRK_GRP_STAT, [TRK_GRP_STAT_GRP_ERR, TRK_GRP_STAT_GRP_ERR_SA, TRK_GRP_STAT_DOWN_EV, TRK_GRP_STAT_DOWN_EV_SA, TRK_GRP_STAT_RDI_RX, TRK_GRP_STAT_AIS_TX, TRK_GRP_STAT_TX_UP, TRK_GRP_STAT_RX_UP]),
   (TRK_GRP_MAP, [TRK_GRP_MAP_ACT_TX, TRK_GRP_MAP_RXMAP_TX]),
   (TRK_GRP_PEER, [TRK_GRP_PEER_ACT_RX, TRK_GRP_PEER_RXMAP_RX]),
   (TRK_MEM_STAT, [TRK_MEM_STAT_DEF_EV, TRK_MEM_STAT_DEF_EV_SA, TRK_MEM_STAT_RDI_M, TRK_MEM_STAT_AIS_RX, TRK_MEM_STAT_MEMBER_RX, TRK_MEM_STAT_STATE, TRK_MEM_STAT_LAG]),
   (TRK_MEM_CNT_CTL, [TRK_MEM_CNT_CTL_CLR]),
   (TRK_FSP_CFG, [TRK_FSP_CFG_EN, TRK_FSP_CFG_SRC, TRK_FSP_CFG_SLICE, TRK_FSP_CFG_GROUP, TRK_FSP_CFG_MEMBER]),
   (TRK_FSP_STAT, [TRK_FSP_STAT_RX_OVF, TRK_FSP_STAT_RX_OVF_SA, TRK_FSP_STAT_TX_FULL, TRK_FSP_STAT_TX_FULL_SA, TRK_FSP_STAT_FLUE_LOSS, TRK_FSP_STAT_RX_LEVEL, TRK_FSP_STAT_TX_LEVEL]),
   (TRK_FSP_RX, [TRK_FSP_RX_VALID, TRK_FSP_RX_BYTE]),
   (TRK_FSP_TX, [TRK_FSP_TX_BYTE])]
/-- Registers of the PRS_ block. -/
def regsPRS : List (Reg × List Fld) :=
  [(PRS_PROG_ADDR, [PRS_PROG_ADDR_AUTO_INC, PRS_PROG_ADDR_BCAST, PRS_PROG_ADDR_ADDR]),
   (PRS_PROG_DATA, [PRS_PROG_DATA_DATA]),
   (PRS_CNT_CTL, [PRS_CNT_CTL_CLR])]
/-- Registers of the STG_ block. -/
def regsSTG : List (Reg × List Fld) :=
  [(STG_TBL_CFG, [STG_TBL_CFG_EN, STG_TBL_CFG_KIND, STG_TBL_CFG_KEYMAP, STG_TBL_CFG_D_WORDS, STG_TBL_CFG_KEY_BYTES, STG_TBL_CFG_TBLK]),
   (STG_TBL_UNITS, [STG_TBL_UNITS_UNITS]),
   (STG_TBL_DEF, [STG_TBL_DEF_IF_HDR, STG_TBL_DEF_DEF_ACTION]),
   (STG_TBL_SEED, [STG_TBL_SEED_SEED]),
   (STG_ACT_SEL, [STG_ACT_SEL_MODE, STG_ACT_SEL_SLOT]),
   (STG_ACT_BAD, [STG_ACT_BAD_BAD, STG_ACT_BAD_BAD_SA, STG_ACT_BAD_BUNDLE, STG_ACT_BAD_ISLOT, STG_ACT_BAD_CODE]),
   (STG_ACC_CTL, [STG_ACC_CTL_GO, STG_ACC_CTL_BCAST, STG_ACC_CTL_READ, STG_ACC_CTL_SPACE, STG_ACC_CTL_STAGE]),
   (STG_ACC_ADDR, [STG_ACC_ADDR_ADDR]),
   (STG_ACC_STAT, [STG_ACC_STAT_BUSY, STG_ACC_STAT_DONE, STG_ACC_STAT_DONE_SA, STG_ACC_STAT_COLLIDE, STG_ACC_STAT_COLLIDE_SA, STG_ACC_STAT_RESULT]),
   (STG_ACC_DATA, [STG_ACC_DATA_DATA]),
   (STG_CNT_CTL, [STG_CNT_CTL_CLR]),
   (STG_REPIN_CTL, [STG_REPIN_CTL_STAGE, STG_REPIN_CTL_EN]),
   (STG_REPIN_STAT, [STG_REPIN_STAT_ACTIVE, STG_REPIN_STAT_DONE, STG_REPIN_STAT_DONE_SA, STG_REPIN_STAT_NO_SURVIVOR, STG_REPIN_STAT_NO_SURVIVOR_SA, STG_REPIN_STAT_PORT]),
   (STG_ACT_CTL, [STG_ACT_CTL_GO, STG_ACT_CTL_BCAST, STG_ACT_CTL_READ, STG_ACT_CTL_ACTIVE, STG_ACT_CTL_SPACE, STG_ACT_CTL_STAGE]),
   (STG_ACT_ADDR, [STG_ACT_ADDR_ADDR]),
   (STG_ACT_STAT, [STG_ACT_STAT_BUSY, STG_ACT_STAT_DONE, STG_ACT_STAT_DONE_SA, STG_ACT_STAT_COLLIDE, STG_ACT_STAT_COLLIDE_SA, STG_ACT_STAT_RESULT]),
   (STG_ACT_DATA, [STG_ACT_DATA_DATA]),
   (STG_ACT_CNT_CTL, [STG_ACT_CNT_CTL_CLR]),
   (STG_MIR_SESS, [STG_MIR_SESS_EN, STG_MIR_SESS_PORT, STG_MIR_SESS_QUEUE, STG_MIR_SESS_TRUNC])]
/-- Registers of the GEN_ block. -/
def regsGEN : List (Reg × List Fld) :=
  [(GEN_STAT, [GEN_STAT_DONE, GEN_STAT_DONE_SA, GEN_STAT_MISSED, GEN_STAT_MISSED_SA, GEN_STAT_REFUSED, GEN_STAT_REFUSED_SA, GEN_STAT_WR_CLOSED, GEN_STAT_WR_CLOSED_SA, GEN_STAT_STALLED, GEN_STAT_DRAIN_WAIT, GEN_STAT_ACTIVE_SLOT, GEN_STAT_RESULT, GEN_STAT_CSTATE]),
   (GEN_ACTIVE, [GEN_ACTIVE_NUM]),
   (GEN_SLOT_NUM, [GEN_SLOT_NUM_NUM]),
   (GEN_SLOT_INFL, [GEN_SLOT_INFL_COUNT]),
   (GEN_CMT_NUM, [GEN_CMT_NUM_NUM]),
   (GEN_CMT_AT_HI, [GEN_CMT_AT_HI_SEC_HI]),
   (GEN_CMT_AT_MID, [GEN_CMT_AT_MID_SEC_LO]),
   (GEN_CMT_AT_LO, [GEN_CMT_AT_LO_NS]),
   (GEN_CMT_CTL, [GEN_CMT_CTL_GO, GEN_CMT_CTL_CANCEL, GEN_CMT_CTL_ANYNUM, GEN_CMT_CTL_NOW, GEN_CMT_CTL_SRC]),
   (GEN_AGE, [GEN_AGE_MAX_AGE]),
   (GEN_DIGEST_LO, [GEN_DIGEST_LO_DIGEST]),
   (GEN_DIGEST_HI, [GEN_DIGEST_HI_DIGEST]),
   (GEN_BANK_STAT, [GEN_BANK_STAT_BOOT_BANK, GEN_BANK_STAT_TIE, GEN_BANK_STAT_VALID1, GEN_BANK_STAT_VALID0]),
   (GEN_BANK_SEQ, [GEN_BANK_SEQ_SEQ]),
   (GEN_CTL, [GEN_CTL_RD_ACTIVE]),
   (GEN_CNT_CTL, [GEN_CNT_CTL_CLR])]
/-- Registers of the BUF_ block. -/
def regsBUF : List (Reg × List Fld) :=
  [(BUF_STAT, [BUF_STAT_UNCORR, BUF_STAT_UNCORR_SA, BUF_STAT_CORR_THR, BUF_STAT_CORR_THR_SA]),
   (BUF_ERR_LOC, [BUF_ERR_LOC_ERASED, BUF_ERR_LOC_CELL]),
   (BUF_CORR_THR, [BUF_CORR_THR_THR]),
   (BUF_CNT_CTL, [BUF_CNT_CTL_CLR])]
/-- Registers of the POOL_ block. -/
def regsPOOL : List (Reg × List Fld) :=
  [(POOL_CTL, [POOL_CTL_REBUILD, POOL_CTL_CARVE]),
   (POOL_STAT, [POOL_STAT_BAD_FREE, POOL_STAT_BAD_FREE_SA, POOL_STAT_CARVE_ERR, POOL_STAT_CARVE_ERR_SA, POOL_STAT_LOW, POOL_STAT_LOW_SA, POOL_STAT_STATE]),
   (POOL_CARVE, [POOL_CARVE_SB]),
   (POOL_FREE, [POOL_FREE_FREE]),
   (POOL_FREE_CELLS, [POOL_FREE_CELLS_CELLS]),
   (POOL_LOW, [POOL_LOW_LOW]),
   (POOL_LOWTHR, [POOL_LOWTHR_THR]),
   (POOL_PTR, [POOL_PTR_PTR]),
   (POOL_BAD_INFO, [POOL_BAD_INFO_REASON, POOL_BAD_INFO_REQ, POOL_BAD_INFO_CELL]),
   (POOL_CNT_CTL, [POOL_CNT_CTL_CLR])]
/-- Registers of the TM_ block. -/
def regsTM0 : List (Reg × List Fld) :=
  [(TM_PORT_CFG, [TM_PORT_CFG_MCQ9]),
   (TM_PORT_STAT, [TM_PORT_STAT_FLUSH_DONE, TM_PORT_STAT_FLUSH_DONE_SA, TM_PORT_STAT_HDRM_OVF, TM_PORT_STAT_HDRM_OVF_SA, TM_PORT_STAT_XOFF, TM_PORT_STAT_FLUSHING]),
   (TM_PORT_CTL, [TM_PORT_CTL_CLR]),
   (TM_ING_CFG, [TM_ING_CFG_ALPHA_ING, TM_ING_CFG_XON_DELTA, TM_ING_CFG_LL]),
   (TM_ING_THR, [TM_ING_THR_THR]),
   (TM_ING_HDRM, [TM_ING_HDRM_HEADROOM]),
   (TM_GATE_CTL, [TM_GATE_CTL_SWAP, TM_GATE_CTL_EN, TM_GATE_CTL_LEN]),
   (TM_GATE_BASE_HI, [TM_GATE_BASE_HI_SEC_HI]),
   (TM_GATE_BASE_MID, [TM_GATE_BASE_MID_SEC_LO]),
   (TM_GATE_BASE_LO, [TM_GATE_BASE_LO_NS]),
   (TM_GATE_CYCLE, [TM_GATE_CYCLE_CYCLE]),
   (TM_GATE_STAT, [TM_GATE_STAT_SWAPPED, TM_GATE_STAT_SWAPPED_SA, TM_GATE_STAT_GL_REFUSED, TM_GATE_STAT_GL_REFUSED_SA, TM_GATE_STAT_PENDING, TM_GATE_STAT_OPER, TM_GATE_STAT_OPER_EN, TM_GATE_STAT_GATES]),
   (TM_ING_CNT, [TM_ING_CNT_CELLS]),
   (TM_Q_CFG, [TM_Q_CFG_LVL, TM_Q_CFG_WEIGHT, TM_Q_CFG_ALPHA, TM_Q_CFG_IPRI]),
   (TM_Q_LIMIT, [TM_Q_LIMIT_LIMIT]),
   (TM_Q_DEPTH, [TM_Q_DEPTH_STATE, TM_Q_DEPTH_CELLS]),
   (TM_Q_DWRR, [TM_Q_DWRR_DC]),
   (TM_CHIP_CFG, [TM_CHIP_CFG_RES_MAX]),
   (TM_PART_CFG, [TM_PART_CFG_HOB_RSV]),
   (TM_CHIP_STAT, [TM_CHIP_STAT_CFG_ERR, TM_CHIP_STAT_CFG_ERR_SA, TM_CHIP_STAT_RES_FULL, TM_CHIP_STAT_RES_FULL_SA, TM_CHIP_STAT_RES_USED])]
/-- Registers of the TM_ block. -/
def regsTM1 : List (Reg × List Fld) :=
  [(TM_CHIP_CTL, [TM_CHIP_CTL_CLR]),
   (TM_MC_CTL, [TM_MC_CTL_GO, TM_MC_CTL_ACTIVE, TM_MC_CTL_READ, TM_MC_CTL_GROUP]),
   (TM_MC_STAT, [TM_MC_STAT_BUSY, TM_MC_STAT_DONE, TM_MC_STAT_DONE_SA, TM_MC_STAT_COLLIDE, TM_MC_STAT_COLLIDE_SA, TM_MC_STAT_RESULT]),
   (TM_MC_FLAGS, [TM_MC_FLAGS_PRUNE]),
   (TM_MC_DATA, [TM_MC_DATA_MAP]),
   (TM_GATE_ENT0, [TM_GATE_ENT0_GATES]),
   (TM_GATE_ENT1, [TM_GATE_ENT1_INTERVAL])]
/-- Registers of the TM_ block. -/
def regsTM : List (Reg × List Fld) := regsTM0 ++ regsTM1
/-- Registers of the TIME_ block. -/
def regsTIME0 : List (Reg × List Fld) :=
  [(TIME_STAT, [TIME_STAT_JUMP_REF, TIME_STAT_JUMP_REF_SA, TIME_STAT_PATH_STEP, TIME_STAT_PATH_STEP_SA, TIME_STAT_STEPPED, TIME_STAT_STEPPED_SA, TIME_STAT_SAMPLE_LOST, TIME_STAT_SAMPLE_LOST_SA, TIME_STAT_CAUSE, TIME_STAT_JUMP_OVR, TIME_STAT_STATE]),
   (TIME_CMD, [TIME_CMD_SAMPLE, TIME_CMD_PD_VALID, TIME_CMD_SET, TIME_CMD_RUN, TIME_CMD_HOLD, TIME_CMD_FREE, TIME_CMD_REQUAL, TIME_CMD_JUMP_OVR]),
   (TIME_NOW_HI, [TIME_NOW_HI_SEC_HI]),
   (TIME_NOW_MID, [TIME_NOW_MID_SEC_LO]),
   (TIME_NOW_LO, [TIME_NOW_LO_NS]),
   (TIME_NOW_FRAC, [TIME_NOW_FRAC_FRAC]),
   (TIME_SET_HI, [TIME_SET_HI_SEC_HI]),
   (TIME_SET_MID, [TIME_SET_MID_SEC_LO]),
   (TIME_SET_LO, [TIME_SET_LO_NS]),
   (TIME_SET_FRAC, [TIME_SET_FRAC_FRAC]),
   (TIME_OFS_HI, [TIME_OFS_HI_OFS_HI]),
   (TIME_OFS_LO, [TIME_OFS_LO_OFS_LO]),
   (TIME_PD, [TIME_PD_PD]),
   (TIME_FREQ, [TIME_FREQ_ADJ]),
   (TIME_CFG, [TIME_CFG_SRC, TIME_CFG_PTP_TYPE, TIME_CFG_FREQ_MAX]),
   (TIME_GAIN, [TIME_GAIN_KP, TIME_GAIN_KI]),
   (TIME_LOCK, [TIME_LOCK_LOCK_CNT, TIME_LOCK_UNLOCK_THR, TIME_LOCK_LOCK_THR]),
   (TIME_STEP, [TIME_STEP_STEP_THR, TIME_STEP_PATH_STEP_MAX]),
   (TIME_JUMP, [TIME_JUMP_JUMP_MAX]),
   (TIME_TMO, [TIME_TMO_HOLD_MAX, TIME_TMO_SAMPLE_TMO])]
/-- Registers of the TIME_ block. -/
def regsTIME1 : List (Reg × List Fld) :=
  [(TIME_CNT_CTL, [TIME_CNT_CTL_CLR]),
   (TIME_PORT_CFG, [TIME_PORT_CFG_OS_EN, TIME_PORT_CFG_TC_EN]),
   (TIME_PORT_RXC, [TIME_PORT_RXC_CORR]),
   (TIME_PORT_TXC, [TIME_PORT_TXC_CORR]),
   (TIME_TSQ_W0, [TIME_TSQ_W0_WORD]),
   (TIME_TSQ_W1, [TIME_TSQ_W1_WORD]),
   (TIME_TSQ_W2, [TIME_TSQ_W2_WORD]),
   (TIME_TSQ_W3, [TIME_TSQ_W3_WORD]),
   (TIME_TSQ_W4, [TIME_TSQ_W4_WORD]),
   (TIME_TSQ_STAT, [TIME_TSQ_STAT_NEXT_QSEQ, TIME_TSQ_STAT_LEVEL]),
   (TIME_TSQ_CTL, [TIME_TSQ_CTL_CLR]),
   (TIME_TOUT_CTL, [TIME_TOUT_CTL_ARM, TIME_TOUT_CTL_STOP, TIME_TOUT_CTL_MODE, TIME_TOUT_CTL_QUAL, TIME_TOUT_CTL_POL]),
   (TIME_TOUT_STAT, [TIME_TOUT_STAT_LATE, TIME_TOUT_STAT_LATE_SA, TIME_TOUT_STAT_HELD, TIME_TOUT_STAT_HELD_SA, TIME_TOUT_STAT_RUN, TIME_TOUT_STAT_SUPPRESS]),
   (TIME_TOUT_START_HI, [TIME_TOUT_START_HI_SEC_HI]),
   (TIME_TOUT_START_MID, [TIME_TOUT_START_MID_SEC_LO]),
   (TIME_TOUT_START_LO, [TIME_TOUT_START_LO_NS]),
   (TIME_TOUT_START_FRAC, [TIME_TOUT_START_FRAC_FRAC]),
   (TIME_TOUT_PER, [TIME_TOUT_PER_PER_NS]),
   (TIME_TOUT_WF, [TIME_TOUT_WF_PER_FRAC, TIME_TOUT_WF_WIDTH]),
   (TIME_TIN_CTL, [TIME_TIN_CTL_CLR, TIME_TIN_CTL_IRQ_EN, TIME_TIN_CTL_EDGE])]
/-- Registers of the TIME_ block. -/
def regsTIME2 : List (Reg × List Fld) :=
  [(TIME_TIN_STAT, [TIME_TIN_STAT_OVF, TIME_TIN_STAT_OVF_SA, TIME_TIN_STAT_LEVEL, TIME_TIN_STAT_LOST]),
   (TIME_TIN_EV_SEC_HI, [TIME_TIN_EV_SEC_HI_VALID, TIME_TIN_EV_SEC_HI_RISE, TIME_TIN_EV_SEC_HI_SEC_HI]),
   (TIME_TIN_EV_SEC_LO, [TIME_TIN_EV_SEC_LO_SEC_LO]),
   (TIME_TIN_EV_NS, [TIME_TIN_EV_NS_NS]),
   (TIME_TIN_EV_FRAC, [TIME_TIN_EV_FRAC_FRAC])]
/-- Registers of the TIME_ block. -/
def regsTIME : List (Reg × List Fld) := regsTIME0 ++ regsTIME1 ++ regsTIME2
/-- Registers of the HOB_ block. -/
def regsHOB : List (Reg × List Fld) :=
  [(HOB_CTX_CTL, [HOB_CTX_CTL_GO, HOB_CTX_CTL_CMD, HOB_CTX_CTL_INDEX]),
   (HOB_CTX_STAT, [HOB_CTX_STAT_BUSY, HOB_CTX_STAT_DONE, HOB_CTX_STAT_DONE_SA, HOB_CTX_STAT_COLLIDE, HOB_CTX_STAT_COLLIDE_SA, HOB_CTX_STAT_RESULT]),
   (HOB_EVT, [HOB_EVT_ABORTED, HOB_EVT_ABORTED_SA, HOB_EVT_CTX_DONE, HOB_EVT_CTX_DONE_SA, HOB_EVT_LAST_CTX]),
   (HOB_ABORT_INFO, [HOB_ABORT_INFO_CAUSE, HOB_ABORT_INFO_CHILD, HOB_ABORT_INFO_CTX]),
   (HOB_CNT_CTL, [HOB_CNT_CTL_CLR]),
   (HOB_CTX_DATA, [HOB_CTX_DATA_DATA]),
   (HOB_ENG_STAT, [HOB_ENG_STAT_HALTED, HOB_ENG_STAT_DAMPER, HOB_ENG_STAT_ACTIVE])]
/-- Registers of the PWR_ block. -/
def regsPWR : List (Reg × List Fld) :=
  [(PWR_CAP, [PWR_CAP_MARGIN, PWR_CAP_CAP]),
   (PWR_STAT, [PWR_STAT_OVER, PWR_STAT_OVER_SA, PWR_STAT_SENSOR_FAIL, PWR_STAT_SENSOR_FAIL_SA, PWR_STAT_CAL_LIMIT, PWR_STAT_CAL_LIMIT_SA, PWR_STAT_HINT_FULL, PWR_STAT_HINT_FULL_SA, PWR_STAT_EST_ENERGY, PWR_STAT_THROTTLE, PWR_STAT_VGOOD, PWR_STAT_FLOOR]),
   (PWR_EST, [PWR_EST_HOB, PWR_EST_FIX]),
   (PWR_MEAS, [PWR_MEAS_HOB, PWR_MEAS_TOTAL]),
   (PWR_SHARE, [PWR_SHARE_CAP_EFF, PWR_SHARE_S]),
   (PWR_CAL, [PWR_CAL_GAIN, PWR_CAL_OFFSET]),
   (PWR_CFG, [PWR_CFG_BOOST_HOLD, PWR_CFG_BOOST_MAX]),
   (PWR_BELLOWS, [PWR_BELLOWS_CEIL, PWR_BELLOWS_TARGET, PWR_BELLOWS_POINT]),
   (PWR_HINT, [PWR_HINT_LEAD, PWR_HINT_OPP, PWR_HINT_PHASE]),
   (PWR_HINT_MASK, [PWR_HINT_MASK_ENG]),
   (PWR_THERM, [PWR_THERM_TRIP, PWR_THERM_HI, PWR_THERM_WARN]),
   (PWR_TMAX, [PWR_TMAX_SENSOR, PWR_TMAX_TEMP]),
   (PWR_ENERGY_LO, [PWR_ENERGY_LO_ENERGY]),
   (PWR_ENERGY_HI, [PWR_ENERGY_HI_ENERGY]),
   (PWR_CNT_CTL, [PWR_CNT_CTL_CLR]),
   (PWR_PHASE_CFG, [PWR_PHASE_CFG_RELEARN, PWR_PHASE_CFG_OPP]),
   (PWR_PHASE_LRN, [PWR_PHASE_LRN_PI, PWR_PHASE_LRN_DEMAND, PWR_PHASE_LRN_SAMPLES]),
   (PWR_TSENS, [PWR_TSENS_VALID, PWR_TSENS_TEMP]),
   (PWR_ENG, [PWR_ENG_TARGET_D, PWR_ENG_PHASE, PWR_ENG_DEFER, PWR_ENG_U])]
/-- Registers of the DOM_ block. -/
def regsDOM : List (Reg × List Fld) :=
  [(DOM_ID, [DOM_ID_DOMAIN_ID]),
   (DOM_CHIP, [DOM_CHIP_CHIP_ID]),
   (DOM_HELLO, [DOM_HELLO_PERIOD_US, DOM_HELLO_TOL_NS]),
   (DOM_GM_HI, [DOM_GM_HI_GM]),
   (DOM_GM_LO, [DOM_GM_LO_GM]),
   (DOM_SUM, [DOM_SUM_JOINED, DOM_SUM_QCOUNT]),
   (DOM_DCFG, [DOM_DCFG_DATA]),
   (DOM_PORT_CFG, [DOM_PORT_CFG_EN]),
   (DOM_PORT_PD, [DOM_PORT_PD_VALID, DOM_PORT_PD_PD]),
   (DOM_PORT_STAT, [DOM_PORT_STAT_QENTER, DOM_PORT_STAT_QENTER_SA, DOM_PORT_STAT_AGREE_EV, DOM_PORT_STAT_AGREE_EV_SA, DOM_PORT_STAT_CAUSE, DOM_PORT_STAT_AGREE_CNT, DOM_PORT_STAT_STATE]),
   (DOM_PORT_CTL, [DOM_PORT_CTL_CLR]),
   (DOM_PORT_PEER, [DOM_PORT_PEER_CHIP, DOM_PORT_PEER_PORT]),
   (DOM_PORT_OFS, [DOM_PORT_OFS_EPS])]
/-- Registers of the TLM_ block. -/
def regsTLM : List (Reg × List Fld) :=
  [(TLM_CFG, [TLM_CFG_EN, TLM_CFG_INBAND, TLM_CFG_HIST_PC, TLM_CFG_DIG_PC, TLM_CFG_BATCH, TLM_CFG_HOP_MAX, TLM_CFG_SINK_COLL, TLM_CFG_DIG_COLL, TLM_CFG_HIST_COLL, TLM_CFG_REC_COLL]),
   (TLM_EPOCH, [TLM_EPOCH_EPOCH_US]),
   (TLM_SEL, [TLM_SEL_FLOW_MASK, TLM_SEL_FLOW_MATCH]),
   (TLM_STAT, [TLM_STAT_REC_LOST, TLM_STAT_REC_LOST_SA, TLM_STAT_PC_DROP, TLM_STAT_PC_DROP_SA]),
   (TLM_EPOCH_RD, [TLM_EPOCH_RD_EPOCH]),
   (TLM_CNT_CTL, [TLM_CNT_CTL_CLR]),
   (TLM_COLL0, [TLM_COLL0_V, TLM_COLL0_IPV6, TLM_COLL0_UDPCS0, TLM_COLL0_PORT, TLM_COLL0_QUEUE, TLM_COLL0_HLEN]),
   (TLM_COLL, [TLM_COLL_WORD]),
   (TLM_PORT_CFG, [TLM_PORT_CFG_PKT_SHIFT, TLM_PORT_CFG_HIST_QMASK, TLM_PORT_CFG_HIST_EN, TLM_PORT_CFG_DIGEST, TLM_PORT_CFG_ROLE]),
   (TLM_LAT_BIN, [TLM_LAT_BIN_COUNT]),
   (TLM_DEPTH_BIN, [TLM_DEPTH_BIN_COUNT]),
   (TLM_DIG_RD, [TLM_DIG_RD_WORD])]
/-- Registers of the PMC_ block. -/
def regsPMC : List (Reg × List Fld) :=
  [(PMC_CFG, [PMC_CFG_EN, PMC_CFG_CHAIN, PMC_CFG_OVF_IE, PMC_CFG_EVENT, PMC_CFG_PRIV, PMC_CFG_MASTER, PMC_CFG_CLASS, PMC_CFG_RANGE_EN, PMC_CFG_RANGE]),
   (PMC_SCFG, [PMC_SCFG_EN, PMC_SCFG_CHAIN, PMC_SCFG_OVF_IE, PMC_SCFG_EVENT, PMC_SCFG_PRIV, PMC_SCFG_MASTER, PMC_SCFG_CLASS, PMC_SCFG_RANGE_EN, PMC_SCFG_RANGE]),
   (PMC_CTL, [PMC_CTL_FREEZE]),
   (PMC_STAT, [PMC_STAT_CFG_ERR, PMC_STAT_CFG_ERR_SA]),
   (PMC_USER, [PMC_USER_BITS]),
   (PMC_USER_S, [PMC_USER_S_BITS]),
   (PMC_CLR, [PMC_CLR_BITS]),
   (PMC_CLR_S, [PMC_CLR_S_BITS]),
   (PMC_OVF, [PMC_OVF_BITS]),
   (PMC_OVF_SA, [PMC_OVF_SA_BITS]),
   (PMC_OVF_S, [PMC_OVF_S_BITS]),
   (PMC_OVF_SA_S, [PMC_OVF_SA_S_BITS]),
   (PMC_RANGE_BASE_HI, [PMC_RANGE_BASE_HI_ADDR]),
   (PMC_RANGE_BASE_LO, [PMC_RANGE_BASE_LO_ADDR]),
   (PMC_RANGE_LIMIT_HI, [PMC_RANGE_LIMIT_HI_ADDR]),
   (PMC_RANGE_LIMIT_LO, [PMC_RANGE_LIMIT_LO_ADDR])]
/-- Registers of the STK_ block. -/
def regsSTK0 : List (Reg × List Fld) :=
  [(STK_CTL, [STK_CTL_RUN, STK_CTL_HALT]),
   (STK_STAT, [STK_STAT_HALTED, STK_STAT_HALT_CAUSE, STK_STAT_MC_IEN, STK_STAT_MC_PRIV, STK_STAT_EIEN, STK_STAT_EPRIV, STK_STAT_MC_ACTIVE, STK_STAT_IEN, STK_STAT_PRIV]),
   (STK_PC, [STK_PC_ADDR]),
   (STK_EPC, [STK_EPC_ADDR]),
   (STK_VEC, [STK_VEC_ADDR]),
   (STK_MCVEC, [STK_MCVEC_ADDR]),
   (STK_MC_RESUME, [STK_MC_RESUME_ADDR]),
   (STK_CAUSE, [STK_CAUSE_INT, STK_CAUSE_NUM, STK_CAUSE_CODE]),
   (STK_IE, [STK_IE_EN]),
   (STK_MC_DONE, [STK_MC_DONE_COUNT]),
   (STK_UWIN_BASE, [STK_UWIN_BASE_SOFS]),
   (STK_UWIN_LIMIT, [STK_UWIN_LIMIT_SOFS]),
   (STK_IRQ_PEND, [STK_IRQ_PEND_PEND_SA, STK_IRQ_PEND_PEND]),
   (STK_SWI, [STK_SWI_SET]),
   (STK_CNT_CTL, [STK_CNT_CTL_CLR]),
   (STK_CR_BASE, [STK_CR_BASE_BASE]),
   (STK_CR_CFG, [STK_CR_CFG_EN, STK_CR_CFG_LOG2]),
   (STK_CR_TAIL, [STK_CR_TAIL_INDEX]),
   (STK_CR_HEAD, [STK_CR_HEAD_INDEX]),
   (STK_RX_BASE, [STK_RX_BASE_BASE])]
/-- Registers of the STK_ block. -/
def regsSTK1 : List (Reg × List Fld) :=
  [(STK_RX_CFG, [STK_RX_CFG_EN, STK_RX_CFG_SLOT, STK_RX_CFG_LOG2]),
   (STK_RX_HEAD, [STK_RX_HEAD_INDEX]),
   (STK_RX_TAIL, [STK_RX_TAIL_INDEX])]
/-- Registers of the STK_ block. -/
def regsSTK : List (Reg × List Fld) := regsSTK0 ++ regsSTK1
/-- Registers of the UC_ block. -/
def regsUC : List (Reg × List Fld) :=
  [(UC_VER, [UC_VER_BASE, UC_VER_LEVEL]),
   (UC_CTL, [UC_CTL_LOCK, UC_CTL_TRAP_ON, UC_CTL_LOAD_GO]),
   (UC_STAT, [UC_STAT_LOADED, UC_STAT_BUSY, UC_STAT_PAR, UC_STAT_PAR_SA, UC_STAT_LOAD_EV, UC_STAT_LOAD_EV_SA, UC_STAT_RESULT]),
   (UC_LOAD_ADDR, [UC_LOAD_ADDR_SOFS]),
   (UC_LOAD_LEN, [UC_LOAD_LEN_BYTES]),
   (UC_ERR, [UC_ERR_STORE, UC_ERR_CORE, UC_ERR_KIND, UC_ERR_EXC_LOST, UC_ERR_ADDR]),
   (UC_OTP, [UC_OTP_REVOKED, UC_OTP_MIN_LEVEL]),
   (UC_PADDR, [UC_PADDR_AUTO_INC, UC_PADDR_ADDR]),
   (UC_PDATA, [UC_PDATA_DATA]),
   (UC_CNT_CTL, [UC_CNT_CTL_CLR]),
   (UC_TRAP, [UC_TRAP_EN, UC_TRAP_P, UC_TRAP_FROM, UC_TRAP_TO])]
/-- Registers of the JOR_ block. -/
def regsJOR : List (Reg × List Fld) :=
  [(JOR_RING_STAT, [JOR_RING_STAT_BREAK_EV, JOR_RING_STAT_BREAK_EV_SA, JOR_RING_STAT_NOADDR, JOR_RING_STAT_NOADDR_SA, JOR_RING_STAT_BRK_ADDR, JOR_RING_STAT_BRK_RX, JOR_RING_STAT_ADDRESSED, JOR_RING_STAT_ADDR, JOR_RING_STAT_STATE]),
   (JOR_MSG, [JOR_MSG_NEXT_MSEQ, JOR_MSG_QUEUED]),
   (JOR_MSG_ACK, [JOR_MSG_ACK_MSEQ]),
   (JOR_CNT_CTL, [JOR_CNT_CTL_CLR]),
   (JOR_SEM_HELD, [JOR_SEM_HELD_HELD]),
   (JOR_SEM_FREE, [JOR_SEM_FREE_GO, JOR_SEM_FREE_NUM]),
   (JOR_SEM_CFG, [JOR_SEM_CFG_TMO_MS]),
   (JOR_SEM_OWN, [JOR_SEM_OWN_OWN]),
   (JOR_SEM_EV, [JOR_SEM_EV_LOST, JOR_SEM_EV_LOST_SA, JOR_SEM_EV_FORCED, JOR_SEM_EV_FORCED_SA])]
/-- Registers of the BOOT_ block. -/
def regsBOOT : List (Reg × List Fld) :=
  [(BOOT_STAT, [BOOT_STAT_TEST, BOOT_STAT_FW_SLOT, BOOT_STAT_ERR, BOOT_STAT_STAGE]),
   (BOOT_RST, [BOOT_RST_ATTEMPT, BOOT_RST_CAUSE]),
   (BOOT_CTL, [BOOT_CTL_SWRST, BOOT_CTL_HOSTLOAD, BOOT_CTL_WDOG_KICK, BOOT_CTL_KEY]),
   (BOOT_WDOG, [BOOT_WDOG_MS]),
   (BOOT_HOST_ADDR, [BOOT_HOST_ADDR_VALUE]),
   (BOOT_HOST_LEN, [BOOT_HOST_LEN_VALUE]),
   (BOOT_FLASH, [BOOT_FLASH_SFDP_OK, BOOT_FLASH_MODE, BOOT_FLASH_VALID1, BOOT_FLASH_VALID0, BOOT_FLASH_SIZE_LOG2]),
   (BOOT_FW_SEQ, [BOOT_FW_SEQ_SEQ]),
   (BOOT_OTP, [BOOT_OTP_FW_REVOKED, BOOT_OTP_MIN_FW]),
   (BOOT_FL_OFS, [BOOT_FL_OFS_OFS]),
   (BOOT_FL_MEM_LO, [BOOT_FL_MEM_LO_ADDR]),
   (BOOT_FL_MEM_HI, [BOOT_FL_MEM_HI_ADDR]),
   (BOOT_FL_LEN, [BOOT_FL_LEN_LEN]),
   (BOOT_FL_CTL, [BOOT_FL_CTL_GO, BOOT_FL_CTL_BUSY, BOOT_FL_CTL_OP, BOOT_FL_CTL_RESULT])]
/-- Registers of the FLT_ block. -/
def regsFLT : List (Reg × List Fld) :=
  [(FLT_STAT, [FLT_STAT_ACK_REFUSED, FLT_STAT_ACK_REFUSED_SA, FLT_STAT_SAFE_EV, FLT_STAT_SAFE_EV_SA, FLT_STAT_EXIT_REFUSED, FLT_STAT_EXIT_REFUSED_SA, FLT_STAT_SAFE]),
   (FLT_SUM, [FLT_SUM_LIVE, FLT_SUM_OPEN]),
   (FLT_SAFE_CTL, [FLT_SAFE_CTL_EXIT, FLT_SAFE_CTL_ENTER]),
   (FLT_SAFE_INFO, [FLT_SAFE_INFO_SW, FLT_SAFE_INFO_CLASS, FLT_SAFE_INFO_CAUSE]),
   (FLT_INJ, [FLT_INJ_GO, FLT_INJ_LEVEL, FLT_INJ_CLASS, FLT_INJ_CAUSE]),
   (FLT_INJ_MEM, [FLT_INJ_MEM_ARM, FLT_INJ_MEM_TARGET, FLT_INJ_MEM_FLIPS, FLT_INJ_MEM_CHUNK, FLT_INJ_MEM_INDEX]),
   (FLT_CNT_CTL, [FLT_CNT_CTL_CLR]),
   (FLT_REACT, [FLT_REACT_L3, FLT_REACT_L2, FLT_REACT_L1, FLT_REACT_L0]),
   (FLT_REC_STAT, [FLT_REC_STAT_VALID, FLT_REC_STAT_LIVE, FLT_REC_STAT_ESC, FLT_REC_STAT_INJ, FLT_REC_STAT_SAFED, FLT_REC_STAT_LEVEL, FLT_REC_STAT_FIRST_LEVEL, FLT_REC_STAT_COUNT, FLT_REC_STAT_CAUSE, FLT_REC_STAT_LAST_CAUSE]),
   (FLT_REC_INFO, [FLT_REC_INFO_LAST_INFO, FLT_REC_INFO_INFO]),
   (FLT_REC_NT_HI, [FLT_REC_NT_HI_SEC_HI]),
   (FLT_REC_NT_MID, [FLT_REC_NT_MID_SEC_LO]),
   (FLT_REC_NT_LO, [FLT_REC_NT_LO_NS]),
   (FLT_REC_CTL, [FLT_REC_CTL_ACK])]
/-- 48-bit counters of the LANE_ block. -/
def cntsLANE : List Cnt := [C_LANE_PRBS_ERR, C_LANE_FEC_CORR, C_LANE_FEC_UNCORR, C_LANE_FEC_SYM]
/-- 48-bit counters of the MAC_ block. -/
def cntsMAC : List Cnt := [C_RX_FRAMES, C_RX_BYTES, C_RX_FCS_ERR, C_RX_RUNT, C_RX_OVERSIZE, C_RX_PAUSE, C_RX_PFC, C_RX_CTRL_OTHER, C_TX_FRAMES, C_TX_BYTES, C_TX_UNDERRUN, C_TX_STOMP, C_TX_ABORT, C_TX_FC, C_CT_RISES, C_LPI_ENTRIES, C_RX_HELD_DROP]
/-- 48-bit counters of the TRK_ block. -/
def cntsTRK : List Cnt := [C_BIP_ERR, C_LOF_ENTRIES, C_ERR_BLK]
/-- 48-bit counters of the PRS_ block. -/
def cntsPRS : List Cnt := [C_PRS_ERR_SHORT, C_PRS_ERR_WINDOW, C_PRS_ERR_DEPTH, C_PRS_ERR_REJECT, C_PRS_SLOT_DROP, C_PRS_RECIRC_DROP]
/-- 48-bit counters of the STG_ block. -/
def cntsSTG : List Cnt := [C_STG_DUP_HIT, C_STG_WR_REFUSED, C_STG_ACT_RANGE]
/-- 48-bit counters of the GEN_ block. -/
def cntsGEN : List Cnt := [C_GEN_STALE_DROP, C_GEN_WR_REFUSED]
/-- 48-bit counters of the BUF_ block. -/
def cntsBUF : List Cnt := [C_BUF_INNER_CORR, C_BUF_OUTER_CORR, C_BUF_UNCORR, C_BUF_UNC_DROP, C_BUF_UNC_STOMP, C_BUF_WQ_DROP, C_BUF_RECIRC_OVER]
/-- 48-bit counters of the POOL_ block. -/
def cntsPOOL : List Cnt := [C_POOL_GRANT, C_POOL_FALLBACK, C_POOL_REFUSED, C_POOL_BAD_FREE]
/-- 48-bit counters of the TM_ block. -/
def cntsTM : List Cnt := [C_TM_XDROP, C_TM_Q_ENQ, C_TM_Q_ADMIT_DROP, C_TM_Q_FLUSH, C_TM_Q_RES_EXP, C_TM_MC_RES_FULL, C_TM_MC_EMPTY]
/-- 48-bit counters of the TIME_ block. -/
def cntsTIME : List Cnt := [C_TIME_SKIP, C_TIME_TSQ_OVF]
/-- 48-bit counters of the HOB_ block. -/
def cntsHOB : List Cnt := [C_HOB_STEPS, C_HOB_DUP, C_HOB_AHEAD, C_HOB_BADHDR, C_HOB_BADCRC, C_HOB_CTX_DROP, C_HOB_INTAKE_DROP, C_HOB_RESEND, C_HOB_EMIT_DROP, C_HOB_POOL_WAIT, C_HOB_ABORTS]
/-- 48-bit counters of the PWR_ block. -/
def cntsPWR : List Cnt := [C_PWR_OVER_EPOCHS, C_PWR_DEFER, C_PWR_DEFER_TMO, C_PWR_HINT_LATE]
/-- 48-bit counters of the DOM_ block. -/
def cntsDOM : List Cnt := [C_DOM_HELLO_TX, C_DOM_HELLO_RX, C_DOM_BAD, C_DOM_QRX_DROP, C_DOM_Q_ENTRIES]
/-- 48-bit counters of the TLM_ block. -/
def cntsTLM : List Cnt := [C_TLM_REC, C_TLM_SHIM_FULL, C_TLM_REC_LOST, C_TLM_PC_SENT, C_TLM_PC_DROP]
/-- 48-bit counters of the STK_ block. -/
def cntsSTK : List Cnt := [C_STK_MEM_CORR, C_STK_CR_DUP0, C_STK_CR_DUP1, C_STK_RX_DROP, C_STK_SEND_DROP]
/-- 48-bit counters of the UC_ block. -/
def cntsUC : List Cnt := [C_UC_PAR_ERR]
/-- 48-bit counters of the JOR_ block. -/
def cntsJOR : List Cnt := [C_JOR_RX_FRAMES, C_JOR_HCRC_ERR, C_JOR_CRC_ERR, C_JOR_DUP, C_JOR_BUSY, C_JOR_MSG_DROP]
/-- 48-bit counters of the FLT_ block. -/
def cntsFLT : List Cnt := [C_FLT_TOTAL]
/-- 48-bit counters of the PMC_ block. -/
def cntsPMC : List Cnt := [C_PMC_CNT, C_PMC_SCNT]
/-- The registers of the block that an address falls in (R438). -/
def blockRegs (a : Nat) : List (Reg × List Fld) :=
  match a / 0x400000 with
  | 0 => regsCHIP
  | 1 => regsLANE
  | 2 => regsMAC
  | 3 => regsTRK
  | 4 => regsPRS
  | 5 => regsSTG
  | 6 => regsGEN
  | 7 => regsBUF
  | 8 => regsPOOL
  | 9 => regsTM
  | 10 => regsTIME
  | 11 => regsHOB
  | 12 => regsPWR
  | 13 => regsDOM
  | 14 => regsTLM
  | 15 => regsPMC
  | 16 => regsSTK
  | 17 => regsUC
  | 18 => regsJOR
  | 19 => regsFLT
  | 20 => regsBOOT
  | _ => []
/-- The 48-bit counters of the block that an address falls in. -/
def blockCnts (a : Nat) : List Cnt :=
  match a / 0x400000 with
  | 1 => cntsLANE
  | 2 => cntsMAC
  | 3 => cntsTRK
  | 4 => cntsPRS
  | 5 => cntsSTG
  | 6 => cntsGEN
  | 7 => cntsBUF
  | 8 => cntsPOOL
  | 9 => cntsTM
  | 10 => cntsTIME
  | 11 => cntsHOB
  | 12 => cntsPWR
  | 13 => cntsDOM
  | 14 => cntsTLM
  | 15 => cntsPMC
  | 16 => cntsSTK
  | 17 => cntsUC
  | 18 => cntsJOR
  | 19 => cntsFLT
  | _ => []

end Sys2Proof.Machine
end

