-- ==== Sys2Proof/Machine/Tab.lean ====
section
/-! DEFINITION. Sparse tables: the one form in which the model keeps everything that is addressed by a number (memory
bytes, registers, counters, table rows, frames).  A table is a list of (key, value) pairs with keys strictly rising and
no entry equal to the value that an unlisted key holds, so that equal contents are equal lists. -/

namespace Sys2Proof.Machine

/-- A sparse table; an unlisted key holds `default`. -/
abbrev Tab (α : Type) := List (Nat × α)

section
variable {α : Type} [Inhabited α]

/-- What key `k` holds. -/
def Tab.get : Tab α → Nat → α
  | [], _ => default
  | (k', v) :: t, k => if k' = k then v else Tab.get t k

/-- The table without key `k`. -/
def Tab.erase : Tab α → Nat → Tab α
  | [], _ => []
  | (k', v) :: t, k => if k' = k then Tab.erase t k else (k', v) :: Tab.erase t k

/-- Put an entry before the first larger key. -/
def Tab.insert : Tab α → Nat → α → Tab α
  | [], k, v => [(k, v)]
  | (k', v') :: t, k, v => if k < k' then (k, v) :: (k', v') :: t else (k', v') :: Tab.insert t k v

/-- Make key `k` hold `v`, keeping the canonical form. -/
def Tab.set [DecidableEq α] (t : Tab α) (k : Nat) (v : α) : Tab α :=
  if v = default then t.erase k else (t.erase k).insert k v

/-- Change what key `k` holds. -/
def Tab.upd [DecidableEq α] (t : Tab α) (k : Nat) (f : α → α) : Tab α :=
  t.set k (f (t.get k))

/-- The canonical form: keys strictly rising, no entry equal to the unlisted value. -/
def Tab.wf [DecidableEq α] : Tab α → Bool
  | [] => true
  | (k, v) :: t => decide (v ≠ default) && t.all (fun p => decide (k < p.1)) && Tab.wf t

/-- Set several keys, in order. -/
def Tab.sets [DecidableEq α] (t : Tab α) : List (Nat × α) → Tab α
  | [] => t
  | (k, v) :: r => Tab.sets (t.set k v) r

/-- Keep only the entries whose key and value meet `p`. -/
def Tab.keep (t : Tab α) (p : Nat → α → Bool) : Tab α := t.filter (fun e => p e.1 e.2)

/-- Drop every entry whose key lies in [lo, lo + n). -/
def Tab.clearRange (t : Tab α) (lo n : Nat) : Tab α := t.keep (fun k _ => k < lo || lo + n ≤ k)

end

end Sys2Proof.Machine
end

