-- ==== Sys2Proof/Machine/State.lean ====
section
/-! DEFINITION. The state of the chip: plain data, every piece of state the spec names.  Software-visible registers have one
home, the table `csr` (and the generation slots for configuration registers); what a block holds beside its registers stands in
that block's structure.  Fields of a block's structure that the spec does not name are the model's own bookkeeping of things the
spec describes in words (a wait in progress, a latched access). -/

namespace Sys2Proof.Machine

/-! ### Generations (R190 to R211) -/

/-- One entry of the multicast group table (R249, R267): the port map as a 512-bit number and the PRUNE flag. -/
structure McGroup where
  map : Nat := 0
  prune : Bool := false
deriving DecidableEq, Repr, Inhabited

/-- One generation slot: a copy of everything that R190 puts under a generation.  `cfg` holds the configuration
registers by chip address, each as its difference (exclusive or) from its reset value; `keymap` the key maps, `act` the action
memories, `prog` the parser programs, `mc` the multicast groups. -/
structure GenSlot where
  cfg : Tab Word := []
  keymap : Tab Word := []
  act : Tab Word := []
  prog : Tab Word := []
  mc : Tab McGroup := []
deriving DecidableEq, Repr, Inhabited

/-- A commit request (R199): number, commit NT in whole ns, source, NOW and ANYNUM, and the bank that CHECK played (2: none; R452). -/
structure CommitReq where
  num : Nat := 0
  tc : Nat := 0
  src : Nat := 0
  now : Bool := false
  anynum : Bool := false
  bank : Nat := 2
deriving DecidableEq, Repr, Inhabited

/-- What the commit machinery holds beside the GEN_ registers: the request in CHECK or ARMED, the held request (R207), the
cc at which CHECK ended, the digest of the checked generation (R200), whether a commit has taken effect since
reset (R192), t_s of the RETIRING generation in units of 2^-40 ns (R198) and whether its sweep has run, and the cc at which SYNC
started (R206). -/
structure GenState where
  req : Option CommitReq := none
  held : Option CommitReq := none
  checkEnd : Nat := 0
  newDigest : Nat := 0
  committed : Bool := false
  ts : Nat := 0
  swept : Bool := false
  syncStart : Nat := 0
deriving DecidableEq, Repr, Inhabited

/-! ### Tables, counters and meters of the stages (R148 to R159, R178, R179) -/

/-- A ternary entry (R153, R155): key and mask of 160 bits and the presence bits. -/
structure TernEntry where
  key : Nat := 0
  mask : Nat := 0
  p : Nat := 0
deriving DecidableEq, Repr, Inhabited

/-- A counter entry of a stage (R178). -/
structure CountEntry where
  frames : Nat := 0
  bytes : Nat := 0
deriving DecidableEq, Repr, Inhabited

/-- A two-rate three-colour meter (R179, R189): its four configuration words, its token levels in units of 2^-40 of a token
times the rate unit kept exactly as integers (see `Ops`), and the NT of its last refill. -/
structure Meter where
  cfg0 : Word := 0
  cfg1 : Word := 0
  cfg2 : Word := 0
  cfg3 : Word := 0
  c : Int := 0
  p : Int := 0
  last : Nat := 0
deriving DecidableEq, Repr, Inhabited

/-- A port access in progress (R157): what was latched in the cc of its GO. -/
structure Access where
  go : Nat := 0
  read : Bool := false
  bcast : Bool := false
  active : Bool := false
  space : Nat := 0
  stage : Nat := 0
  addr : Nat := 0
  data : List Word := []
  player : Bool := false
  done : Bool := false
deriving DecidableEq, Repr, Inhabited

/-- Table and action memories shared by both generations, and the access ports' latches.  `sram` holds 128-bit rows and
`tern` ternary entries, `undo` and `undoTern` what stood in those written in this cc, newest first (R156); `drops` the drop-reason counters (R185) by 256 s + reason; `countsNew` and
`dropsNew` what they have counted in this cc (R189); `repinWait` the ports whose re-pin waits, `repinPort` and `repinEnd` the one
that runs and when it completes, `repinNone` whether a group of it had no survivor (R159). -/
structure Tables where
  sram : Tab Nat := []
  tern : Tab TernEntry := []
  undo : List (Nat × Nat) := []
  undoTern : List (Nat × TernEntry) := []
  counts : Tab CountEntry := []
  meters : Tab Meter := []
  drops : Tab Nat := []
  countsNew : Tab CountEntry := []
  dropsNew : Tab Nat := []
  acc : Tab Access := []
  actAcc : Tab Access := []
  mcAcc : Access := {}
  repinWait : List Nat := []
  repinEnd : Nat := 0
  repinPort : Option Nat := none
  repinNone : Bool := false
deriving DecidableEq, Repr, Inhabited

/-! ### Frames and copies (R134 to R146, R183, R184, R266) -/

/-- A start block that waits for a header slot (R136): the frame's bytes in the order of their arrival, of which the lead is held (R134),
and the NT of readiness. -/
structure StartBlock where
  bytes : List Byte := []
  ready : Nat := 0
deriving DecidableEq, Repr, Inhabited

/-- One entry of an edit list (R175): a push of `len` bytes from record byte `src`, or a pop, at byte `pos`. -/
structure Edit where
  push : Bool := false
  pos : Nat := 0
  len : Nat := 0
  src : Nat := 0
deriving DecidableEq, Repr, Inhabited

/-- One extraction that the parser made (R140): `len` bytes of the frame at `pos` copied to record byte `dst`. -/
structure Extract where
  dst : Nat := 0
  pos : Nat := 0
  len : Nat := 0
deriving DecidableEq, Repr, Inhabited

/-- How a received frame ended (R98). -/
inductive Fate where
  | open | good | runt | oversize | badFcs | cut
deriving DecidableEq, Repr, Inhabited

/-- Where a frame is between its t0 and its copies: in the ingress stages, asking for a block (R226), on the return lane (R139), at a
Hob engine (R301), or past its final enqueue. -/
inductive FrameStage where
  | none | ingress | asking | returning | hob | done
deriving DecidableEq, Repr, Inhabited

/-- A frame of the chip: from t0 (R136) to its final enqueue, and on until its last byte has arrived and its cells are with the writer
queue.  `wire` are the bytes that the port receives of it, up to MAX_LEN, over which the FCS is checked, and `tooLong` tells whether there
were more (R98); `len` of them have crossed the MAC plane (R27), and `flow` is what the line has carried since t0 in units of 1/1,200 byte;
`bytes` are those that have crossed, as the last deparse left them; `whole`: the frame ends within the lead; `pos` the header slot
(4 s + position; R135); `drop` a drop reason that the chip set (R177, R179, R188); `lag` the LAG lambda of R272; `want`, `pool`, `need`, `askCc`, `steps` the
block request (R224, R226); `writer` the writer queue of its cells and `written` the cells already passed to it (R217); `owed` what DWRR
has charged for copies that are gone, to be settled with L (R255): port, queue, charge and TRUNC. -/
structure Frame where
  stage : FrameStage := .none
  inPort : Nat := 0
  kct : Nat := 0
  t0cc : Nat := 0
  t0 : Nat := 0
  arrival : Nat := 0
  lag : Int := 0
  gen : Nat := 0
  slot : Nat := 0
  control : Bool := false
  hello : Bool := false
  pos : Nat := 0
  bytes : List Byte := []
  flow : Nat := 0
  wire : List Byte := []
  tooLong : Bool := false
  whole : Bool := false
  fate : Fate := .open
  len : Nat := 0
  record : List Byte := []
  extracts : List Extract := []
  edits : List Edit := []
  colour : Nat := 0
  tallies : List Nat := []
  debits : List (Nat × Nat) := []
  drop : Option Nat := none
  quarantined : Bool := false
  pass : Nat := 0
  block : Option Nat := none
  tag : Nat := 0
  epoch : Nat := 0
  want : Nat := 0
  pool : Nat := 0
  need : Nat := 0
  askCc : Nat := 0
  steps : Nat := 0
  writer : Nat := 0
  written : Nat := 0
  owed : List (Nat × Nat × Nat × Nat) := []
  digest : Option Nat := none
deriving DecidableEq, Repr, Inhabited

/-- The states of a copy (R266); `none` marks a copy number not in use. -/
inductive CopyState where
  | none | residue | queued | dequeued | piped | sending
deriving DecidableEq, Repr, Inhabited

/-- A copy's descriptor and progress (R242, R249, R266).  `region` is region C as it crossed; `steps`, `term` and `defer` the terms f, c and r
of R39; `rin` the ingress rate and `saf` store-and-forward (R28); `len` L at the queue, valid when `lenKnown`; `ended`: the frame's end has
passed the ingress MAC plane; `bad`: the copy is to end with an inverted FCS, and `broken` that a later cell of it was uncorrectable before
its start block left (R221); `charged` the DWRR charge taken without a known L; `asked` and `got` the cells requested and delivered;
`start` the cc S; `out` the head of the frame as the egress deparser left it, `behind` what stamping has written over the bytes behind it (R277); `hop` its hop record and `sel` whether R357 selected it. -/
structure Copy where
  state : CopyState := .none
  frame : Nat := 0
  port : Nat := 0
  queue : Nat := 0
  gen : Nat := 0
  slot : Nat := 0
  region : List Byte := []
  block : Option Nat := none
  tag : Nat := 0
  epoch : Nat := 0
  charge : Nat := 0
  inPort : Nat := 0
  prio : Nat := 0
  lossless : Bool := false
  t0cc : Nat := 0
  kct : Nat := 0
  arrival : Int := 0
  steps : Nat := 0
  term : Nat := 0
  defer : Nat := 0
  pass : Nat := 0
  rin : Nat := 0
  saf : Bool := false
  len : Nat := 0
  lenKnown : Bool := false
  ended : Bool := false
  bad : Bool := false
  broken : Bool := false
  charged : Nat := 0
  asked : Nat := 0
  got : Tab (List Byte) := []
  enq : Nat := 0
  deqCc : Nat := 0
  start : Nat := 0
  out : List Byte := []
  behind : List Byte := []
  fromStk : Bool := false
  fromPort : Bool := false
  trunkIn : Bool := false
  late : Bool := false
  metered : Bool := false
  trunc : Nat := 0
  stamp : Option Nat := none
  tref : Nat := 0
  depthAtEnq : Nat := 0
  tallies : List Nat := []
  debits : List (Nat × Nat) := []
  hdrs : List (Nat × Nat) := []
  hop : List Byte := []
  sel : Bool := false
deriving DecidableEq, Repr, Inhabited

/-- A cell still to be written, held in a writer queue (R217). -/
structure CellWrite where
  cell : Nat := 0
  data : List Byte := []
deriving DecidableEq, Repr, Inhabited

/-- A cell read waiting for its stripe (R40): the reader (slices 0 to 31, engines 32 to 63), the cell, and for whom it is:
cell `idx` of a copy (`ctx` then holds the cc in which it was asked for), or of the operand of a context, step and child, or of the stage
of a Joring ring (R428). -/
structure CellRead where
  reader : Nat := 0
  cell : Nat := 0
  copy : Option Nat := none
  idx : Nat := 0
  ctx : Nat := 0
  step : Nat := 0
  child : Nat := 0
  ring : Option Nat := none
deriving DecidableEq, Repr, Inhabited

/-- A cell read that a stripe has granted: the cc in which the cell reaches its reader (R41, R217), its 256 bytes, and whether it is
uncorrectable. -/
structure Delivery where
  due : Nat := 0
  read : CellRead := {}
  data : List Byte := []
  bad : Bool := false
deriving DecidableEq, Repr, Inhabited

/-- A cell in its stripe's banks: the 32 bytes of each of ten chunks (R215), and the ten inner check bits of each chunk (R218). -/
structure StoredCell where
  bytes : List Byte := []
  check : List Nat := []
deriving DecidableEq, Repr, Inhabited

/-- A release of one reference (R231): the block, the tag that it carries, its requester, and the REBUILD epoch of its reference. -/
structure Release where
  block : Nat := 0
  tag : Nat := 0
  req : Nat := 0
  epoch : Nat := 0
deriving DecidableEq, Repr, Inhabited

/-- A block or a chain in use (R229, R233): its reference count, its owner tag, its cells in order (for a chain these are the entries of
the link RAM: each cell's next) and its pool. -/
structure Block where
  count : Nat := 0
  tag : Nat := 0
  cells : List Nat := []
  pool : Nat := 0
deriving DecidableEq, Repr, Inhabited

/-- Frames, copies and the shared buffer.  `cells` holds the cells as the banks store them, and `flips` by 16 c + i the bits of chunk i of
cell c that have flipped there since (bits 265 to 256 are its check bits); `releases` the releases of this cc, which are applied together at its
end (R231), and `freed` the blocks that became free then (address, pool, cells), which are free from the next (R228); `granted` the cells granted in this cc; `epoch`
counts REBUILDs and separates the references taken before one (R235); `carve` the carving in force (R223); `stateStart` the cc at
which CARVING began or from which the rebuild of REBUILDING runs; `arriving` the cells on their way to their readers; `corrections` those of the current
second, and `corrRaised` whether they have raised MEMC (R220). -/
structure Fwd where
  wait : Tab (List StartBlock) := []
  slotUsed : List Nat := []
  returnUsed : List Nat := []
  frames : Tab Frame := []
  nextFrame : Nat := 1
  copies : Tab Copy := []
  nextCopy : Nat := 1
  cells : Tab StoredCell := []
  flips : Tab Nat := []
  writers : Tab (List CellWrite) := []
  reads : List CellRead := []
  arriving : List Delivery := []
  releases : List Release := []
  blocks : Tab Block := []
  freed : List (Nat × Nat × Nat) := []
  granted : Nat := 0
  epoch : Nat := 0
  carve : List Nat := []
  stateStart : Nat := 0
  corrections : Nat := 0
  corrRaised : Bool := false
  stripeW : List Nat := []
  stripeR : List Nat := []
deriving DecidableEq, Repr, Inhabited

/-! ### The traffic manager (R239 to R266) -/

/-- A residue entry (R250): the frame, the NT of its final enqueue and its pending copies. -/
structure Residue where
  frame : Nat := 0
  nt : Nat := 0
  pend : List Nat := []
deriving DecidableEq, Repr, Inhabited

/-- A latched or operational gate program (R259): EN, LEN, BASE in whole ns and CYCLE. -/
structure GateList where
  en : Bool := false
  len : Nat := 0
  base : Nat := 0
  cycle : Nat := 0
deriving DecidableEq, Repr, Inhabited

/-- Per-port traffic manager state beside its registers: operational and latched gate lists, t_sw, the end of a running flush,
and the DWRR pointers with their "credited in this visit" marks, by level. -/
structure TmPort where
  oper : GateList := {}
  latched : GateList := {}
  tsw : Nat := 0
  flushEnd : Nat := 0
  ptr : Tab Nat := []
  credited : Tab Bool := []
  lastDequeue : Nat := 0
deriving DecidableEq, Repr, Inhabited

/-- A charge that was let go in this cc (R246): of a queue, and of an ingress priority when `lossless`. -/
structure Charge where
  port : Nat := 0
  queue : Nat := 0
  cells : Nat := 0
  lossless : Bool := false
  inPort : Nat := 0
  prio : Nat := 0
deriving DecidableEq, Repr, Inhabited

/-- The traffic manager: the queues (key 12 p + q, copies oldest first), the residue table oldest first, per-port state; of this cc, the queues
whose residue was judged (`judged`), those of them that admitted a copy (`admitted`; R251), the charges let go (R246), the queues of the
copies that expired, and of those that a flush took out of a queue or residue the queue, the generation slot and whether it was the flush of
a drain (R264); and the
held queues of a drain (R60) by key 12 p + q, with t_c, the NT at which the window of the held queues ends, whether they have
been flushed, and whether all were empty when the cc began. -/
structure Tm where
  queues : Tab (List Nat) := []
  residue : List Residue := []
  port : Tab TmPort := []
  judged : List Nat := []
  admitted : List Nat := []
  letGo : List Charge := []
  expired : List Nat := []
  flushGone : List (Nat × Nat × Bool) := []
  held : List Nat := []
  drainFrom : Nat := 0
  drainTx : Nat := 0
  flushed : Bool := false
  heldEmpty : Bool := false
deriving DecidableEq, Repr, Inhabited

/-! ### The MAC (R94 to R109) -/

/-- A frame the chip generates itself (R104, R345, R398): its bytes without FCS, or for flow control (`fc`) the PFC vector and the
times of an Annex 31B pause or PFC frame, and the cc in which it was made. -/
structure GenFrame where
  bytes : List Byte := []
  fc : Bool := false
  pfc : Bool := false
  vector : Nat := 0
  times : List Nat := []
  made : Nat := 0
  direct : Bool := false
  hello : Bool := false
  stamp : Option Nat := none
  tref : Nat := 0
deriving DecidableEq, Repr, Inhabited

/-- A received pause or PFC frame waiting for its decode cc (R103). -/
structure FcDecode where
  at_ : Nat := 0
  pfc : Bool := false
  vector : Nat := 0
  times : List Nat := []
deriving DecidableEq, Repr, Inhabited

/-- Per-port MAC state beside its registers: pause timers as the cc at which they expire (0: not running), received flow control to
decode, generated frames in order, the cc from which the scheduler may plan the next frame and the cc at which the line is free
(R38), the copy on the line whose end is not known yet, the generated frame on the line with the cc in which it started, since which cc the
conditions of transmit LPI have held (R105), the LPI exit request and
whether the port is in transmit LPI, since when a remote fault is received and whether it took the port down, whether the reconciliation sublayer and the
trunk layer receive a local fault, whether an underrun was
charged in this second, and whether T_CUR fell at the boundary of this cc and from which value, the cc of the last flow-control frame, and the last frame put on the line. -/
structure MacPort where
  pauseEnd : Nat := 0
  pfcEnd : Tab Nat := []
  decode : List FcDecode := []
  gen : List GenFrame := []
  freeAt : Nat := 0
  lineEnd : Nat := 0
  openFrame : Option Nat := none
  genOut : Option (Nat × List Byte) := none
  idleFrom : Option Nat := none
  lpiExit : Option Nat := none
  asleep : Bool := false
  rfFrom : Option Nat := none
  rfDown : Bool := false
  rxFault : Bool := false
  trunkFault : Bool := false
  underrun : Bool := false
  fell : Option Nat := none
  fcLast : Nat := 0
  sent : List Byte := []
deriving DecidableEq, Repr, Inhabited

/-! ### Network time (R269 to R290) -/

/-- A submitted sample (R282): the cc at which it is processed, theta in 1/65,536 ns, and pd in 1/256 ns. -/
structure Sample where
  due : Nat := 0
  theta : Int := 0
  pd : Option Nat := none
deriving DecidableEq, Repr, Inhabited

/-- A timed output (R288, R289) as loaded at ARM: MODE, START, PERIOD and the clamped WIDTH in units of 2^-40 ns, QUAL and POL; the
index of the next leading edge, the NT at which a running pulse ends, whether STOP waits for that end, and the NT of an ARM that waits
for it. -/
structure Tout where
  mode : Nat := 0
  start : Nat := 0
  period : Nat := 0
  width : Nat := 0
  qual : Bool := false
  pol : Bool := false
  next : Nat := 0
  pulseEnd : Option Nat := none
  stopping : Bool := false
  rearm : Option Nat := none
deriving DecidableEq, Repr, Inhabited

/-- An entry of an edge FIFO (R290). -/
structure Edge where
  rise : Bool := false
  nt : Nat := 0
deriving DecidableEq, Repr, Inhabited

/-- One egress stamp queue (R278): its entries of five words, oldest first, and whether the next stored entry carries GAP. -/
structure StampQueue where
  entries : List (List Word) := []
  gap : Bool := false
deriving DecidableEq, Repr, Inhabited

/-- The time engine beside its registers.  `integ` is the integrator in 1/256 ppb; `pdAvg` the path average as (a, k) for
a / 16^k in 1/256 ns; `jump` a jump in units of 2^-40 ns that lands in the next cc; `secondDone` the last whole second that fired and `secondCc` the cc in which it did;
`epochSeen` the latest epoch that has begun and `epochCc` the cc in which it did (R53, R285);
`tinLast` when the last recorded edge of an input came, in units of 1/196,608 ns of CCLK time (0: none yet). -/
structure TimeState where
  integ : Int := 0
  pdAvg : Option (Int × Nat) := none
  lockCount : Nat := 0
  unlockCount : Nat := 0
  sample : Option Sample := none
  lastSampleCc : Option Nat := none
  lastSampleNt : Nat := 0
  holdFrom : Nat := 0
  freeAfterHold : Bool := false
  jump : Option Int := none
  secondDone : Nat := 0
  secondCc : Nat := 0
  epochSeen : Nat := 0
  epochCc : Nat := 0
  tout : Tab Tout := []
  tin : Tab (List Edge) := []
  tinLast : Tab Nat := []
  tsq : Tab StampQueue := []
deriving DecidableEq, Repr, Inhabited

/-! ### Stoker (R375 to R400) -/

/-- A pending exception of a core (R391): its cause and CODE. -/
structure StkExc where
  cause : Nat := 0
  code : Nat := 0
deriving DecidableEq, Repr, Inhabited

/-- One ID of a duplicate window (R395). -/
structure DupEntry where
  id : Nat := 0
  done : Bool := false
  status : Nat := 0
  result : Nat := 0
deriving DecidableEq, Repr, Inhabited

/-- A frame on its way to a receive ring (R399): IN_PORT or AUX port, L, T_rx in 1/65,536 ns, region C (punt copies) and the frame
bytes; for a punt copy the frame that is still arriving, until it has `ended`, and the reference that is released at the end. -/
structure RxFrame where
  aux : Bool := false
  inPort : Nat := 0
  len : Nat := 0
  trx : Int := 0
  region : List Byte := []
  bytes : List Byte := []
  frame : Nat := 0
  ended : Bool := false
  block : Nat := 0
  tag : Nat := 0
  epoch : Nat := 0
  slot : Nat := 0
deriving DecidableEq, Repr, Inhabited

/-- Stoker beside its registers: the general registers (key 32 k + r), a pending exception, a requested halt and a running
WAITI per core, the duplicate windows of the two command rings, oldest first, and of a SEND that has fallen back
to a larger pool the pool and the cc of its request and the slice it stands for (R226). -/
structure Stoker where
  regs : Tab (BitVec 64) := []
  exc : Tab (Option StkExc) := []
  haltReq : Tab Bool := []
  waiting : Tab Bool := []
  dup : Tab (List DupEntry) := []
  rx : Tab (List RxFrame) := []
  sending : Tab (Nat × Nat × Nat) := []
deriving DecidableEq, Repr, Inhabited

/-! ### Joring (R420 to R434) -/

/-- A message to the host (R433). -/
structure HostMsg where
  mseq : Nat := 0
  kind : Nat := 0
  core : Nat := 0
  code : Nat := 0
deriving DecidableEq, Repr, Inhabited

/-- A decided request in a ring's cache (R434): words 0 and 1, the ACK and the read data. -/
structure CacheEntry where
  w0 : BitVec 64 := 0
  w1 : BitVec 64 := 0
  ack : Nat := 0
  data : List Word := []
deriving DecidableEq, Repr, Inhabited

/-- One ring: queued messages, the cache (oldest first), the write queue (address and words still to write), the staged
BUF_MEM cell with its error mark, the cell a BUSY READ asked for, the cc from which the next word of the write queue goes, whether the input has been UP since reset, since which cc it
is out of UP and whether that has freed its semaphores (R431), and the words of the frame last sent on. -/
structure Ring where
  msgs : List HostMsg := []
  cache : List CacheEntry := []
  writes : List (Nat × List Word) := []
  stage : Option (Nat × List Byte × Bool) := none
  wanted : Option Nat := none
  writeAt : Nat := 0
  wasUp : Bool := false
  downFrom : Nat := 0
  timedOut : Bool := false
  tx : List (BitVec 64) := []
deriving DecidableEq, Repr, Inhabited

/-- The Joring link: both rings, and the semaphores' holders (0 free, 1 JA, 2 JB, 3 to 6 K0 to K3; R439). -/
structure Joring where
  ring : Tab Ring := []
  sem : Tab Nat := []
deriving DecidableEq, Repr, Inhabited

/-! ### Faults (R459 to R474) -/

/-- A detected fault that is not yet recorded (R461), with the reactions of its class in its cc (R467); `lift` marks the in-place raise of R337. -/
structure FaultEv where
  cls : Nat := 0
  level : Nat := 0
  code : Nat := 0
  info : Nat := 0
  inj : Bool := false
  lift : Bool := false
  react : Word := 0
  cc : Nat := 0
deriving DecidableEq, Repr, Inhabited

/-- An armed memory injection (R474). -/
structure MemArm where
  target : Nat := 0
  flips : Nat := 0
  chunk : Nat := 0
  index : Nat := 0
deriving DecidableEq, Repr, Inhabited

/-- The fault collector beside its registers: detected faults in order of detection, the classes of those of this cc, the cc at which the
safe-state command falls due, the reactions that registers written in this cc held before (R467), the live conditions of the classes with open
records at the start of the cc (R466), factory test state, and an armed injection. -/
structure Faults where
  pend : List FaultEv := []
  raised : List Nat := []
  safeDue : Option Nat := none
  oldReact : List (Nat × Word) := []
  liveAt : List (Nat × Bool) := []
  test : Bool := false
  arm : Option MemArm := none
deriving DecidableEq, Repr, Inhabited

/-! ### Microcode, boot and test access (R402 to R419, R441 to R458, R487) -/

/-- A core's microcode sequencer and the registers of its datapath (R402 to R409, R413): the micro-address at which it stands, which is the target
of a DISPATCH when `dispatched` and else an entry point; the micro-stack, latest first; the flags; LC0 to LC3; ICNT in sc; Y, MAR, MDR and the
CSR address and data; T0 to T7; what the unit last shows (busy, result, status bits, data); how the last access failed (bit 0 uncorrectable,
1 misaligned, 2 outside its space, 3 outside the user window); the macroinstruction word; and whether the traps are in force for the core. -/
structure MicroCore where
  addr : Nat := 0
  dispatched : Bool := false
  stack : List Nat := []
  z : Bool := false
  n : Bool := false
  c : Bool := false
  v : Bool := false
  lc : Tab Nat := []
  icnt : Nat := 0
  y : BitVec 64 := 0
  mar : BitVec 64 := 0
  mdr : BitVec 256 := 0
  csrAddr : BitVec 64 := 0
  csrData : BitVec 64 := 0
  temps : Tab (BitVec 64) := []
  unitBusy : Bool := false
  unitResult : Nat := 0
  unitStatus : Nat := 0
  unitData : BitVec 64 := 0
  access : Nat := 0
  word : BitVec 64 := 0
  traps : Bool := false
deriving DecidableEq, Repr, Inhabited

/-- The loadable part of the control store: micro patch RAM (32-bit words), nano patch RAM (192-bit words), and a load that runs:
the cc of its LOAD_GO, the S-offset and the length it took (R402, R416); `version` is the UC_VER of the loaded image.  UC_TRAPn are
registers.  `seq`: the sequencers of the four cores. -/
structure Microcode where
  micro : Tab Word := []
  nano : Tab Nat := []
  load : Option (Nat × Nat × Nat) := none
  version : Nat := 0
  seq : Tab MicroCore := []
deriving DecidableEq, Repr, Inhabited

/-- A transfer of the flash engine as started (R458): its OP, flash offset, memory address and length. -/
structure FlashOp where
  op : Nat := 0
  ofs : Nat := 0
  addr : Nat := 0
  len : Nat := 0
deriving DecidableEq, Repr, Inhabited

/-- Boot: the cc from which BOOT_WDOG counts and whether it has stopped (R450); how far the chip has come since reset (0 reset, 1
initialised, 2 the ROM has run); whether the ROM is in RECOVERY (R451); the transfer in progress; and the boot flash, each byte as its
difference (exclusive or) from `Config.flashByte`, which no reset changes. -/
structure Boot where
  wdogFrom : Nat := 0
  wdogOff : Bool := false
  phase : Nat := 0
  recovery : Bool := false
  transfer : Option FlashOp := none
  flash : Tab Byte := []
deriving DecidableEq, Repr, Inhabited

/-- The JTAG port (R487): the instruction in force (by its number in the model, see `Pins`), the boundary cells, and the bits that the
last scan shifted out. -/
structure Jtag where
  instr : Nat := 3
  cells : List Bool := []
  tdo : List Bool := []
deriving DecidableEq, Repr, Inhabited

/-! ### Domain membership (R343 to R356) -/

/-- A received hello that awaits the domain engine: T_rx in units of 1/65,536 ns, and its 64-byte body. -/
structure HelloRx where
  trx : Int := 0
  body : List Byte := []
deriving DecidableEq, Repr, Inhabited

/-- A domain link beside its registers: HSEQ of the next hello, the hello epoch last sent in, the NT of the last valid hello (or of
the entry into QUARANTINED) and its sender's PERIOD_US, whether a disagreeing hello and silence have raised DOMAIN since entry, and
hellos to be judged. -/
structure DomPort where
  hseq : Nat := 0
  sentEpoch : Nat := 0
  lastNt : Nat := 0
  period : Option Nat := none
  disagreed : Bool := false
  silent : Bool := false
  rx : List HelloRx := []
deriving DecidableEq, Repr, Inhabited

/-- The current and the previous value of a compared field, with the NT of the change (R350). -/
structure DomField where
  cur : Nat := 0
  prev : Nat := 0
  changed : Nat := 0
deriving DecidableEq, Repr, Inhabited

/-- The domain engine: its links, and the compared fields (0 domain ID, 1 chip ID, 2 generation, 3 digest, 4 microcode version, 5 mode,
6 servo state, 7 grandmaster). -/
structure Dom where
  port : Tab DomPort := []
  view : Tab DomField := []
deriving DecidableEq, Repr, Inhabited

/-! ### The clock axis (R54 to R56) -/

/-- A clock request that has not taken effect: the axis and Damper values asked for, and the first epoch that may apply it. -/
structure ClockReq where
  fixed : Bool := false
  damper : Nat := 0
  epoch : Nat := 0
deriving DecidableEq, Repr, Inhabited

/-! ### The Hob engines (R293 to R318) -/

/-- A contribution held for its step (R309): the child, its block (address, owner tag and REBUILD epoch), where its payload lies in the block,
its wire type and EPC, and the cells of it that the engine has read. -/
structure HobOperand where
  child : Nat := 0
  block : Nat := 0
  tag : Nat := 0
  epoch : Nat := 0
  off : Nat := 0
  len : Nat := 0
  wtype : Nat := 0
  epc : Nat := 0
  got : Tab (List Byte) := []
  freed : Bool := false
deriving DecidableEq, Repr, Inhabited

/-- The states of a step (R304) other than IDLE. -/
inductive HobPhase where
  | collect | combine | held | up | down | retained
deriving DecidableEq, Repr, Inhabited

/-- An open or retained step: its bitmap and contributions, its accumulator block once granted, per chunk of 64 elements how many
contributions are combined, the lanes and the hc from which an operation may use them (R294), the chunks converted and tiles transposed, the NT at which it was opened, the payload that it
sends with its wire type and EPC, and the NT of the next resend. -/
structure HobStep where
  num : Nat := 0
  phase : HobPhase := .collect
  bitmap : Nat := 0
  ops : List HobOperand := []
  acc : Option (Nat × Nat) := none
  taken : Tab Nat := []
  lanes : Tab (List Nat) := []
  ready : Tab Nat := []
  conv : List Nat := []
  tiles : Nat := 0
  entered : Nat := 0
  payload : List Byte := []
  wtype : Nat := 0
  epc : Nat := 0
  resendAt : Nat := 0
deriving DecidableEq, Repr, Inhabited

/-- Something for which a context waits for a block (R309, R310): a frame of a TYPE to a neighbour (0 the parent, 1 + i child i),
or, as kind 4, a step's accumulator block; the pool to be asked next, the first cc of the next request, and whether one was refused. -/
structure HobOut where
  kind : Nat := 0
  to_ : Nat := 0
  step : Nat := 0
  payload : List Byte := []
  epc : Nat := 0
  wtype : Nat := 0
  elems : Nat := 0
  cause : Nat := 0
  pool : Option Nat := none
  tryAt : Nat := 0
  refused : Bool := false
deriving DecidableEq, Repr, Inhabited

/-- A context (R297, R320): descriptor words 0 to 11, STATE, CAUSE, NEXT and STEPS_DONE, MISSING as an abort recorded it, the PACE last
received from each neighbour (0: none yet), its steps in ascending order, and what waits for blocks. -/
structure HobCtx where
  desc : List Word := []
  st : Nat := 0
  cause : Nat := 0
  next : Nat := 0
  done : Nat := 0
  missing : Nat := 0
  pace : Tab Nat := []
  steps : List HobStep := []
  out : List HobOut := []
deriving DecidableEq, Repr, Inhabited

/-- A frame in an intake queue or in passage (R301): the frame, its context, and the engine of its ingress slice. -/
structure HobIntake where
  frame : Nat := 0
  ctx : Nat := 0
  eng : Nat := 0
deriving DecidableEq, Repr, Inhabited

/-- The Hob engines: contexts, neighbour entries (words 0 to 30), frames taken in, in order, the access of the context port that is in
progress (its GO, CMD, INDEX and data), and of each engine in the current power epoch the issue requests and the issues with their energy in
pJ (R323, R326), as it is and, in thousandths, scaled by E_k; `hc` is the time on HCLK in twelfths of an hc, and `slots` the hc of each engine's
latest issues, newest first (R293). -/
structure HobState where
  ctx : Tab HobCtx := []
  nbr : Tab (List Word) := []
  intake : List HobIntake := []
  go : Nat := 0
  cmd : Nat := 0
  index : Nat := 0
  data : List Word := []
  requests : Tab Nat := []
  lived : Tab Bool := []
  issued : Tab Nat := []
  energy : Tab Nat := []
  scaled : Tab Nat := []
  hc : Nat := 0
  slots : Tab (List Nat) := []
deriving DecidableEq, Repr, Inhabited

/-! ### Lanes (R67 to R93) -/

/-- A lane beside its registers: the cc at which TRAIN_TMO of the attempt started (R79), the cc at which a back-off ends, whether
a training failure of the present run has raised LANE (R79), consecutive valid and invalid markers, SEQ and LANE_IDX of the last valid one
and whether its WIDTH was another than the port's (R71), the cc of the last refresh burst sent in Ember (R86), codewords received, and the
numbers of the uncorrectable ones among the last 1,024 (R81); the cc at which the pattern generator started, the numbers of its bits that
INSERT_ERR has inverted, and the checker's shift register, the latest bit lowest (R88, R89). -/
structure LaneState where
  tmoStart : Nat := 0
  backEnd : Nat := 0
  raised : Bool := false
  goodMarks : Nat := 0
  badMarks : Nat := 0
  seq : Option Nat := none
  idx : Option Nat := none
  misWidth : Bool := false
  refreshAt : Nat := 0
  codewords : Nat := 0
  spoilt : List Nat := []
  genFrom : Nat := 0
  inverted : List Nat := []
  checker : Nat := 0
deriving DecidableEq, Repr, Inhabited

/-- The lane layer: its lanes, and for AUX0 and AUX1 (bits 0 and 1) whether the PLL of the AUX lanes is locked at the lane's
rate (R490). -/
structure Lanes where
  lane : Tab LaneState := []
  auxLock : Nat := 0
deriving DecidableEq, Repr, Inhabited

/-! ### Performance counters (R367 to R372) -/

/-- An occurrence of a countable event in this cc (R367): its code, the slice it belongs to (32: none), the owner-tag class that
it carries (none for a Hob block), whether it is user-level, its master bit, the byte address accessed, and what it adds. -/
structure PmcEvent where
  code : Nat := 0
  slice : Nat := 32
  cls : Option Nat := none
  user : Bool := false
  master : Nat := 0
  addr : Nat := 0
  n : Nat := 1
deriving DecidableEq, Repr, Inhabited

/-- The performance counters beside their registers.  A counter's number is n for chip counter n, 256 + 32 s + n for counter n of
slice s.  `events`: the occurrences of this cc that are still to be counted, `cycles` whether this cc itself has been counted; `carry`: the
odd counters to which a wrap in this cc carries, `due` those to which one of the last cc does, and whether they have been `delivered`;
`late`: configuration writes delayed behind a pending carry; `snap`: the snapshot of a chained pair's odd counter. -/
structure Pmc where
  events : List PmcEvent := []
  cycles : Bool := false
  carry : List Nat := []
  due : List Nat := []
  delivered : Bool := false
  late : List (Nat × Word) := []
  snap : Tab Nat := []
deriving DecidableEq, Repr, Inhabited

/-! ### Power (R322 to R340) -/

/-- A pending hint (R333): its engine mask, phase, OPP and the whole µs at which it falls due. -/
structure Hint where
  mask : Nat := 0
  phase : Nat := 0
  opp : Nat := 0
  due : Nat := 0
deriving DecidableEq, Repr, Inhabited

/-- A learned slot (R332): delta in units of 2^-16, pi in 2^-16 pJ. -/
structure Learned where
  delta : Nat := 0
  pi : Nat := 0
deriving DecidableEq, Repr, Inhabited

/-- A deferred cut (R334): the steps (context, number) that were in COMBINE at the epoch's start, and its NT. -/
structure Deferral where
  steps : List (Nat × Nat) := []
  from_ : Nat := 0
deriving DecidableEq, Repr, Inhabited

/-- A raise of VDD_HOB in progress (R329): the NT at which it began and whether the rail has reported VGOOD. -/
structure Raise where
  from_ : Nat := 0
  good : Bool := false
deriving DecidableEq, Repr, Inhabited

/-- The power controller beside its registers.  Powers are in µW, the gain in units of 2^-30.  `sumEst`, `sumA` and `n` gather
the estimates since the last measurement; `prev` the last measurement with its mean activity; `bad` and `good` count consecutive
measurements, `failed` is the condition of R325; `est` the last P_est; `drop` how far cap_eff is below CAP; `overs` consecutive overrun
epochs; `opp` the OPP of each engine's phase as its difference from 7; `run` consecutive epochs that allow a raise, `blocked` the NT until
which none is tried, `chase` a point that hints still ask for after they fell due; `hcFrom` the HCLK count at which the epoch began, `fix` the
DAMPER_FIX in force and `wasFixed` whether that epoch was one of fixed frequency (R56); `vid` the code on HOB_VID; `warn`, `hi`, `trip` whether
a threshold is entered, `trips` consecutive readings at TRIP, `sensors` the sensors last found bad; `energy` in µJ with its remainder
in pJ; `epoch`, `meas` and `therm` the periodic occurrences last fired. -/
structure PwrState where
  gain : Nat := 1073741824
  off : Int := 0
  sumEst : Int := 0
  sumA : Nat := 0
  n : Nat := 0
  prev : Option (Int × Nat) := none
  bad : Nat := 0
  good : Nat := 0
  failed : Bool := false
  est : Int := 0
  drop : Nat := 0
  overs : Nat := 0
  learned : Tab (Option Learned) := []
  opp : Tab Nat := []
  defer : Tab Deferral := []
  hints : List Hint := []
  raising : Option Raise := none
  run : Nat := 0
  blocked : Nat := 0
  chase : Nat := 0
  hcFrom : Nat := 0
  fix : Nat := 0
  wasFixed : Bool := false
  vid : Nat := 40
  warn : Bool := false
  hi : Bool := false
  trip : Bool := false
  trips : Nat := 0
  sensors : Nat := 0
  energy : Nat := 0
  frac : Nat := 0
  epoch : Nat := 0
  meas : Nat := 0
  therm : Nat := 0
deriving DecidableEq, Repr, Inhabited

/-! ### Telemetry (R357 to R366) -/

/-- A digest entry (R366): the flow hash, frames, bytes and COLL. -/
structure DigEntry where
  hash : Nat := 0
  frames : Nat := 0
  bytes : Nat := 0
  coll : Bool := false
deriving DecidableEq, Repr, Inhabited

/-- A postcard that waits for a block (R363): its slice, collector, TYPE, COUNT, body, telemetry epoch, how many hop records it holds,
and the pool to be asked next with the first cc of that request. -/
structure Postcard where
  slice : Nat := 0
  coll : Nat := 0
  type : Nat := 0
  count : Nat := 0
  body : List Byte := []
  epoch : Nat := 0
  records : Nat := 0
  pool : Option Nat := none
  tryAt : Nat := 0
deriving DecidableEq, Repr, Inhabited

/-- What telemetry counts in a cc: a copy in its bins of both histograms, a frame in its digest entry, and L of a frame that ended (R364 to R366). -/
inductive TlmNote where
  | hist (lat depth : Nat)
  | frame (entry hash : Nat)
  | bytes (entry n : Nat)
deriving DecidableEq, Repr, Inhabited

/-- Telemetry beside its registers: the NT of the last epoch boundary that fired, what this cc has `noted`, sample counts by port, the counting banks of the
histograms (by 16 p + bin) and of the digest (by 1,024 s + entry), batches and PSEQ by 4 s + collector, and postcards waiting for blocks. -/
structure TlmState where
  boundary : Nat := 0
  noted : List TlmNote := []
  sample : Tab Nat := []
  lat : Tab Nat := []
  depth : Tab Nat := []
  dig : Tab DigEntry := []
  batch : Tab (List (List Byte)) := []
  pseq : Tab Nat := []
  out : List Postcard := []
deriving DecidableEq, Repr, Inhabited

/-! ### Trunk groups and the Flue channel (R112 to R132) -/

/-- A frame in a member's deskew memory (R120): its MFC, whether its overhead was valid, and its bytes. -/
structure TrkFrame where
  mfc : Nat := 0
  valid : Bool := false
  bytes : List Byte := []
deriving DecidableEq, Repr, Inhabited

/-- A trunk member's receiver beside its registers: alignment (0 SEARCH, 1 CHECK, 2 IN_FRAME) with its hit and miss counts (R118),
the MFC of its latest frame and the cc in which that frame began to arrive, BIP8 of that frame as received (R115), its lag in cc behind the
reference (R120), and for MISMATCH, AIS, SKEW and member RDI the count of consecutive frames that contradict the condition in force (R119,
R126); its deskew memory, the latest frame last. -/
structure TrkMem where
  align : Nat := 0
  hits : Nat := 0
  misses : Nat := 0
  mfc : Nat := 0
  arr : Nat := 0
  bip : Byte := 0
  lag : Int := 0
  mis : Bool := false
  misRun : Nat := 0
  ais : Bool := false
  aisRun : Nat := 0
  skew : Bool := false
  skewRun : Nat := 0
  rdiRun : Nat := 0
  frames : List TrkFrame := []
deriving DecidableEq, Repr, Inhabited

/-- A trunk group beside its registers: per member the consecutive received frames with its RX_MAP bit 1, the members whose bit was 0 in a
frame received since the last frame boundary (R121), the MFC of the frame whose RX_MAP was read last, the run of the group RDI bit (R126); the frame
released last with its active set and BPTR (R117, R122), per active member the bits of a block that runs on from it (none: they are lost), the
descrambler's register, the frame that the released blocks have begun, and the frames that they have spelled, oldest first, with whether an
error block lies in each; the transmit MFC and BPTR, the frames sent last, per member the bits that run on into the next, the blocks that the
port's PCS has ready, the scrambler's register; and whether the group was UP. -/
structure TrkGrp where
  mapRun : Tab Nat := []
  mapLost : Nat := 0
  rxMfc : Option Nat := none
  rdiRun : Nat := 0
  rel : Option Nat := none
  act : Nat := 0
  bptr : Nat := 0
  rxTail : List (Option Nat) := []
  rxReg : Nat := 0
  rxOpen : Option (List Byte × Bool) := none
  rxFrames : List (List Byte × Bool) := []
  txMfc : Nat := 0
  txBptr : Nat := 0
  sent : List (List Byte) := []
  txTail : List Nat := []
  txBlocks : List Nat := []
  txReg : Nat := 0
  up : Bool := false
deriving DecidableEq, Repr, Inhabited

/-- A Flue serial port (R127, R130): its receive and transmit FIFOs, oldest first, and the byte last put on FSPk_RD. -/
structure Fsp where
  rx : List Byte := []
  tx : List Byte := []
  rd : Byte := 0
deriving DecidableEq, Repr, Inhabited

/-- The trunk layer: members by lane, groups by 8 s + g, and the four Flue ports. -/
structure Trunk where
  mem : Tab TrkMem := []
  grp : Tab TrkGrp := []
  fsp : Tab Fsp := []
deriving DecidableEq, Repr, Inhabited


/-! ### The whole chip -/

/-- The state of the Z512.

* `pending`: the commands and events that wait, first in, first out.
* `cc`: cycles of CCLK since reset (R20).  `nt`: network time in units of 2^-40 ns (R14, R269).
* `free`: the MODEL's own counter that numbers free values (`Config.freeNat`); nothing rests on its value.
* `csr`: every register that is not a configuration register, by chip address, as its difference (exclusive or) from its reset value.
* `cnt`: the 48-bit counters by the address of their _LO register; `snap`: the snapshots of _HI registers by their address (R93).
* `cntNew`: what each counter has counted in this cc, by the same address (a counter in a register's field: by that register's), which
  a clear in the same cc leaves in it (R45, R66, R93).
* `hwSet`, `swClr`: the (address, bit) pairs of status flags that hardware set, and that software wrote 1 to, in this cc (R468).
* `mem`: the byte-addressed memories STK_MEM, CFG0 and CFG1 by chip address (R437). -/
structure State where
  pending : List Instr
  cc : Nat
  nt : Nat
  free : Nat
  csr : Tab Word
  cnt : Tab Nat
  cntNew : Tab Nat
  snap : Tab Nat
  hwSet : List (Nat × Nat)
  swClr : List (Nat × Nat)
  mem : Tab Byte
  slot0 : GenSlot
  slot1 : GenSlot
  gen : GenState
  tab : Tables
  fwd : Fwd
  tm : Tm
  mac : Tab MacPort
  time : TimeState
  stk : Stoker
  jor : Joring
  flt : Faults
  pmc : Pmc
  dom : Dom
  lanes : Lanes
  trk : Trunk
  clk : Option ClockReq
  hob : HobState
  pwr : PwrState
  tlm : TlmState
  uc : Microcode
  boot : Boot
  jtag : Jtag
deriving DecidableEq, Repr, Inhabited

/-- Reasons to stop with a fault: none.  Every command and event of the table has an effect that the spec gives; what the chip
reports it reports in its registers and fault records, and goes on. -/
inductive Fault where
deriving DecidableEq, Repr

/-- Reasons to refuse a command. -/
inductive Refusal where
  /-- Raised by `exec` alone, for a row of the table that has no meaning yet; safe (the model stops where the chip goes on). -/
  | notModelled (mnemonic : String)
deriving DecidableEq, Repr

/-- The chip right after reset: every register at its reset value (an empty `csr`), slot 0 ACTIVE with number 0 and slot 1
OPEN, both at reset values (R193), NT 0 (R269), memories, queues and buffers empty, nothing waiting. -/
def State.reset : State :=
  { pending := [], cc := 0, nt := 0, free := 0, csr := [], cnt := [], cntNew := [], snap := [], hwSet := [], swClr := [], mem := [],
    slot0 := {}, slot1 := {},
    gen := {}, tab := {}, fwd := {}, tm := {}, mac := [], time := {}, stk := {}, jor := {}, flt := {}, pmc := {}, dom := {}, lanes := {}, trk := {}, clk := none, hob := {}, pwr := {}, tlm := {}, uc := {}, boot := {}, jtag := {} }

end Sys2Proof.Machine
end

