-- ==== Sys2Proof/Machine/Flags.lean ====
section
/-! DEFINITION. Status flags: bits that hardware sets and software clears by writing 1, with their SET_AGAIN companions (R18,
R468). -/

namespace Sys2Proof.Machine

/-- The chip address of a register. -/
def Reg.addr (r : Reg) (i j k : Nat) : Nat := r.base + r.s0 * i + r.s1 * j + r.s2 * k

/-! ### Status flags (R18, R468) -/

/-- Or a bit into a register (no flag or companion resets to 1). -/
def State.orBit (s : State) (a b : Nat) : State :=
  { s with csr := s.csr.set a (s.csr.get a ||| BitVec.ofNat 32 (2 ^ b)) }

/-- Clear a bit of a register. -/
def State.clrBit (s : State) (a b : Nat) : State :=
  { s with csr := s.csr.set a (s.csr.get a &&& ~~~(BitVec.ofNat 32 (2 ^ b))) }

/-- Hardware sets bit `b` of a status flag field.  When software wrote 1 to the flag in the same cc, the flag stays 1 and its
SET_AGAIN companion is set (R468). -/
def State.flag (s : State) (x : Fld) (i : Nat := 0) (j : Nat := 0) (k : Nat := 0) (b : Nat := 0) : State :=
  let a := x.reg.addr i j k
  let s1 := { s.orBit a (x.lsb + b) with hwSet := (a, x.lsb + b) :: s.hwSet }
  match x.sa with
  | some (d, l) =>
    if (a, x.lsb + b) ∈ s.swClr then { s1.orBit (a + d) (l + b) with hwSet := (a + d, l + b) :: s1.hwSet } else s1
  | none => s1

/-- Software writes 1 to bit `b` of the W1C field `x` at address `a`: the bit clears unless hardware set it in this cc, in which
case its companion is set (R468). -/
def State.w1c (s : State) (x : Fld) (a b : Nat) : State :=
  let s1 := { s with swClr := (a, x.lsb + b) :: s.swClr }
  if (a, x.lsb + b) ∈ s.hwSet then
    match x.sa with
    | some (d, l) => { s1.orBit (a + d) (l + b) with hwSet := (a + d, l + b) :: s1.hwSet }
    | none => s1
  else s1.clrBit a (x.lsb + b)

end Sys2Proof.Machine
end

