-- ==== Sys2Proof/Machine/Operands.lean ====
section
/-! DEFINITION. How operands are read: fields of words and numbers, signed values, big-endian byte strings (R16), CRC-32C, and the
general registers of a Stoker core (R376). -/

namespace Sys2Proof.Machine

/-! ### Words and bytes -/

/-- Bits [lsb + wd - 1 : lsb] of a word. -/
def wordBits (w : Word) (lsb wd : Nat) : Nat := (w.toNat / 2 ^ lsb) % 2 ^ wd

/-- A word with bits [lsb + wd - 1 : lsb] replaced by `v`. -/
def wordPut (w : Word) (lsb wd v : Nat) : Word :=
  (w &&& ~~~(BitVec.ofNat 32 ((2 ^ wd - 1) * 2 ^ lsb))) ||| BitVec.ofNat 32 ((v % 2 ^ wd) * 2 ^ lsb)

/-- Bits [lsb + wd - 1 : lsb] of a number. -/
def natBits (n lsb wd : Nat) : Nat := (n / 2 ^ lsb) % 2 ^ wd

/-- Is bit `i` of a number set. -/
def natBit (n i : Nat) : Bool := n / 2 ^ i % 2 == 1

/-- The signed value of the low `w` bits of a number. -/
def signed (w n : Nat) : Int := if n % 2 ^ w < 2 ^ (w - 1) then (n % 2 ^ w : Nat) else (n % 2 ^ w : Nat) - (2 ^ w : Nat)

/-- The low `w` bits of an integer in two's complement. -/
def unsigned (w : Nat) (i : Int) : Nat := (i % (2 ^ w : Nat)).toNat

/-- The number of ones among the low `w` bits. -/
def ones : Nat → Nat → Nat
  | 0, _ => 0
  | w + 1, n => n % 2 + ones w (n / 2)

/-- Ceiling of a quotient. -/
def ceilDiv (a b : Nat) : Nat := (a + b - 1) / b

/-- Put an item behind those that stand before it or with it. -/
def insertBy {α : Type} (before : α → α → Bool) (x : α) : List α → List α
  | [] => [x]
  | y :: t => if before x y then x :: y :: t else y :: insertBy before x t

/-- A list in the order of `before`, items of one rank keeping theirs. -/
def sortBy {α : Type} (before : α → α → Bool) (l : List α) : List α := l.foldl (fun a x => insertBy before x a) []

/-- A big-endian byte string as a number (R16). -/
def beNat (bs : List Byte) : Nat := bs.foldl (fun a b => a * 256 + b.toNat) 0

/-- A number as `n` big-endian bytes. -/
def natBytes : Nat → Nat → List Byte
  | 0, _ => []
  | n + 1, v => BitVec.ofNat 8 (v / 256 ^ n) :: natBytes n v

/-- `n` bytes from offset `o`; bytes beyond the end read 0. -/
def bytesAt (l : List Byte) (o n : Nat) : List Byte :=
  let x := (l.drop o).take n
  x ++ List.replicate (n - x.length) 0

/-- The string with `bs` written at offset `o`. -/
def putBytes (l : List Byte) (o : Nat) (bs : List Byte) : List Byte :=
  l.take o ++ bs ++ l.drop (o + bs.length)

/-- The number in `n` bytes from offset `o`. -/
def fieldAt (l : List Byte) (o n : Nat) : Nat := beNat (bytesAt l o n)

/-- One bit of a reflected CRC. -/
def crcBit (poly c : Nat) : Nat := if c % 2 = 1 then (c / 2) ^^^ poly else c / 2

/-- One byte of CRC-32C (R173): polynomial 0x1EDC_6F41 reflected. -/
def crc32cByte (c : Nat) (b : Byte) : Nat :=
  let p := 0x82F63B78
  crcBit p (crcBit p (crcBit p (crcBit p (crcBit p (crcBit p (crcBit p (crcBit p (c ^^^ b.toNat))))))))

/-- CRC-32C of a byte string (R173). -/
def crc32c (bs : List Byte) : Nat := (bs.foldl crc32cByte 0xFFFFFFFF) ^^^ 0xFFFFFFFF

/-! ### Stoker's general registers (R376) -/

/-- General register `r` of core `k`; r0 reads 0. -/
def State.reg (s : State) (k : Fin 4) (r : Fin 32) : BitVec 64 := if r = 0 then 0 else s.stk.regs.get (32 * k.val + r.val)

/-- Write a general register; a write to r0 is ignored. -/
def State.setReg (s : State) (k : Fin 4) (r : Fin 32) (v : BitVec 64) : State :=
  if r = 0 then s else { s with stk := { s.stk with regs := s.stk.regs.set (32 * k.val + r.val) v } }

end Sys2Proof.Machine
end

