-- ==== Sys2Proof/Machine/Ops.lean ====
section
/-! DEFINITION. The operations every block uses: registers and their fields, generation slots, counters, interrupts, detected faults,
host messages, free values, network time and byte-addressed memory. -/

namespace Sys2Proof.Machine

/-! ### Registers -/

/-- The value of a register that is not a configuration register. -/
def State.rget (s : State) (r : Reg) (i : Nat := 0) (j : Nat := 0) (k : Nat := 0) : Word :=
  s.csr.get (r.addr i j k) ^^^ BitVec.ofNat 32 (r.reset i j k)

/-- Give a register a value. -/
def State.rset (s : State) (r : Reg) (v : Word) (i : Nat := 0) (j : Nat := 0) (k : Nat := 0) : State :=
  { s with csr := s.csr.set (r.addr i j k) (v ^^^ BitVec.ofNat 32 (r.reset i j k)) }

/-- The value of a field. -/
def State.f (s : State) (x : Fld) (i : Nat := 0) (j : Nat := 0) (k : Nat := 0) : Nat :=
  wordBits (s.rget x.reg i j k) x.lsb x.w

/-- Give a field a value. -/
def State.setF (s : State) (x : Fld) (v : Nat) (i : Nat := 0) (j : Nat := 0) (k : Nat := 0) : State :=
  s.rset x.reg (wordPut (s.rget x.reg i j k) x.lsb x.w v) i j k

/-- Is a one-bit field 1. -/
def State.on (s : State) (x : Fld) (i : Nat := 0) (j : Nat := 0) (k : Nat := 0) : Bool := s.f x i j k == 1

/-- Add to a field that saturates at its greatest value. -/
def State.satF (s : State) (x : Fld) (n : Nat) (i : Nat := 0) (j : Nat := 0) (k : Nat := 0) : State :=
  s.setF x (min (s.f x i j k + n) (2 ^ x.w - 1)) i j k

/-! ### Generation slots (R190 to R195) -/

/-- A generation slot by number. -/
def State.slot (s : State) (n : Nat) : GenSlot := if n = 0 then s.slot0 else s.slot1

/-- Replace a generation slot. -/
def State.setSlot (s : State) (n : Nat) (g : GenSlot) : State :=
  if n = 0 then { s with slot0 := g } else { s with slot1 := g }

/-- The slot in force. -/
def State.active (s : State) : Nat := s.f GEN_STAT_ACTIVE_SLOT

/-- The other slot. -/
def State.shadow (s : State) : Nat := 1 - s.active

/-- Is the shadow slot OPEN (R191). -/
def State.shadowOpen (s : State) : Bool := s.f GEN_STAT_CSTATE == 3

/-- A configuration register in a generation slot. -/
def GenSlot.rget (g : GenSlot) (r : Reg) (i : Nat := 0) (j : Nat := 0) (k : Nat := 0) : Word :=
  g.cfg.get (r.addr i j k) ^^^ BitVec.ofNat 32 (r.reset i j k)

/-- Give a configuration register a value in a generation slot. -/
def GenSlot.rset (g : GenSlot) (r : Reg) (v : Word) (i : Nat := 0) (j : Nat := 0) (k : Nat := 0) : GenSlot :=
  { g with cfg := g.cfg.set (r.addr i j k) (v ^^^ BitVec.ofNat 32 (r.reset i j k)) }

/-- A field of a configuration register in a generation slot. -/
def GenSlot.f (g : GenSlot) (x : Fld) (i : Nat := 0) (j : Nat := 0) (k : Nat := 0) : Nat :=
  wordBits (g.rget x.reg i j k) x.lsb x.w

/-- A configuration field of slot `n`. -/
def State.cf (s : State) (n : Nat) (x : Fld) (i : Nat := 0) (j : Nat := 0) (k : Nat := 0) : Nat := (s.slot n).f x i j k

/-- A configuration field of the ACTIVE generation. -/
def State.ca (s : State) (x : Fld) (i : Nat := 0) (j : Nat := 0) (k : Nat := 0) : Nat := s.cf s.active x i j k

/-- A one-bit configuration field of the ACTIVE generation. -/
def State.caOn (s : State) (x : Fld) (i : Nat := 0) (j : Nat := 0) (k : Nat := 0) : Bool := s.ca x i j k == 1

/-- The slot that holds generation number `g`: the ACTIVE slot when its number is `g`, else the other (R195). -/
def State.slotOf (s : State) (g : Nat) : Nat :=
  if s.f GEN_SLOT_NUM_NUM s.active == g then s.active else s.shadow

/-! ### Counters (R93) -/

/-- The address of a counter's _LO register. -/
def Cnt.addr (c : Cnt) (i j : Nat) : Nat := c.lo + c.s0 * i + c.s1 * j

/-- The value of a counter. -/
def State.cval (s : State) (c : Cnt) (i : Nat := 0) (j : Nat := 0) : Nat := s.cnt.get (c.addr i j)

/-- What a counter has counted in this cc. -/
def State.cnew (s : State) (c : Cnt) (i : Nat := 0) (j : Nat := 0) : Nat := s.cntNew.get (c.addr i j)

/-- Add to a 48-bit counter, which saturates at 2^48 - 1 (R93). -/
def State.count (s : State) (c : Cnt) (n : Nat := 1) (i : Nat := 0) (j : Nat := 0) : State :=
  { s with cnt := s.cnt.set (c.addr i j) (min (s.cval c i j + n) (2 ^ 48 - 1)), cntNew := s.cntNew.upd (c.addr i j) (· + n) }

/-- Take back one event of this cc that another of the same cc overrides (R264). -/
def State.uncount (s : State) (c : Cnt) (i : Nat := 0) (j : Nat := 0) : State :=
  { s with cnt := s.cnt.set (c.addr i j) (s.cval c i j - 1), cntNew := s.cntNew.upd (c.addr i j) (· - 1) }

/-- Clear a counter: what it has counted in this cc is counted after the clear (R93). -/
def State.cclr (s : State) (c : Cnt) (i : Nat := 0) (j : Nat := 0) : State :=
  { s with cnt := s.cnt.set (c.addr i j) (min (s.cnew c i j) (2 ^ 48 - 1)) }

/-- A counter that is a field of a register, saturating, counts one event. -/
def State.countF (s : State) (x : Fld) (i : Nat := 0) : State :=
  { s.satF x 1 i with cntNew := s.cntNew.upd (x.reg.addr i 0 0) (· + 1) }

/-- Take back one event of this cc from such a counter (R264). -/
def State.uncountF (s : State) (x : Fld) (i : Nat := 0) : State :=
  { s.setF x (s.f x i - 1) i with cntNew := s.cntNew.upd (x.reg.addr i 0 0) (· - 1) }

/-- Clear such a counter: what it has counted in this cc is counted after the clear (R45, R66). -/
def State.clrF (s : State) (x : Fld) (i : Nat := 0) : State := s.setF x (min (s.cntNew.get (x.reg.addr i 0 0)) (2 ^ x.w - 1)) i

/-- Clear several counters of one index. -/
def State.cclrs (s : State) (cs : List Cnt) (i : Nat := 0) (j : Nat := 0) : State :=
  cs.foldl (fun s c => s.cclr c i j) s

/-! ### Interrupts, faults, host messages, free values -/

/-- Raise interrupt source `n` of Stoker (R391): STK_IRQ_PEND bit n. -/
def State.irq (s : State) (n : Nat) : State := s.flag STK_IRQ_PEND_PEND (b := n)

/-- FLT_REACT of a class as it acts in this cc: the value before a write of this cc (R467). -/
def State.reactWord (s : State) (c : Nat) : Word :=
  match s.flt.oldReact.find? (fun e => e.1 == c) with
  | some e => e.2
  | none => s.rget FLT_REACT c

/-- A fault is detected (R459, R461): class, raised level, cause code and INFO.  FAULT_RECORD writes it to its record. -/
def State.raise (s : State) (cls level code : Nat) (info : Nat := 0) (inj : Bool := false) : State :=
  { s with flt := { s.flt with
      pend := s.flt.pend ++ [{ cls, level, code, info := info % 65536, inj, react := s.reactWord cls, cc := s.cc }],
      raised := cls :: s.flt.raised } }

/-- One ring of the Joring link. -/
def State.ring (s : State) (j : Nat) : Ring := s.jor.ring.get j

/-- Change a ring. -/
def State.setRing (s : State) (j : Nat) (r : Ring) : State :=
  { s with jor := { s.jor with ring := s.jor.ring.set j r } }

/-- Is there room in ring `j`'s queue of 16 messages (R433). -/
def State.msgRoom (s : State) (j : Nat) : Bool := (s.ring j).msgs.length < 16

/-- Queue a message to the host on ring `j`, or discard and count it when the queue holds 16 (R433). -/
def State.hostMsg (s : State) (j kind core code : Nat) : State :=
  if s.msgRoom j then
    let m := s.f JOR_MSG_NEXT_MSEQ j
    let r := s.ring j
    let s := s.setRing j { r with msgs := r.msgs ++ [{ mseq := m, kind, core, code := code % 65536 }] }
    (s.setF JOR_MSG_NEXT_MSEQ (m + 1) j).setF JOR_MSG_QUEUED (r.msgs.length + 1) j
  else s.count C_JOR_MSG_DROP 1 j

/-- An event that the performance counters can count occurs in this cc (R367). -/
def State.ev (s : State) (code : Nat) (slice : Nat := 32) (cls : Option Nat := none) (n : Nat := 1) : State :=
  { s with pmc := { s.pmc with events := { code, slice, cls, n } :: s.pmc.events } }

/-- Take back an event of this cc that another of the same cc overrides (R264). -/
def State.unev (s : State) (code slice : Nat) : State :=
  { s with pmc := { s.pmc with events := s.pmc.events.eraseP (fun e => e.code == code && e.slice == slice) } }

/-- Take the next free value. -/
def State.fresh (s : State) : State := { s with free := s.free + 1 }

/-- The free value that the next `fresh` uses up. -/
def State.freeVal (s : State) : Nat := Config.freeNat s.free

/-- A command whose occasion has not arisen changes nothing. -/
def State.when (s : State) (c : Bool) (f : State → State) : State := if c then f s else s

/-! ### Stepping and microcode version (R414, R488) -/

/-- The stepping code: A1 or B0. -/
def stepping : Nat := if Config.fused 0 % 2 = 0 then 0x11 else 0x20

/-- UC_VER of ROM microcode. -/
def romVersion : Nat := (if stepping = 0x11 then 2 else 3) * 65536 + 1

/-- The version word in force; the register holds a patch's word, or its reset value for ROM alone. -/
def State.ucVersion (s : State) : Nat := if s.rget UC_VER = 1 then romVersion else (s.rget UC_VER).toNat

/-! ### Network time (R14, R269) -/

/-- Units of NT in one ns. -/
def nsUnit : Nat := 2 ^ 40

/-- Units of NT in one second. -/
def secUnit : Nat := 1000000000 * 2 ^ 40

/-- NT wraps with its 48-bit seconds field. -/
def ntWrap : Nat := 2 ^ 48 * secUnit

/-- n / d rounded to the nearest integer, ties to even; d is positive. -/
def roundEven (n : Int) (d : Nat) : Int :=
  let q := n / (d : Int)
  let r := 2 * (n % (d : Int))
  if r < d then q else if r = d then (if q % 2 = 0 then q else q + 1) else q + 1

/-- The increment of NT per cc (R269): INC_NOM scaled by TIME_FREQ.ADJ in 1/256 ppb. -/
def State.ntInc (s : State) : Nat :=
  (roundEven (0xAAAAAAAAAB * (256000000000 + signed 32 (s.f TIME_FREQ_ADJ))) 256000000000).toNat

/-- Units of NT in one µs. -/
def usUnit : Nat := 1000 * nsUnit

/-- The epoch in which NT lies has begun in this cc, unless it or a later one has begun before (R53, R285). -/
def State.noteEpoch (s : State) : State :=
  if s.time.epochSeen < s.nt / usUnit then { s with time := { s.time with epochSeen := s.nt / usUnit, epochCc := s.cc } } else s

/-- NT in whole ns. -/
def State.ntNs (s : State) : Nat := s.nt / nsUnit

/-- An NT in units of 1/65,536 ns. -/
def nt16 (t : Nat) : Nat := t / 2 ^ 24

/-- Seconds of an NT. -/
def ntSec (t : Nat) : Nat := t / secUnit

/-- The ns field of an NT. -/
def ntNsField (t : Nat) : Nat := t / nsUnit % 1000000000

/-- The 16-bit fraction of an NT. -/
def ntFrac (t : Nat) : Nat := t / 2 ^ 24 % 65536

/-- An NT from its fields: seconds, ns and 1/65,536 ns. -/
def ntOf (sec ns frac : Nat) : Nat := sec * secUnit + ns * nsUnit + frac * 2 ^ 24

/-- The 12 bytes of the internal 96-bit form (R14). -/
def ntBytes (t : Nat) : List Byte := natBytes 6 (ntSec t) ++ natBytes 4 (ntNsField t) ++ natBytes 2 (ntFrac t)

/-- The 96-bit form from 12 bytes, as an NT. -/
def ntOfBytes (b : List Byte) : Nat := ntOf (fieldAt b 0 6) (fieldAt b 6 4) (fieldAt b 10 2)

/-- Write NT to three registers' SEC_HI, SEC_LO and NS fields. -/
def State.setNt3 (s : State) (hi mid lo : Fld) (t : Nat) (i : Nat := 0) : State :=
  ((s.setF hi (ntSec t / 2 ^ 32) i).setF mid (ntSec t) i).setF lo (ntNsField t) i

/-- Whole ns from SEC_HI, SEC_LO and NS fields. -/
def State.getNs3 (s : State) (hi mid lo : Fld) (i : Nat := 0) : Nat :=
  (s.f hi i * 2 ^ 32 + s.f mid i) * 1000000000 + s.f lo i

/-! ### Byte-addressed memory (R376, R437) -/

/-- Base of STK_MEM (R437). -/
def stkBase : Nat := 0x100000000

/-- `n` bytes of memory from chip address `a`. -/
def State.load (s : State) (a : Nat) : Nat → List Byte
  | 0 => []
  | n + 1 => s.mem.get a :: s.load (a + 1) n

/-- Store bytes from chip address `a`. -/
def State.store (s : State) (a : Nat) : List Byte → State
  | [] => s
  | b :: bs => State.store { s with mem := s.mem.set a b } (a + 1) bs

/-- A 32-bit word of Stoker SRAM by S-offset, big-endian. -/
def State.sram32 (s : State) (o : Nat) : Nat := beNat (s.load (stkBase + o) 4)

/-- Store a 32-bit word of Stoker SRAM. -/
def State.setSram32 (s : State) (o v : Nat) : State := s.store (stkBase + o) (natBytes 4 v)

/-- In-flight count of a generation slot moves by `d` (R197). -/
def State.infl (s : State) (slot : Nat) (d : Int) : State :=
  s.setF GEN_SLOT_INFL_COUNT ((s.f GEN_SLOT_INFL_COUNT slot : Int) + d).toNat slot

end Sys2Proof.Machine
end

