-- ==== Sys2Proof/Machine/Port.lean ====
section
/-! DEFINITION. Ports: their lanes and rates, the timing terms of the cycle ledger, per-port state, and frames on the wire (R27 to R29,
R38, R94, R97, R113, R124). -/

namespace Sys2Proof.Machine

/-! ### Lanes and rates -/

/-- The trunk group slot of slice `sl` in generation slot `n` whose lowest member is lane `i` of the slice, among those that are
enabled (R94, R112). -/
def State.groupAt (s : State) (n sl i : Nat) : Option Nat :=
  (List.range 8).find? (fun g =>
    s.cf n TRK_GRP_CFG_EN sl g == 1 && (setBitsOf 16 (s.cf n TRK_GRP_CFG_LANE_MASK sl g)).head? == some i)
where
  /-- The set bits among the low `w` bits, ascending. -/
  setBitsOf (w n : Nat) : List Nat := (List.range w).filter (natBit n)

/-- The member lanes of a trunk group, by chip lane number in member order (R113). -/
def State.groupLanes (s : State) (n sl g : Nat) : List Nat :=
  ((List.range 16).filter (natBit (s.cf n TRK_GRP_CFG_LANE_MASK sl g))).map (16 * sl + ·)

/-- The lane count that a WIDTH code names, 0 when it names none (R94). -/
def widthLanes (w : Nat) : Nat := if w = 1 then 1 else if w = 2 then 2 else if w = 3 then 4 else if w = 4 then 8 else 0

/-- WIDTH of a port in a generation slot; AUX ports have one lane (R108, R111). -/
def State.width (s : State) (n p : Nat) : Nat := if 512 ≤ p then 1 else s.cf n MAC_PORT_CFG_WIDTH p

/-- Is a port a trunk port in a generation slot. -/
def State.isTrunk (s : State) (n p : Nat) : Bool := s.width n p == 7

/-- The lanes of a port in a generation slot (R94); a trunk port's are its group's members. -/
def State.lanesOf (s : State) (n p : Nat) : List Nat :=
  if s.isTrunk n p then
    match s.groupAt n (p / 16) (p % 16) with
    | some g => s.groupLanes n (p / 16) g
    | none => []
  else (List.range (widthLanes (s.width n p))).map (p + ·)

/-- The lanes of a port in force. -/
def State.portLanes (s : State) (p : Nat) : List Nat := s.lanesOf s.active p

/-- The port in force that a lane belongs to. -/
def State.laneOwner (s : State) (l : Nat) : Option Nat :=
  if 512 ≤ l then some l
  else (List.range 512).find? (fun p => s.caOn MAC_PORT_CFG_EN p && (s.portLanes p).contains l)

/-- Is a lane carrying data: in DATA, or in a near-end loopback (R78, R90). -/
def State.laneData (s : State) (n : Nat) : Bool := s.f LANE_STAT_STATE n == 5 || s.f LANE_STAT_STATE n == 7

/-- The RATE code of a lane in generation slot `n`: its octet's, or the AUX register's (R67, R92). -/
def State.laneRate (s : State) (n l : Nat) : Nat :=
  if 512 ≤ l then s.f LANE_AUX_CFG_RATE (l - 512) else s.cf n LANE_OCT_CFG_RATE (l / 8)

/-- MAC rate of one lane in units of 0.01 Gb/s (R94). -/
def laneMacRate (code : Nat) : Nat :=
  if code = 0 then 40000 else if code = 1 then 20000 else if code = 2 then 10000 else 5000

/-- Member MAC rate r_m in units of 0.01 Gb/s (R113). -/
def memberRate (code : Nat) : Nat :=
  if code = 0 then 38674 else if code = 1 then 19337 else if code = 2 then 9669 else 4834

/-- The rate of a port in units of 0.01 Gb/s, for ingress (`rx`) or egress: lanes times the lane rate, or for a trunk port the active
set's size times r_m (R94, R124); at ingress the active set is that of the frame released last. -/
def State.portRate (s : State) (p : Nat) (rx : Bool) : Nat :=
  let n := s.active
  let code := s.laneRate n p
  if s.isTrunk n p then
    match s.groupAt n (p / 16) (p % 16) with
    | some g =>
      let act := if rx then (s.trk.grp.get (8 * (p / 16) + g)).act else s.f TRK_GRP_MAP_ACT_TX (p / 16) g
      ones 16 act * memberRate code
    | none => 0
  else widthLanes (s.width n p) * laneMacRate code

/-! ### Times (R27, R29, R38) -/

/-- Cycles to send `n` bytes at a rate in units of 0.01 Gb/s: ceil(12 n / R). -/
def byteCc (n rate : Nat) : Nat := if rate = 0 then 0 else ceilDiv (1200 * n) rate

/-- The threshold term h (R29): `saf` when the copy is store-and-forward, `k` the threshold step, `len` L. -/
def termH (saf : Bool) (k len rate : Nat) : Nat :=
  let t := 256 * k
  if saf ∨ len + 8 ≤ t then byteCc (len - 512) rate
  else if t ≤ 520 then 0
  else byteCc (t - 520) rate

/-- How long a frame of `len` bytes holds the egress MAC (R38). -/
def termS (len rate : Nat) : Nat := byteCc (len + 8) rate

/-- The inter-frame gap (R38). -/
def termG (rate : Nat) : Nat := max 1 (if rate = 0 then 0 else ceilDiv 14400 rate)

/-- Cycles in `n` quanta of 512 bit times at a rate in units of 0.01 Gb/s, rounded up: 512 n / R ns. -/
def quantaCc (n rate : Nat) : Nat := if rate = 0 then 0 else ceilDiv (76800 * n) rate

/-! ### Per-port state -/

/-- The MAC's own state of a port. -/
def State.mp (s : State) (p : Nat) : MacPort := s.mac.get p

/-- Change the MAC's own state of a port. -/
def State.setMp (s : State) (p : Nat) (f : MacPort → MacPort) : State := { s with mac := s.mac.upd p f }

/-- The traffic manager's own state of a port. -/
def State.tp (s : State) (p : Nat) : TmPort := s.tm.port.get p

/-- Change the traffic manager's own state of a port. -/
def State.setTp (s : State) (p : Nat) (f : TmPort → TmPort) : State :=
  { s with tm := { s.tm with port := s.tm.port.upd p f } }

/-- The slice of a port or lane; 32 for the AUX ports. -/
def sliceOf (p : Nat) : Nat := if p < 512 then p / 16 else 32

/-- Is the MAC of a port UP (R106). -/
def State.macUp (s : State) (p : Nat) : Bool := s.f MAC_PORT_STAT_STATE p == 3

/-- Does the traffic manager see the port as up: UP, and on a domain link AGREED or EDGE (R106, R352). -/
def State.portUp (s : State) (p : Nat) : Bool :=
  s.macUp p && (s.f DOM_PORT_STAT_STATE p == 2 || s.f DOM_PORT_STAT_STATE p == 3) && s.f TM_PORT_STAT_FLUSHING p == 0

/-- A frame of the chip. -/
def State.frame (s : State) (f : Nat) : Frame := s.fwd.frames.get f

/-- Give a frame its new state. -/
def State.setFrame (s : State) (f : Nat) (x : Frame) : State :=
  { s with fwd := { s.fwd with frames := s.fwd.frames.set f x } }

/-- A copy. -/
def State.copy (s : State) (c : Nat) : Copy := s.fwd.copies.get c

/-- Give a copy its new state. -/
def State.setCopy (s : State) (c : Nat) (x : Copy) : State :=
  { s with fwd := { s.fwd with copies := s.fwd.copies.set c x } }

/-- A queue of a port, copies oldest first. -/
def State.queue (s : State) (p q : Nat) : List Nat := s.tm.queues.get (12 * p + q)

/-- Give a queue its new contents. -/
def State.setQueue (s : State) (p q : Nat) (l : List Nat) : State :=
  { s with tm := { s.tm with queues := s.tm.queues.set (12 * p + q) l } }

/-! ### Frames on the wire (R97) -/

/-- One byte of the IEEE 802.3 CRC-32 (reflected polynomial 0xEDB8_8320). -/
def crc32Byte (c : Nat) (b : Byte) : Nat :=
  let p := 0xEDB88320
  crcBit p (crcBit p (crcBit p (crcBit p (crcBit p (crcBit p (crcBit p (crcBit p (c ^^^ b.toNat))))))))

/-- The IEEE 802.3 FCS of a byte string, as the four bytes sent (least significant byte first). -/
def fcsOf (bs : List Byte) : List Byte :=
  (natBytes 4 ((bs.foldl crc32Byte 0xFFFFFFFF) ^^^ 0xFFFFFFFF)).reverse

/-- A frame body without FCS, padded so that the frame is 64 bytes long (R97). -/
def padded (d : List Byte) : List Byte := d ++ List.replicate (60 - d.length) 0

/-- A frame body as sent: padded and with a new FCS. -/
def sealBody (d : List Byte) : List Byte := padded d ++ fcsOf (padded d)

/-- The bytes sent of a frame that ends with the complement of the FCS computed over them (R98, R101). -/
def stompFrame (d : List Byte) : List Byte := d ++ (fcsOf d).map (fun b => ~~~b)

/-- The source address of frames that port `p`'s MAC generates: MAC_SA_BASE plus the port number, as a 48-bit sum (R99). -/
def State.sourceAddr (s : State) (p : Nat) : List Byte :=
  natBytes 6 ((s.f MAC_SA_BASE_HI_ADDR_HI * 2 ^ 32 + s.f MAC_SA_BASE_LO_ADDR_LO + p) % 2 ^ 48)

/-- MAX_LEN of a port in a generation slot. -/
def State.maxLen (s : State) (n p : Nat) : Nat := s.cf n MAC_PORT_CFG_MAX_LEN p

end Sys2Proof.Machine
end

