-- ==== Sys2Proof/Machine/Blocks.lean ====
section
/-! DEFINITION. 66-bit blocks and the trunk frame's payload (R68, R69, R114 to R117, R122): frames as blocks and back, the two scramblers, and
where blocks lie in payload.  A block is a number of 66 bits, a payload one of 65,408, the bit sent first at the top. -/

namespace Sys2Proof.Machine

/-! ### 64b/66b blocks (R68) -/

/-- A byte in the order in which IEEE 802.3 sends its bits, the least significant first. -/
def sentByte (b : Byte) : Nat := (List.range 8).foldl (fun a i => 2 * a + (b.getLsbD i).toNat) 0

/-- A block of eight bytes: sync header 01 for data, 10 for control. -/
def pcsBlock (control : Bool) (b : List Byte) : Nat :=
  (List.range 8).foldl (fun a i => 256 * a + sentByte (b.getD i 0)) (if control then 2 else 1)

/-- The eight bytes of a block, after its sync header. -/
def blockBytes (x : Nat) : List Byte := (List.range 8).map (fun i => BitVec.ofNat 8 (sentByte (BitVec.ofNat 8 (x / 2 ^ (56 - 8 * i)))))

/-- Is a block a control block. -/
def isControl (x : Nat) : Bool := x / 2 ^ 64 == 2

/-- The block types of IEEE 802.3: a start, a terminate behind 0 to 7 bytes, idle or error. -/
def startType : Byte := 0x78
def endTypes : List Byte := [0x87, 0x99, 0xAA, 0xB4, 0xCC, 0xD2, 0xE1, 0xFF]
def idleType : Byte := 0x1E

/-- The idle block. -/
def idleBlock : Nat := pcsBlock true [idleType]

/-- The error block (/E/): eight 7-bit codes 0x1E. -/
def errorBlock : Nat := pcsBlock true (idleType :: (natBytes 7 ((List.range 8).foldl (fun a i => a + 0x1E * 2 ^ (7 * i)) 0)).reverse)

/-- A frame, FCS with it, as blocks: start with the preamble, data, and a terminate with what is left. -/
def frameBlocks (b : List Byte) : List Nat :=
  let n := b.length / 8
  pcsBlock true (startType :: List.replicate 6 0x55#8 ++ [0xD5]) :: (List.range n).map (fun i => pcsBlock false ((b.drop (8 * i)).take 8)) ++
    [pcsBlock true (endTypes.getD (b.length % 8) 0 :: b.drop (8 * n))]

/-- A frame being put together from blocks: none between frames; its bytes, and whether an error block lies in it. -/
def frameStep (st : Option (List Byte × Bool)) (x : Nat) : Option (List Byte × Bool) × Option (List Byte × Bool) :=
  let d := blockBytes x
  let t := d.headD 0
  match st with
  | none => (if isControl x && t == startType then some ([], false) else none, none)
  | some (b, e) =>
    if !isControl x then (some (b ++ d, e), none)
    else
      match endTypes.findIdx? (· == t) with
      | some k => (none, some (b ++ (d.drop 1).take k, e))
      | none => (some (b ++ List.replicate 8 0, true), none)

/-! ### Scramblers (R69, R116) -/

/-- The self-synchronous scrambler 1 + x^39 + x^58 over the 64 bits behind a block's sync header; the register holds the 58 bits sent last, the
latest lowest. -/
def scramble (reg x : Nat) : Nat × Nat :=
  let r := (List.range 64).foldl (fun (st : Nat × Nat) i =>
    let b := (natBit x (63 - i)).xor ((natBit st.1 38).xor (natBit st.1 57))
    ((2 * st.1 + b.toNat) % 2 ^ 58, 2 * st.2 + b.toNat)) (reg, 0)
  (r.1, x / 2 ^ 64 * 2 ^ 64 + r.2)

/-- The descrambler; its register holds the 58 bits received last. -/
def descramble (reg x : Nat) : Nat × Nat :=
  let r := (List.range 64).foldl (fun (st : Nat × Nat) i =>
    let b := (natBit x (63 - i)).xor ((natBit st.1 38).xor (natBit st.1 57))
    ((2 * st.1 + (natBit x (63 - i)).toNat) % 2 ^ 58, 2 * st.2 + b.toNat)) (reg, 0)
  (r.1, x / 2 ^ 64 * 2 ^ 64 + r.2)

/-- `n` bytes of PRBS31 (x^31 + x^28 + 1) from a register, the latest bit lowest: what they add to a number, and the register. -/
def prbs31 (reg acc : Nat) : Nat → Nat
  | 0 => acc
  | n + 1 =>
    let r := (List.range 8).foldl (fun (st : Nat × Nat) _ =>
      let b := (natBit st.1 30).xor (natBit st.1 27)
      ((2 * st.1 + b.toNat) % 2 ^ 31, 2 * st.2 + b.toNat)) (reg, 0)
    prbs31 r.1 (256 * acc + r.2) n

/-- The additive sequence over the payload of one frame: from all ones at its first bit. -/
def payloadMask : Nat := prbs31 (2 ^ 31 - 1) 0 8176

/-! ### Payload (R117) -/

/-- Blocks that start in a frame, by BPTR. -/
def blocksIn (bptr : Nat) : Nat := if bptr ≤ 1 then 992 else 991

/-- Bits of a payload. -/
def payloadBits : Nat := 65408

/-- A member's payload from the end of the block that runs on from the frame before (`bptr` bits) and the blocks that start in it; and what runs on
into the next frame. -/
def packPayload (bptr tail : Nat) (blocks : List Nat) : Nat × Nat :=
  let all := blocks.foldl (fun a x => a * 2 ^ 66 + x) tail
  let extra := bptr + 66 * blocks.length - payloadBits
  (all / 2 ^ extra, all % 2 ^ extra)

/-- Block `k` that starts in a payload, when all of it lies there; and the bits of the last one that runs on. -/
def blockAt (bptr payload k : Nat) : Nat := payload / 2 ^ (payloadBits - bptr - 66 * (k + 1)) % 2 ^ 66
def blocksWhole (bptr : Nat) : Nat := (payloadBits - bptr) / 66
def blockTail (bptr payload : Nat) : Nat := payload % 2 ^ (payloadBits - bptr - 66 * blocksWhole bptr)

/-- The end of a block that began in the frame before: the first `bptr` bits of a payload. -/
def blockHead (bptr payload : Nat) : Nat := payload / 2 ^ (payloadBits - bptr)

/-- BIP8: even parity per bit position over the bytes of a frame (R115). -/
def bip8 (b : List Byte) : Byte := b.foldl (· ^^^ ·) 0

end Sys2Proof.Machine
end

