-- ==== Sys2Proof/Machine/Buffer.lean ====
section
/-! DEFINITION. The shared buffer and its pools (R214 to R238): the two codes, cell reads and writes, blocks, references, carving
and the pool manager's states. -/

namespace Sys2Proof.Machine

/-! ### The outer code RS(10,8) over GF(2^8) (R219, R220) -/

/-- Multiply by α = 0x02 modulo x^8 + x^4 + x^3 + x^2 + 1. -/
def gfX (a : Nat) : Nat := if 128 ≤ a then (2 * a % 256) ^^^ 0x1D else 2 * a

/-- a times α^n. -/
def gfShift (a : Nat) : Nat → Nat
  | 0 => a
  | n + 1 => gfX (gfShift a n)

/-- a · b, by the bits of b from bit n - 1 down. -/
def gfMulBits (a b : Nat) : Nat → Nat
  | 0 => 0
  | n + 1 => gfMulBits a b n ^^^ (if natBit b n then gfShift a n else 0)

/-- The product of two field elements. -/
def gfMul (a b : Nat) : Nat := gfMulBits a b 8

/-- a^n. -/
def gfPow (a : Nat) : Nat → Nat
  | 0 => 1
  | n + 1 => gfMul a (gfPow a n)

/-- The inverse of a non-zero element, a^254. -/
def gfInv (a : Nat) : Nat := gfPow a 254

/-- Syndromes at 1 and α of a codeword whose first symbol is the coefficient of x^9. -/
def rsSyndromes (c : List Nat) : Nat × Nat :=
  c.foldl (fun a x => (a.1 ^^^ x, gfX a.2 ^^^ x)) (0, 0)

/-- The two check symbols of eight data symbols: c8 + c9 = Σ c_i, and α c8 + c9 = Σ c_i α^(9-i). -/
def rsCheck (d : List Nat) : Nat × Nat :=
  let s := rsSyndromes (d ++ [0, 0])
  let c8 := gfMul (s.1 ^^^ s.2) (gfInv 3)
  (c8, s.1 ^^^ c8)

/-- Symbol j of chunk i of a stored cell. -/
def chunkByte (cell : List Byte) (i j : Nat) : Nat := (cell.getD (32 * i + j) 0).toNat

/-- Codeword j of a stored cell: byte j of chunks 0 to 9. -/
def codeword (cell : List Byte) (j : Nat) : List Nat := (List.range 10).map (fun i => chunkByte cell i j)

/-- The ten chunks of a cell: 256 bytes, the unused ones 0, and chunks 8 and 9 (R215, R219). -/
def encodeCell (data : List Byte) : List Byte :=
  let d := bytesAt data 0 256
  let chk := (List.range 32).map (fun j => rsCheck ((List.range 8).map (fun i => chunkByte d i j)))
  d ++ chk.map (fun c => BitVec.ofNat 8 c.1) ++ chk.map (fun c => BitVec.ofNat 8 c.2)

/-- A cell as its banks store it: the ten chunks, each with the ten check bits of the inner code (R215, R218). -/
def storeCell (data : List Byte) : StoredCell :=
  let b := encodeCell data
  { bytes := b, check := (List.range 10).map (fun i => Config.innerCheck (beNat (bytesAt b (32 * i) 32)) % 1024) }

/-- How a cell read came out (R220). -/
inductive CellOutcome where
  | clean | outer | bad
deriving DecidableEq, Repr

/-- The chunk that a codeword's single error lies in: the p with S1 = S0 α^p, as chunk 9 - p. -/
def rsLocate (s : Nat × Nat) : Option Nat :=
  if s.1 = 0 then none else (List.range 10).find? (fun i => gfShift s.1 (9 - i) == s.2)

/-- The stored cell with chunk i's bytes xored by `e`. -/
def fixChunk (cell : List Byte) (i : Nat) (e : List Nat) : List Byte :=
  (List.range 320).map (fun n =>
    if n / 32 = i then (cell.getD n 0) ^^^ BitVec.ofNat 8 (e.getD (n % 32) 0) else cell.getD n 0)

/-- The outer code's decision on a cell with the given erased chunks (R220), step 2 and 3. -/
def rsDecode (cell : List Byte) (eras : List Nat) : List Byte × CellOutcome :=
  let syn := (List.range 32).map (fun j => rsSyndromes (codeword cell j))
  match eras with
  | [] =>
    let bad := syn.filter (fun x => x.1 != 0 || x.2 != 0)
    if bad.isEmpty then (cell, .clean)
    else
      match rsLocate (bad.headD (0, 0)) with
      | none => (cell, .bad)
      | some i =>
        if bad.all (fun x => rsLocate x == some i) then (fixChunk cell i (syn.map (·.1)), .outer) else (cell, .bad)
  | [i] =>
    if syn.all (fun x => gfShift x.1 (9 - i) == x.2) then (fixChunk cell i (syn.map (·.1)), .outer) else (cell, .bad)
  | [i, k] =>
    let d := gfInv (gfShift 1 (9 - i) ^^^ gfShift 1 (9 - k))
    let ek := syn.map (fun x => gfMul (x.2 ^^^ gfShift x.1 (9 - i)) d)
    let ei := syn.map (fun x => x.1 ^^^ gfMul (x.2 ^^^ gfShift x.1 (9 - i)) d)
    (fixChunk (fixChunk cell i ei) k ek, .outer)
  | _ => (cell, .bad)

/-! ### Reading a cell (R218, R220, R221) -/

/-- The flips of chunk `i` in a list of (chunk, mask) bit errors: masks of one chunk combine. -/
def flipsOf (errs : List (Nat × Nat)) (i : Nat) : Nat :=
  errs.foldl (fun a e => if e.1 = i then a ^^^ e.2 else a) 0

/-- The 32 bytes that a mask of a chunk's 256 data bits flips, bit 0 being the last byte's least significant bit. -/
def flipBytes (m : Nat) : List Nat := (natBytes 32 (m % 2 ^ 256)).map (·.toNat)

/-- What the inner code makes of one chunk: untouched, corrected in place, an erasure, or (three flips or more, for which the
spec gives no result) a free outcome. -/
def innerStep (st : State × List Byte × List Nat × Nat) (i m : Nat) : State × List Byte × List Nat × Nat :=
  let (s, cell, eras, n) := st
  match ones 266 m with
  | 0 => st
  | 1 => (s, cell, eras, n + 1)
  | 2 => (s, fixChunk cell i (flipBytes m), eras ++ [i], n)
  | _ =>
    let v := s.freeVal
    if v % 2 = 0 then (s.fresh, fixChunk cell i (flipBytes m), eras ++ [i], n)
    else (s.fresh, fixChunk cell i (flipBytes (v / 2)), eras, n + v / 2 ^ 257 % 2)

/-- An armed injection on this cell joins the read's bit errors, once (R474). -/
def State.takeCellArm (s : State) (c : Nat) (errs : List (Nat × Nat)) : State × List (Nat × Nat) :=
  match s.flt.arm with
  | some a =>
    if a.target = 0 && a.index = c then
      ({ s with flt := { s.flt with arm := none } }, (a.chunk, if a.flips = 2 then 3 else 1) :: errs)
    else (s, errs)
  | none => (s, errs)

/-- Count corrections; above BUF_CORR_THR in one second the chip sets CORR_THR and raises MEMC at level 1, once for that second (R220). -/
def State.corrected (s : State) (inner outer : Nat) : State :=
  let s := (s.count C_BUF_INNER_CORR inner).count C_BUF_OUTER_CORR outer
  let n := s.fwd.corrections + inner + outer
  let thr := s.f BUF_CORR_THR_THR
  let above := thr ≠ 0 && thr < n && !s.fwd.corrRaised
  let s := { s with fwd := { s.fwd with corrections := n, corrRaised := s.fwd.corrRaised || above } }
  if above then (s.flag BUF_STAT_CORR_THR).raise 0 1 1 else s

/-- The bits of chunk `i` of cell `c` that differ from what was written, and their key in `flips`. -/
def flipKey (c i : Nat) : Nat := 16 * c + i

/-- New bit errors of a cell join those that its banks hold. -/
def State.flipCell (s : State) (c : Nat) (errs : List (Nat × Nat)) : State :=
  { s with fwd := { s.fwd with flips := (List.range 10).foldl (fun t i => t.upd (flipKey c i) (· ^^^ flipsOf errs i)) s.fwd.flips } }

/-- A chunk with a single error is corrected in place. -/
def State.healCell (s : State) (c : Nat) : State :=
  { s with fwd := { s.fwd with
      flips := (List.range 10).foldl (fun t i => if ones 266 (t.get (flipKey c i)) = 1 then t.set (flipKey c i) 0 else t) s.fwd.flips } }

/-- Read cell `c` under the codes, with the bit errors that its banks hold and those that strike in this cc: the 256 bytes, whether the
cell is uncorrectable, and the state with the corrections counted or the uncorrectable cell recorded (R220, R221). -/
def State.readCell (s : State) (c : Nat) (errs : List (Nat × Nat)) : State × List Byte × Bool :=
  let (s, errs) := s.takeCellArm c errs
  let s := s.flipCell c errs
  let flips := s.fwd.flips
  let raw := bytesAt (s.fwd.cells.get c).bytes 0 320
  let (s, cell, eras, inner) := (List.range 10).foldl (fun st i => innerStep st i (flips.get (flipKey c i))) (s.healCell c, raw, [], 0)
  let (fixed, out) := rsDecode cell eras
  let s := s.corrected inner (if out = .outer then 1 else 0)
  if out = .bad then
    let mask := eras.foldl (fun a i => a + 2 ^ i) 0
    let s := (s.setF BUF_ERR_LOC_CELL c).setF BUF_ERR_LOC_ERASED mask
    (((s.count C_BUF_UNCORR).flag BUF_STAT_UNCORR).raise 1 1 1, cell.take 256, true)
  else (s, fixed.take 256, false)

/-! ### Writer queues (R217) -/

/-- The rotating pointer of the pools (R227).  DESIGN CHOICE (log 106): the stripe arbiters of R40 and R217, of whose pointer the spec says
only that it rotates and advances every cc, use the same value and the same order (i - PTR) mod 64. -/
def State.ptr (s : State) : Nat := s.cc % 64

/-- Requester `i`'s place in this cc's grant order: (i - PTR) mod 64. -/
def State.rank (s : State) (i : Nat) : Nat := (i + 64 - s.ptr) % 64

/-- The requester of the list that is first in grant order. -/
def State.firstOf (s : State) : List Nat → Option Nat
  | [] => none
  | i :: t =>
    match s.firstOf t with
    | none => some i
    | some j => if s.rank i ≤ s.rank j then some i else some j

/-- Is there room in writer `w`'s queue of 256 cells. -/
def State.writerRoom (s : State) (w : Nat) : Bool := (s.fwd.writers.get w).length < 256

/-- Put a cell into writer `w`'s queue. -/
def State.writeCell (s : State) (w c : Nat) (data : List Byte) : State :=
  { s with fwd := { s.fwd with
      writers := s.fwd.writers.set w (s.fwd.writers.get w ++ [{ cell := c, data := bytesAt data 0 256 }]) } }

/-- The data of a cell that is still in a writer queue: the newest write of it. -/
def State.inWriter (s : State) (c : Nat) : Option (List Byte) :=
  (s.fwd.writers.foldl (fun a e => a ++ e.2) []).foldl (fun a e => if e.cell = c then some e.data else a) none

/-- Remove the oldest cell of stripe `st` from a writer queue. -/
def popStripe (st : Nat) : List CellWrite → Option (CellWrite × List CellWrite)
  | [] => none
  | e :: t =>
    if e.cell % 128 = st then some (e, t)
    else (popStripe st t).map (fun x => (x.1, e :: x.2))

/-- CELL_WRITE_GRANT (R217): the stripe grants the oldest cell of the first bidding writer, encoded as R215 stores it. -/
def State.grantWrite (s : State) (st : Nat) : State :=
  let bidders := (List.range 64).filter (fun w => (popStripe st (s.fwd.writers.get w)).isSome)
  match s.firstOf bidders with
  | none => s
  | some w =>
    match popStripe st (s.fwd.writers.get w) with
    | none => s
    | some (e, rest) =>
      State.ev { s with fwd := { s.fwd with
          writers := s.fwd.writers.set w rest
          cells := s.fwd.cells.set e.cell (storeCell e.data)
          flips := s.fwd.flips.clearRange (flipKey e.cell 0) 16
          stripeW := st :: s.fwd.stripeW } } 0x033

/-! ### Blocks (R222 to R232) -/

/-- Cells of a block of pool p: 1, 4, 16, 64. -/
def poolCells (p : Nat) : Nat := 4 ^ p

/-- The smallest pool whose block holds n bytes; above 16,384 bytes B64 (R222, R224). -/
def poolFor (n : Nat) : Nat := if n ≤ 256 then 0 else if n ≤ 1024 then 1 else if n ≤ 4096 then 2 else 3

/-- The pool that superblock `sb` is carved into (R223). -/
def poolOfSb (carve : List Nat) (sb : Nat) : Nat :=
  if sb < carve.getD 0 0 then 0
  else if sb < carve.getD 0 0 + carve.getD 1 0 then 1
  else if sb < carve.getD 0 0 + carve.getD 1 0 + carve.getD 2 0 then 2 else 3

/-- The pool manager's states (R234). -/
def poolChain : Nat := 0
def poolCarving : Nat := 1
def poolBlock : Nat := 2
def poolRebuilding : Nat := 3

/-- Is cell `c` part of a block or chain in use, or of a request that was refused in this cc. -/
def State.cellHeld (s : State) (c : Nat) : Bool :=
  s.fwd.blocks.any (fun e => e.2.cells.contains c) ||
  s.fwd.freed.any (fun e => e.1 ≤ c && c < e.1 + e.2.2)

/-- May the pool manager hand out the block at `a` from pool `p`. -/
def State.blockFree (s : State) (p a : Nat) : Bool :=
  a < 2097152 && a % poolCells p == 0 && poolOfSb s.fwd.carve (a / 64) == p && !s.cellHeld a

/-- FREE of a pool moves; POOL_LOWp keeps the least value, and falling below POOL_LOWTHRp sets LOW and raises BUFFER (R237). -/
def State.takeFree (s : State) (p : Nat) : State :=
  let old := s.f POOL_FREE_FREE p
  let s := s.setF POOL_FREE_FREE (old - 1) p
  let s := s.setF POOL_LOW_LOW (min (s.f POOL_LOW_LOW p) (old - 1)) p
  let thr := s.f POOL_LOWTHR_THR p
  if thr ≠ 0 ∧ thr ≤ old ∧ old - 1 < thr then (s.flag POOL_STAT_LOW).raise 10 0 2 else s

/-- Record a block or chain as in use with one reference. -/
def State.addBlock (s : State) (cells : List Nat) (pool tag : Nat) : State :=
  { s with fwd := { s.fwd with blocks := s.fwd.blocks.set (cells.headD 0) { count := 1, tag, cells, pool } } }

/-- The owner-tag class of a tag, none for a Hob block (R229, R368). -/
def tagCls (tag : Nat) : Option Nat := if 128 ≤ tag then none else some (tag / 32 % 4)

/-- How a block request ends in its cc. -/
inductive Grant where
  | granted | fallback | refused | noOccasion
deriving DecidableEq, Repr

/-- A request that stands in a cc: its requester and the header slot position that orders the requests of one slice (R227), and a number that
orders those of one position.  A SEND stands behind the frames of its slice (R398).  DESIGN CHOICE (log 108): so does a postcard, and before
the SENDs; the SENDs of several cores stand in the order of their cores. -/
structure Standing where
  req : Nat
  pos : Nat
  num : Nat
deriving DecidableEq, Repr

/-- Positions behind the 128 header slots: of a postcard's request, and of a SEND's. -/
def postcardPos : Nat := 128
def sendPos : Nat := 129

/-- Does request `a` stand before `b` in this cc's order (R227): (i - PTR) mod 64 ascending, then by position. -/
def State.standsBefore (s : State) (a b : Standing) : Bool :=
  s.rank a.req < s.rank b.req || (a.req == b.req && (a.pos < b.pos || (a.pos == b.pos && a.num < b.num)))

/-- Take single cells from the free-cell list of cell-chain state, each a grant (R233). -/
def State.takeCells (s : State) (k tag : Nat) : State :=
  let s := s.setF POOL_FREE_CELLS_CELLS (s.f POOL_FREE_CELLS_CELLS - k)
  let s := (s.count C_POOL_GRANT k 0).ev 0x030 32 (tagCls tag) k
  { s with fwd := { s.fwd with granted := s.fwd.granted + k } }

/-- A request for `k` cells that finds only the free cells `cells` before the list is empty: those are granted and go back, and the request for
the next is refused (R233). -/
def State.chainShort (s : State) (cells : List Nat) (tag : Nat) : State :=
  let s := (s.takeCells cells.length tag).count C_POOL_REFUSED 1 0
  { s with fwd := { s.fwd with freed := cells.map (fun c => (c, 4, 1)) ++ s.fwd.freed } }

/-- Are the cells distinct, in the buffer and free. -/
def State.cellsFree (s : State) (cells : List Nat) : Bool :=
  decide cells.Nodup && cells.all (fun c => decide (c < 2097152) && !s.cellHeld c)

/-- Make a block request (R224, R226, R233, R234): `want` is the pool asked first, `p` the pool asked in this cc, `n` the bytes, `tag` the owner
tag, `cells` what the pool manager hands out.  The requests of a cc are made in the order of R227, so the pool serves those that stand first. -/
def State.request (s : State) (want p n tag : Nat) (cells : List Nat) : State × Grant :=
  let st := s.f POOL_STAT_STATE
  if st = poolBlock then
    if s.f POOL_FREE_FREE p = 0 then
      if p < 3 then (s, .fallback) else (s.count C_POOL_REFUSED 1 want, .refused)
    else if s.blockFree p (cells.headD 0) then
      let a := cells.headD 0
      let all := (List.range (poolCells p)).map (a + ·)
      let s := (s.takeFree p).setF POOL_FREE_CELLS_CELLS (s.f POOL_FREE_CELLS_CELLS - poolCells p)
      let s := (s.count C_POOL_GRANT 1 p).ev 0x030 32 (tagCls tag)
      let s := if p ≠ want then (s.count C_POOL_FALLBACK 1 p).ev 0x031 32 (tagCls tag) else s
      ({ s with fwd := { s.fwd with granted := s.fwd.granted + poolCells p } }.addBlock all p tag, .granted)
    else (s, .noOccasion)
  else if st = poolChain then
    let k := ceilDiv n 256
    let free := s.f POOL_FREE_CELLS_CELLS
    if free < k then
      if (cells.take free).length = free ∧ s.cellsFree (cells.take free) then (s.chainShort (cells.take free) tag, .refused)
      else (s, .noOccasion)
    else if cells.length = k ∧ s.cellsFree cells then ((s.takeCells k tag).addBlock cells 0 tag, .granted)
    else (s, .noOccasion)
  else (s.count C_POOL_REFUSED 1 0, .refused)

/-- The first free cell at or after `c`, round the buffer, among the next `n`. -/
def State.freeFrom (s : State) (c : Nat) : Nat → Option Nat
  | 0 => none
  | n + 1 => if s.cellHeld (c % 2097152) then s.freeFrom (c + 1) n else some (c % 2097152)

/-- The free-cell list hands one cell to the chain at `a` (R233); which cell it is the spec does not say, so it is a free value (log 107).
Answers whether there was one; a request that finds none is refused. -/
def State.growChain (s : State) (a : Nat) : State × Bool :=
  let b := s.fwd.blocks.get a
  match (if s.f POOL_FREE_CELLS_CELLS = 0 then none else s.freeFrom s.freeVal 2097152) with
  | none => (s.count C_POOL_REFUSED 1 0, false)
  | some c =>
    let s := s.fresh.takeCells 1 b.tag
    ({ s with fwd := { s.fwd with blocks := s.fwd.blocks.set a { b with cells := b.cells ++ [c] } } }, true)

/-- A chain grows to `k` cells, one at a time; answers whether it did. -/
def State.growTo (s : State) (a : Nat) : Nat → State × Bool
  | 0 => (s, true)
  | n + 1 =>
    match s.growChain a with
    | (s, true) => s.growTo a n
    | (s, false) => (s, false)

/-- A refused release (R232): BUFFER at level 1, counted, and recorded in POOL_BAD_INFO. -/
def State.badFree (s : State) (reason req a : Nat) : State :=
  let s := (s.count C_POOL_BAD_FREE).flag POOL_STAT_BAD_FREE
  let s := ((s.setF POOL_BAD_INFO_REASON reason).setF POOL_BAD_INFO_REQ req).setF POOL_BAD_INFO_CELL a
  s.raise 10 1 1

/-- A release of one reference of the block at `a` is issued (R231): `tag` from the descriptor, `req` the requester, `ep` the REBUILD
epoch in which the reference was taken.  The releases of a cc are applied together at its end. -/
def State.release (s : State) (a tag req ep : Nat) : State :=
  { s with fwd := { s.fwd with releases := s.fwd.releases ++ [{ block := a, tag := tag, req := req, epoch := ep }] } }

/-- Forget the writes of a freed block's cells that still wait in writer queues.  DESIGN CHOICE (log 109): the spec does not say what becomes of
them; none may reach a cell after its next owner's write. -/
def State.dropWrites (s : State) (cells : List Nat) : State :=
  { s with fwd := { s.fwd with writers := (List.range 64).foldl (fun t w => t.upd w (·.filter (fun e => !cells.contains e.cell))) s.fwd.writers } }

/-- Apply a release (R231, R232); a reference of an earlier REBUILD epoch is absorbed (R235). -/
def State.applyRelease (s : State) (r : Release) : State :=
  if r.epoch ≠ s.fwd.epoch then s
  else
    let b := s.fwd.blocks.get r.block
    if b.count = 0 then s.badFree 0 r.req r.block
    else if r.tag ≠ b.tag then s.badFree 1 r.req r.block
    else if b.count = 1 then
      State.dropWrites { s with fwd := { s.fwd with
          blocks := s.fwd.blocks.set r.block {}
          freed := if b.pool = 0 ∧ b.cells.length ≠ 1 then b.cells.map (fun c => (c, 4, 1)) ++ s.fwd.freed
                   else (r.block, (if s.f POOL_STAT_STATE = poolBlock then b.pool else 4), b.cells.length) :: s.fwd.freed } } b.cells
    else { s with fwd := { s.fwd with blocks := s.fwd.blocks.set r.block { b with count := b.count - 1 } } }

/-- The releases of a cc are applied in requester order (R227, R231). -/
def State.applyReleases (s : State) : State :=
  let rs := (List.range 64).foldl (fun a i => a ++ s.fwd.releases.filter (fun r => r.req % 64 == (s.ptr + i) % 64)) []
  rs.foldl State.applyRelease { s with fwd := { s.fwd with releases := [] } }

/-- At the end of a cc the blocks released in it become free (R228). -/
def State.settleFreed (s : State) : List (Nat × Nat × Nat) → State
  | [] => s
  | (_, p, k) :: t =>
    let s := s.setF POOL_FREE_CELLS_CELLS (s.f POOL_FREE_CELLS_CELLS + k)
    State.settleFreed (if p < 4 then s.setF POOL_FREE_FREE (s.f POOL_FREE_FREE p + 1) p else s) t

/-- Set the reference count of a block (R229). -/
def State.setCount (s : State) (a n : Nat) : State :=
  { s with fwd := { s.fwd with blocks := s.fwd.blocks.upd a (fun b => { b with count := n }) } }

/-- Rewrite the owner tag of a block (R230). -/
def State.setTag (s : State) (a tag : Nat) : State :=
  { s with fwd := { s.fwd with blocks := s.fwd.blocks.upd a (fun b => { b with tag := tag }) } }

/-- The class bits of an owner tag for a queue (R229): 0 for Q0 to Q7, 1 for Q8 and Q9, 2 for Q10 and Q11. -/
def tagClass (q : Nat) : Nat := if q < 8 then 0 else if q < 10 then 1 else 2

/-- An owner tag of a slice and a class. -/
def sliceTag (cls sl : Nat) : Nat := cls * 32 + sl % 32

/-- The owner tag of a Hob engine. -/
def hobTag (e : Nat) : Nat := 128 + e % 32

/-- A pool metadata word met an error (R236): 1 corrected, 2 uncorrectable. -/
def State.poolMeta (s : State) (ecc : Nat) : State :=
  if ecc = 1 then s.corrected 1 0 else if ecc = 2 then s.raise 1 3 4 else s

/-! ### Carving (R223, R234) -/

/-- The sum of POOL_CARVE0 to POOL_CARVE3. -/
def State.carveSum (s : State) : Nat :=
  s.f POOL_CARVE_SB 0 + s.f POOL_CARVE_SB 1 + s.f POOL_CARVE_SB 2 + s.f POOL_CARVE_SB 3

/-- A CARVE request (R223, R234); R460 names both refusals as CONFIG code 10. -/
def State.carve (s : State) : State :=
  if s.f POOL_STAT_STATE ≠ poolChain ∨ s.f POOL_FREE_CELLS_CELLS ≠ 2097152 ∨ s.carveSum ≠ 32768 then
    (s.flag POOL_STAT_CARVE_ERR).raise 8 1 10
  else
    let s := s.setF POOL_STAT_STATE poolCarving
    { s with fwd := { s.fwd with
        carve := [s.f POOL_CARVE_SB 0, s.f POOL_CARVE_SB 1, s.f POOL_CARVE_SB 2, s.f POOL_CARVE_SB 3]
        stateStart := s.cc } }

/-- CARVE (R234): a write of POOL_CTL.CARVE. -/
def execCarve (s : State) : Host.Outcome State Fault Refusal := .next s.carve

/-- The free blocks of pool p after carving: superblocks times blocks per superblock. -/
def State.carvedBlocks (s : State) (p : Nat) : Nat := s.fwd.carve.getD p 0 * (64 / poolCells p)

/-- Set a pool's FREE and its LOW after carving (POOL_LOWp: the least since the last clear or CARVE). -/
def State.setPool (s : State) (p : Nat) : State :=
  (s.setF POOL_FREE_FREE (s.carvedBlocks p) p).setF POOL_LOW_LOW (s.carvedBlocks p) p

/-- CARVING_COMPLETE (R234): 32,768 cc after CARVING began the pool manager enters BLOCK. -/
def execCarvingComplete (s : State) : Host.Outcome State Fault Refusal :=
  .next (s.when (s.f POOL_STAT_STATE == poolCarving && s.fwd.stateStart + 32768 ≤ s.cc) fun s =>
    ((((s.setF POOL_STAT_STATE poolBlock).setPool 0).setPool 1).setPool 2).setPool 3)

/-- REBUILD_COMPLETE (R234, R235): 16,384 cc after the flush the pool manager enters CHAIN with every cell free. -/
def execRebuildComplete (s : State) : Host.Outcome State Fault Refusal :=
  .next (s.when (s.f POOL_STAT_STATE == poolRebuilding && s.fwd.stateStart + 16384 ≤ s.cc) fun s =>
    (s.setF POOL_STAT_STATE poolChain).setF POOL_FREE_CELLS_CELLS 2097152)

/-- CELL_WRITE_GRANT (R217): at most one grant per stripe in one cc. -/
def execCellWriteGrant (st : Fin 128) (s : State) : Host.Outcome State Fault Refusal :=
  .next (s.when (!s.fwd.stripeW.contains st.val) fun s => s.grantWrite st.val)

/-- BUF_CNT_CLR (R238). -/
def State.bufCntClrCmd (s : State) : State :=
  s.cclrs [C_BUF_INNER_CORR, C_BUF_OUTER_CORR, C_BUF_UNCORR, C_BUF_UNC_DROP, C_BUF_UNC_STOMP, C_BUF_WQ_DROP,
    C_BUF_RECIRC_OVER]

/-- BUF_CNT_CLR. -/
def execBufCntClr (s : State) : Host.Outcome State Fault Refusal := .next (s.bufCntClrCmd)

/-- Set POOL_LOWp to FREEp. -/
def State.lowToFree (s : State) (p : Nat) : State := s.setF POOL_LOW_LOW (s.f POOL_FREE_FREE p) p

/-- Clear the thirteen POOL counters and set each POOL_LOWp to its FREE (R238). -/
def State.poolCntClr (s : State) : State :=
  let s := (List.range 4).foldl (fun s p => (s.cclrs [C_POOL_GRANT, C_POOL_FALLBACK, C_POOL_REFUSED] p).lowToFree p) s
  s.cclr C_POOL_BAD_FREE

/-- POOL_CNT_CLR (R238). -/
def execPoolCntClr (s : State) : Host.Outcome State Fault Refusal := .next s.poolCntClr

end Sys2Proof.Machine
end

