-- ==== Sys2Proof/Machine/Tm.lean ====
section
/-! DEFINITION. The traffic manager: admission, charges, the life of copies, gates, scheduling, residue, flow-control generation,
flushes and the multicast port (R32 to R39, R59 to R62, R239 to R268). -/

namespace Sys2Proof.Machine

/-! ### Admission (R241 to R246) -/

/-- Free cells at the start of the cc (R244): those free now and those granted in this cc. -/
def State.freeAtStart (s : State) : Nat := s.f POOL_FREE_CELLS_CELLS + s.fwd.granted

/-- Partitioned buffer mode in force. -/
def State.partitioned (s : State) : Bool := natBit (s.f CHIP_MODE_MODE) 0

/-- The queue limit E (R244, R245), with the settings of generation slot `n`. -/
def State.queueLimit (s : State) (n p q : Nat) : Nat :=
  let l := s.cf n TM_Q_LIMIT_LIMIT p q
  if s.partitioned then l else min l (2 ^ s.cf n TM_Q_CFG_ALPHA p q * s.freeAtStart / 128)

/-- The ingress threshold X (R244, R245). -/
def State.ingressLimit (s : State) (n p : Nat) : Nat :=
  let l := s.cf n TM_ING_THR_THR p
  if s.partitioned then l else min l (2 ^ s.cf n TM_ING_CFG_ALPHA_ING p * s.freeAtStart / 128)

/-- Is a copy admitted to its queue (R243). -/
def State.admits (s : State) (x : Copy) : Bool :=
  if x.lossless then
    s.f TM_ING_CNT_CELLS x.inPort x.prio + x.charge ≤ s.ingressLimit x.slot x.inPort + s.cf x.slot TM_ING_HDRM_HEADROOM x.inPort
  else s.f TM_Q_DEPTH_CELLS x.port x.queue + x.charge ≤ s.queueLimit x.slot x.port x.queue

/-- Charge an admitted copy to its queue and, when lossless, to its ingress priority (R241, R242). -/
def State.chargeCopy (s : State) (x : Copy) : State :=
  let s := s.setF TM_Q_DEPTH_CELLS (s.f TM_Q_DEPTH_CELLS x.port x.queue + x.charge) x.port x.queue
  if x.lossless then s.setF TM_ING_CNT_CELLS (s.f TM_ING_CNT_CELLS x.inPort x.prio + x.charge) x.inPort x.prio else s

/-- A copy lets go of its charge (R241), which takes effect with the next cc (R246). -/
def State.uncharge (s : State) (x : Copy) : State :=
  if x.charge = 0 then s
  else
    { s with tm := { s.tm with letGo :=
        { port := x.port, queue := x.queue, cells := x.charge, lossless := x.lossless, inPort := x.inPort, prio := x.prio } :: s.tm.letGo } }

/-- A charge let go in the cc that ends leaves its queue and its ingress priority. -/
def State.settleCharge (s : State) (c : Charge) : State :=
  let s := s.setF TM_Q_DEPTH_CELLS (s.f TM_Q_DEPTH_CELLS c.port c.queue - c.cells) c.port c.queue
  if c.lossless then s.setF TM_ING_CNT_CELLS (s.f TM_ING_CNT_CELLS c.inPort c.prio - c.cells) c.inPort c.prio else s

/-- At the end of a cc every charge let go in it takes effect (R246). -/
def State.settleCharges (s : State) : State := s.tm.letGo.foldl State.settleCharge { s with tm := { s.tm with letGo := [] } }

/-- Enqueue an admitted copy (R266). -/
def State.enqueueCopy (s : State) (c : Nat) (x : Copy) : State :=
  let d := s.f TM_Q_DEPTH_CELLS x.port x.queue
  let s := s.chargeCopy x
  let s := s.setCopy c { x with state := .queued, enq := s.cc, depthAtEnq := d }
  let s := s.setQueue x.port x.queue (s.queue x.port x.queue ++ [c])
  (s.count C_TM_Q_ENQ 1 x.port x.queue).ev 0x020 (sliceOf x.port) (tagCls x.tag)

/-! ### The end of a copy (R231, R266) -/

/-- Forget a copy: no cell read is wanted for it any more, and its number is free. -/
def State.forgetCopy (s : State) (c : Nat) : State :=
  { s with fwd := { s.fwd with
      copies := s.fwd.copies.set c {}
      reads := s.fwd.reads.filter (fun r => r.copy ≠ some c) } }

/-- Release a copy's reference. -/
def State.releaseCopy (s : State) (x : Copy) : State :=
  match x.block with
  | some a => s.release a x.tag (sliceOf x.port % 32) x.epoch
  | none => s

/-- A copy that ends before its frame leaves what DWRR charged for it without a known L to be settled at the frame's end (R255). -/
def State.oweCharge (s : State) (x : Copy) : State :=
  let f := s.frame x.frame
  if x.charged = 0 || f.stage == .none || f.fate != .open then s
  else s.setFrame x.frame { f with owed := f.owed ++ [(x.port, x.queue, x.charged, x.trunc)] }

/-- A copy ends: its reference and, unless it waited in residue, its charge are released; the in-flight count falls when the copy has
not completed egress stage 5 (R197). -/
def State.endCopy (s : State) (c : Nat) (infl : Bool) : State :=
  let x := s.copy c
  let s := s.releaseCopy x
  let s := if x.state = .residue then s else (s.uncharge x).oweCharge x
  let s := if infl then s.infl x.slot (-1) else s
  s.forgetCopy c

/-- Take a copy out of its queue. -/
def State.unqueue (s : State) (c : Nat) : State :=
  let x := s.copy c
  s.setQueue x.port x.queue ((s.queue x.port x.queue).filter (· ≠ c))

/-- Take a copy out of the residue table; an entry without pending copies is free again (R250). -/
def State.unpend (s : State) (c : Nat) : State :=
  let r := (s.tm.residue.map (fun e => { e with pend := e.pend.filter (· ≠ c) })).filter (fun e => e.pend ≠ [])
  State.setF { s with tm := { s.tm with residue := r } } TM_CHIP_STAT_RES_USED r.length

/-- Drop a copy wherever it is held, before its start block reaches the egress MAC plane. -/
def State.dropCopy (s : State) (c : Nat) : State :=
  let x := s.copy c
  let s := if x.state = .queued then s.unqueue c else if x.state = .residue then s.unpend c else s
  s.endCopy c (x.state ≠ .piped)

/-! ### Gates (R257 to R260) -/

/-- Entry `e` of a gate list: GATES and INTERVAL. -/
def State.gateEntry (s : State) (p l e : Nat) : Nat × Nat :=
  (s.f TM_GATE_ENT0_GATES p l e, s.f TM_GATE_ENT1_INTERVAL p l e)

/-- The cycle of gate program `o` with the entries of list `l` as (gates, ns) segments: the first LEN entries, cut at CYCLE, the last holding
until the cycle ends (R258). -/
def State.segsOf (s : State) (p l : Nat) (o : GateList) : List (Nat × Nat) :=
  cut o.cycle ((List.range o.len).map (s.gateEntry p l))
where
  /-- Cut a list of segments at a total of `n` ns, the last one stretched to it. -/
  cut : Nat → List (Nat × Nat) → List (Nat × Nat)
    | _, [] => []
    | n, [e] => [(e.1, n)]
    | n, e :: t => if n ≤ e.2 then [(e.1, n)] else e :: cut (n - e.2) t

/-- The operational cycle of a port. -/
def State.gateSegs (s : State) (p : Nat) : List (Nat × Nat) := s.segsOf p (s.f TM_GATE_STAT_OPER p) (s.tp p).oper

/-- The gates at offset `o` (units of NT) into a list of segments, and the segments from there on with the rest of the current one. -/
def gatesAt : List (Nat × Nat) → Nat → Nat × List (Nat × Nat)
  | [], _ => (0xFFF, [])
  | e :: t, o => if o < e.2 * nsUnit then (e.1, (e.1, e.2 * nsUnit - o) :: t.map (fun x => (x.1, x.2 * nsUnit))) else gatesAt t (o - e.2 * nsUnit)

/-- The gate state that program `o` with list `l` gives at an NT (R257, R258). -/
def State.gatesBy (s : State) (p l : Nat) (o : GateList) (nt : Nat) : Nat :=
  if !o.en then 0xFFF
  else if nt < o.base * nsUnit then 0
  else (gatesAt (s.segsOf p l o) ((nt - o.base * nsUnit) % (o.cycle * nsUnit))).1

/-- The gate state of a port at the NT of this cc, under the operational list. -/
def State.gatesNow (s : State) (p nt : Nat) : Nat := s.gatesBy p (s.f TM_GATE_STAT_OPER p) (s.tp p).oper nt

/-- The program that a pending swap makes operational at t_sw (R259). -/
def TmPort.swapped (t : TmPort) : GateList := { t.latched with base := t.tsw / nsUnit }

/-- The gate state of a port at an NT to come: a pending swap that falls by then has taken place (R34 condition 4, R259). -/
def State.gatesAhead (s : State) (p nt : Nat) : Nat :=
  if s.on TM_GATE_STAT_PENDING p && (s.tp p).tsw ≤ nt then s.gatesBy p (1 - s.f TM_GATE_STAT_OPER p) (s.tp p).swapped nt
  else s.gatesNow p nt

/-- How long from now a gate that is open stays open, in units of NT; none when it never closes. -/
def openFor (q : Nat) : List (Nat × Nat) → Nat → Option Nat
  | [], _ => none
  | e :: t, a => if natBit e.1 q then openFor q t (a + e.2) else some a

/-- Does a transmission that ends `n` cc from now end no later than the next closing of queue q's gate (R260). -/
def State.guardPasses (s : State) (p q n : Nat) : Bool :=
  let o := (s.tp p).oper
  if !o.en || s.nt < o.base * nsUnit then true
  else
    let segs := s.gateSegs p
    let rest := (gatesAt segs ((s.nt - o.base * nsUnit) % (o.cycle * nsUnit))).2
    match openFor q (rest ++ segs.map (fun x => (x.1, x.2 * nsUnit))) 0 with
    | none => true
    | some d => n ≤ ceilDiv d s.ntInc

/-! ### Eligibility (R254) -/

/-- Restart a timer from the decode cc: 0 releases, else it expires `value` quanta later. -/
def State.timerEnd (s : State) (p value : Nat) : Nat := if value = 0 then 0 else s.cc + quantaCc value (s.portRate p true)

/-- What a decoded pause or PFC frame makes of a port's timers (R103): the pause timer restarts, or the timer of each priority addressed. -/
def State.decoded (s : State) (p : Nat) (m : MacPort) (d : FcDecode) : MacPort :=
  if d.pfc then
    { m with pfcEnd := (List.range 8).foldl (fun t pr =>
        if natBit d.vector pr then t.set pr (s.timerEnd p (d.times.getD pr 0)) else t) m.pfcEnd }
  else { m with pauseEnd := s.timerEnd p (d.times.headD 0) }

/-- A port's timers as this cc's decodes leave them, run or not yet: a queue that they pause is not chosen in their cc (R264). -/
def State.timers (s : State) (p : Nat) : MacPort :=
  ((s.mp p).decode.filter (fun d => d.at_ ≤ s.cc)).foldl (s.decoded p) (s.mp p)

/-- Is a queue of a port paused at a cc under R103: Annex 31B pause, or a PFC priority mapped to it. -/
def State.fcPaused (s : State) (p q cc : Nat) : Bool :=
  let m := s.timers p
  (cc < m.pauseEnd && !natBit (s.f MAC_FC_CFG_PAUSE_EXEMPT p) q) ||
  (List.range 8).any (fun pr =>
    cc < m.pfcEnd.get pr &&
      natBit (if pr % 2 = 0 then s.f MAC_PFC_MAP_MAP_EVEN p (pr / 2) else s.f MAC_PFC_MAP_MAP_ODD p (pr / 2)) q)

/-- Is a queue held as paused at a cc: R103, a received remote fault (R106), or LPI and its wake (R105). -/
def State.queuePaused (s : State) (p q cc : Nat) : Bool :=
  s.fcPaused p q cc || s.on MAC_PORT_STAT_RF p || (s.mp p).asleep || (s.mp p).lpiExit.isSome

/-- Is a queue held by a drain (R59). -/
def State.queueHeld (s : State) (p q : Nat) : Bool := s.tm.held.contains (12 * p + q)

/-- May a held queue still transmit: until t_c + DRAIN_TX (R60). -/
def State.heldOpen (s : State) (p q : Nat) : Bool := !s.queueHeld p q || (s.nt < s.tm.drainTx && !s.tm.flushed)

/-- L of a copy as step 3 of R255 and the guard take it: L when known, else MAX_LEN of the ingress port in the frame's generation, and
40 bytes more on a port with telemetry role INSERT (R361). -/
def State.schedLen (s : State) (x : Copy) : Nat :=
  (if x.lenKnown then x.len else s.maxLen x.slot x.inPort) + (if s.f TLM_PORT_CFG_ROLE x.port = 1 then 40 else 0)

/-- The earliest cc of a copy's start block at the egress MAC plane (R29, R39), none while that is not known yet: the terms f (`steps`), c (`term`),
h and p; `enq`, the cc of its enqueue, holds f and p already.  A store-and-forward copy has none before its frame is stored and good
(R30, R42). -/
def Copy.readyAt (x : Copy) : Option Nat :=
  let base := x.enq + 24 + x.term
  let ledger := x.t0cc + 54 + 30 * x.pass + x.steps + x.term
  if !x.fromPort then some base
  else if x.saf then
    if x.ended && !x.bad then some (max base (ledger + termH true x.kct x.len x.rin)) else none
  else some (max base (ledger + termH false x.kct (if x.lenKnown then x.len else 16384) x.rin))

/-- Can a copy's start block reach the egress MAC plane at cc `at_`. -/
def Copy.readyBy (x : Copy) (at_ : Nat) : Bool :=
  match x.readyAt with
  | some r => r ≤ at_
  | none => false

/-- Is a copy metered (R32), under the latency axis of the generation it carries. -/
def State.isMetered (s : State) (x : Copy) : Bool := 10 ≤ x.queue && s.cf x.slot CHIP_MODE_CFG_LAT == 1

/-- Is a queue eligible (R254). -/
def State.eligible (s : State) (p q : Nat) : Bool :=
  match (s.queue p q).head? with
  | none => false
  | some c =>
    let x := s.copy c
    !s.queuePaused p q s.cc && natBit (s.gatesNow p s.nt) q &&
    s.guardPasses p q (18 + termS (s.schedLen x) (s.portRate p false)) && s.heldOpen p q && !s.isMetered x

/-- Can the scheduler choose a queue in this cc: it is eligible, and its first copy's start block can reach the egress MAC plane 18 cc later
(R39, R253).  DEDUCED (log 110): the copy that waits for its terms stands in its queue without being passed by. -/
def State.choosable (s : State) (p q : Nat) : Bool :=
  s.eligible p q && (s.copy ((s.queue p q).headD 0)).readyBy (s.cc + 18)

/-- A queue's state (R265), as TM_Q_DEPTH.STATE shows it. -/
def State.queueState (s : State) (p q : Nat) : Nat :=
  if s.f TM_PORT_STAT_FLUSHING p = 1 then 5
  else if !s.portUp p then 0
  else if s.queueHeld p q then 4
  else if s.queue p q = [] then 1
  else if s.eligible p q then 2 else 3

/-! ### Scheduling (R253, R255, R198) -/

/-- Is a copy of a superseded generation past its age (R198). -/
def State.isStale (s : State) (x : Copy) : Bool :=
  x.slot != s.active && s.f GEN_STAT_CSTATE == 0 && s.gen.ts + s.f GEN_AGE_MAX_AGE * 1000 * nsUnit < s.nt

/-- The highest LVL among the eligible queues, of the ACTIVE generation. -/
def State.topLevel (s : State) (p : Nat) (el : List Nat) : Nat := el.foldl (fun a q => max a (s.ca TM_Q_CFG_LVL p q)) 0

/-- A queue's deficit (R255). -/
def State.deficit (s : State) (p q : Nat) : Int := signed 32 (s.f TM_Q_DWRR_DC p q)

/-- Set a queue's deficit. -/
def State.setDeficit (s : State) (p q : Nat) (d : Int) : State := s.setF TM_Q_DWRR_DC (unsigned 32 d) p q

/-- The next queue after `q` of a level's queues, in ascending order and round again. -/
def nextQueue (qs : List Nat) (q : Nat) : Nat := ((qs.filter (q < ·)) ++ qs).headD q

/-- The pointer of a level visits its queues until one with a positive deficit is chosen (R255). -/
def State.dwrr (s : State) (p lvl : Nat) (qs el : List Nat) : Nat → State × Option Nat
  | 0 => (s, none)
  | fuel + 1 =>
    let q0 := (s.tp p).ptr.get lvl
    let q := if qs.contains q0 then q0 else nextQueue qs q0
    let cred := qs.contains q0 && (s.tp p).credited.get lvl
    if el.contains q then
      let s := if cred then s else s.setDeficit p q (s.deficit p q + 256 * s.ca TM_Q_CFG_WEIGHT p q)
      if 0 < s.deficit p q then
        (s.setTp p (fun t => { t with ptr := t.ptr.set lvl q, credited := t.credited.set lvl true }), some q)
      else
        (s.setTp p (fun t => { t with ptr := t.ptr.set lvl (nextQueue qs q), credited := t.credited.set lvl false })).dwrr p lvl qs el fuel
    else
      let s := if s.queue p q = [] then s.setDeficit p q 0 else s
      (s.setTp p (fun t => { t with ptr := t.ptr.set lvl (nextQueue qs q), credited := t.credited.set lvl false })).dwrr p lvl qs el fuel

/-- The queue that the scheduler chooses: highest level, then DWRR. -/
def State.chooseQueue (s : State) (p : Nat) : State × Option Nat :=
  let el := (List.range 12).filter (s.choosable p)
  if el = [] then (s, none)
  else
    let lvl := s.topLevel p el
    s.dwrr p lvl ((List.range 12).filter (fun q => s.ca TM_Q_CFG_LVL p q == lvl)) (el.filter (fun q => s.ca TM_Q_CFG_LVL p q == lvl)) 1024

/-- Ask for the read of cell `i` of a copy's block (R40, R41). -/
def State.askCell (s : State) (c i : Nat) : State :=
  let x := s.copy c
  match x.block with
  | none => s
  | some a =>
    { s with fwd := { s.fwd with
        reads := s.fwd.reads ++ [{ reader := sliceOf x.port % 32, cell := (s.fwd.blocks.get a).cells.getD i 0, copy := some c, idx := i, ctx := s.cc }] } }

/-- The copies of a port on their way to its MAC, the earliest start first. -/
def State.planned (s : State) (p : Nat) : List Nat :=
  sortBy (fun a b => (s.copy a).start < (s.copy b).start)
    ((s.fwd.copies.filter (fun e => e.2.port == p && (e.2.state == .dequeued || e.2.state == .piped))).map (·.1))

/-- L of a planned copy as sent, as far as it is settled: as step 3 of R255 takes it until the egress stages have edited the frame, then as
they left it. -/
def State.planLen (s : State) (x : Copy) : Nat :=
  if x.state = .piped then
    max 64 (x.out.length + ((if x.lenKnown then x.len else s.maxLen x.slot x.inPort) - 192)) + (if s.f TLM_PORT_CFG_ROLE x.port = 1 then 40 else 0)
  else s.schedLen x

/-- The earliest start of a copy that has been dequeued: 18 cc later (R253), and, when its first cell read was deferred by r, not before its
own earliest cc with r (R39). -/
def Copy.planFrom (x : Copy) : Nat :=
  if x.defer = 0 then x.deqCc + 18 else max (x.deqCc + 18) (x.readyAt.getD 0 + x.defer)

/-- Plan the starts of copies one behind the other from cc `t` on (R38); answers when the port is free after them. -/
def State.planAll (s : State) (t : Nat) : List Nat → State × Nat
  | [] => (s, t)
  | c :: cs =>
    let x := s.copy c
    let S := max t x.planFrom
    let r := s.portRate x.port false
    State.planAll (s.setCopy c { x with start := S }) (S + termS (s.planLen x) r + termG r) cs

/-- Plan the planned copies of a port again, from the cc at which its line is free. -/
def State.replan (s : State) (p : Nat) : State :=
  let r := s.planAll (s.mp p).lineEnd (s.planned p)
  r.1.setMp p (fun m => { m with freeAt := r.2 })

/-- A chosen copy is dequeued in this cc: its start block is planned for 18 cc later and its first cell is asked for (R253). -/
def State.dequeueCopy (s : State) (c : Nat) (metered late : Bool) : State :=
  let x := s.copy c
  let s := s.unqueue c
  let s := s.setCopy c { x with state := .dequeued, deqCc := s.cc, start := s.cc + 18, asked := 1, metered := metered, late := late }
  let s := (s.askCell c 0).replan x.port
  let s := s.setTp x.port (fun t => { t with lastDequeue := s.cc + 1 })
  s.ev 0x021 (sliceOf x.port) (tagCls x.tag)

/-! ### Metered departure (R32 to R37, R256) -/

/-- The target departure of a metered copy (R33). -/
def State.target (s : State) (x : Copy) : Nat := x.t0cc + s.cf x.slot CHIP_METER_METER_L

/-- Does copy `a` precede copy `b` (R35): ascending D, Q10 before Q11, ascending ingress port, arrival order (of two frames of a wide port in
one cc, frame numbers tell; R135). -/
def State.precedes (s : State) (a b : Nat) : Bool :=
  let k := fun (c : Nat) => let z := s.copy c; [s.target z, z.queue, z.inPort, z.t0cc, z.frame, c]
  k a < k b || a == b

/-- The first metered copy of a port in the order of R35. -/
def State.firstMetered (s : State) (p : Nat) : Option Nat :=
  ((s.queue p 10 ++ s.queue p 11).filter (fun c => s.isMetered (s.copy c))).foldl
    (fun a c => match a with | none => some c | some b => if s.precedes b c then some b else some c) none

/-- The requester's reads of a stripe that wait, as a list of readers in order. -/
def State.readersOf (s : State) (st : Nat) : List Nat := (s.fwd.reads.filter (fun r => r.cell % 128 == st)).map (·.reader)

/-- The cc, counted from `t`, in which the last of reader `rd`'s reads in the list is granted, when the pointer stands at `t` (R40). -/
def deferFrom (t : Nat) (rd : Nat) : Nat → List Nat → Nat
  | 0, _ => 0
  | n + 1, l =>
    match (List.range 64).find? (fun i => l.contains ((t + i) % 64)) with
    | none => 0
    | some i =>
      let g := (t + i) % 64
      if g = rd ∧ l.count rd = 1 then 0 else 1 + deferFrom (t + 1) rd n (l.erase g)

/-- The term r that a read asked for in this cc meets, by the reads that wait in it (R39, R40).  DEDUCED (log 111): condition 1 of R34 names r and
is judged in the cc in which the read is asked for, so it takes r as the arbiter's queues give it then. -/
def State.deferral (s : State) (rd cell : Nat) : Nat :=
  let l := s.readersOf (cell % 128) ++ [rd]
  if s.fwd.stripeR.contains (cell % 128) then 1 + deferFrom (s.ptr + 1) rd l.length l else deferFrom s.ptr rd l.length l

/-- The term r of a copy's first cell, were it dequeued in this cc. -/
def State.firstDefer (s : State) (x : Copy) : Nat :=
  match x.block with
  | none => 0
  | some a => s.deferral (sliceOf x.port % 32) ((s.fwd.blocks.get a).cells.headD 0)

/-- Can a copy's start block reach the egress MAC plane at cc `at_`, its first cell being read now (condition 1 of R34). -/
def State.readyWith (s : State) (x : Copy) (at_ : Nat) : Bool :=
  match x.readyAt with
  | some r => r + s.firstDefer x ≤ at_
  | none => false

/-- Is a port held by LPI or its wake at cc `at_` (R105). -/
def State.lpiHolds (s : State) (p at_ : Nat) : Bool :=
  (s.mp p).asleep || (match (s.mp p).lpiExit with | none => false | some t => at_ < t + 1500 * s.f MAC_EEE_TW_TX_US p)

/-- The conditions of R34 for a departure 18 cc from now; condition 4 asks for the gate as it will stand then. -/
def State.meterReady (s : State) (p c : Nat) : Bool :=
  let x := s.copy c
  let S := s.cc + 18
  s.target x ≤ S && s.readyWith x S && (s.mp p).freeAt ≤ S && (s.mp p).gen = [] && (s.mp p).openFrame.isNone &&
  !(s.fcPaused p x.queue S || s.on MAC_PORT_STAT_RF p || s.lpiHolds p S) &&
  natBit (s.gatesAhead p (s.nt + 18 * s.ntInc)) x.queue && s.heldOpen p x.queue

/-- May a metered copy of the port be dequeued or dropped in this cc. -/
def State.meterDue (s : State) (p : Nat) : Bool :=
  s.portUp p && (s.tp p).lastDequeue != s.cc + 1 &&
    (match s.firstMetered p with | none => false | some c => s.meterReady p c)

/-! ### The scheduler's decision (R253, R255, R256) -/

/-- May the scheduler make its own decision for the port in this cc (R253): not when a metered copy takes it (R256). -/
def State.decisionDue (s : State) (p : Nat) : Bool :=
  s.portUp p && (s.mp p).freeAt ≤ s.cc + 18 && (s.tp p).lastDequeue != s.cc + 1 && (s.mp p).gen = [] && (s.mp p).openFrame.isNone &&
  !s.meterDue p

/-- Drop a copy as stale (R198). -/
def State.staleDrop (s : State) (c : Nat) : State := (s.dropCopy c).count C_GEN_STALE_DROP

/-- One dequeue decision; a stale copy is dropped and another may be chosen (R198, R253). -/
def State.decide (s : State) (p : Nat) : Nat → State
  | 0 => s
  | fuel + 1 =>
    match s.chooseQueue p with
    | (s, none) => s
    | (s, some q) =>
      match (s.queue p q).head? with
      | none => s
      | some c =>
        let x := s.copy c
        if s.isStale x then (s.staleDrop c).decide p fuel
        else
          let l := s.schedLen x + 20
          let s := s.setDeficit p q (s.deficit p q - l)
          let s := s.setCopy c { x with charged := if x.lenKnown then 0 else l }
          s.dequeueCopy c false false

/-- DEQUEUE_DECISION (R253 to R255). -/
def execDequeueDecision (p : Fin 512) (s : State) : Host.Outcome State Fault Refusal :=
  .next (s.when (s.decisionDue p) fun s => s.decide p 4096)

/-! ### Late and dropped metered copies (R37) -/

/-- Raise CHIP_METER_WORST to a lateness (R37). -/
def State.worst (s : State) (d : Nat) : State :=
  let s := if s.f CHIP_METER_WORST_WORST_CC < d then s.setF CHIP_METER_WORST_WORST_CC (min d 4095) else s
  if 4095 < d then (s.setF CHIP_METER_WORST_OVER 1).setF CHIP_METER_WORST_WORST_CC 4095 else s

/-- A late metered copy raises CHIP_METER_WORST; the greatest lateness of this cc stays in it through a clear in the same cc (R45). -/
def State.meterWorst (s : State) (d : Nat) : State :=
  { s.worst d with cntNew := s.cntNew.upd (CHIP_METER_WORST.addr 0 0 0) (max d) }

/-- Dequeue or drop the first metered copy (R37, R256).  DESIGN CHOICE (log 112): a copy dropped for LATE_MAX uses the port's decision of that cc,
as one that is dequeued does; only for a stale drop does the spec say that it does not (R253). -/
def State.meterOut (s : State) (p c : Nat) : State :=
  let x := s.copy c
  let late := s.cc + 18 - s.target x
  if late = 0 then s.dequeueCopy c true false
  else
    let s := (s.meterWorst late).ev 0x024
    let mx := s.cf x.slot CHIP_METER_LATE_MAX
    if mx ≠ 0 ∧ mx < late then
      ((s.dropCopy c).countF CHIP_METER_DROP_COUNT).setTp p (fun t => { t with lastDequeue := s.cc + 1 })
    else (s.countF CHIP_METER_LATE_COUNT).dequeueCopy c true true

/-- METERED_DEQUEUE (R33 to R37, R256). -/
def execMeteredDequeue (p : Fin 512) (s : State) : Host.Outcome State Fault Refusal :=
  .next (s.when (s.portUp p && (s.tp p).lastDequeue != s.cc + 1) fun s =>
    match s.firstMetered p with
    | none => s
    | some c =>
      if !s.meterReady p c then s
      else if s.isStale (s.copy c) then s.staleDrop c
      else s.meterOut p c)

/-! ### Residue (R250 to R252) -/

/-- The oldest pending copy of a port and queue. -/
def State.oldestPending (s : State) (p q : Nat) : Option Nat :=
  (s.tm.residue.foldl (fun a e => a ++ e.pend) []).find? (fun c => (s.copy c).port == p && (s.copy c).queue == q)

/-- Has a residue entry expired in this cc (R252), under RES_MAX of the generation that its copies carry. -/
def State.pendExpired (s : State) (e : Residue) : Bool :=
  e.nt + s.cf (s.copy (e.pend.headD 0)).slot TM_CHIP_CFG_RES_MAX * 1000 * nsUnit ≤ s.nt

/-- The key of a port and queue. -/
def queueKey (p q : Nat) : Nat := 12 * p + q

/-- Is the queue the next of its egress slice whose oldest pending copy is judged in this cc: ascending port, then queue (R251). -/
def State.judgeNext (s : State) (p q : Nat) : Bool :=
  s.tm.residue.all (fun e => e.pend.all (fun c =>
    let x := s.copy c
    sliceOf x.port != sliceOf p || queueKey p q ≤ queueKey x.port x.queue || !s.portUp x.port || s.queueHeld x.port x.queue ||
    s.tm.judged.contains (queueKey x.port x.queue)))

/-- A refused lossless copy sets HDRM_OVF of its ingress port (R247). -/
def State.hdrmOvf (s : State) (x : Copy) : State := if x.lossless then s.flag TM_PORT_STAT_HDRM_OVF x.inPort else s

/-- RESIDUE_ADMIT (R251): the oldest pending copy of a queue is judged, once in a cc. -/
def State.residueAdmit (s : State) (p q : Nat) : State :=
  match s.oldestPending p q with
  | none => s
  | some c =>
    let x := s.copy c
    let s := { s with tm := { s.tm with judged := queueKey p q :: s.tm.judged } }
    if s.tm.residue.any (fun e => e.pend.contains c && s.pendExpired e) then s
    else if s.admits x then
      let s := s.unpend c
      let s := { s with tm := { s.tm with admitted := queueKey p q :: s.tm.admitted } }
      s.enqueueCopy c x
    else s.hdrmOvf x

/-- RESIDUE_ADMIT (R251): at most four copies per egress slice are admitted in one cc, in ascending order of port and queue. -/
def execResidueAdmit (p : Fin 512) (q : Fin 12) (s : State) : Host.Outcome State Fault Refusal :=
  .next (s.when (s.portUp p && !s.queueHeld p q && !s.tm.judged.contains (queueKey p q) && s.judgeNext p q &&
      (s.tm.admitted.filter (fun k => k / 192 == sliceOf p)).length < 4) fun s => s.residueAdmit p q)

/-- A pending copy expires (R252). -/
def State.expireCopy (s : State) (c : Nat) : State :=
  let x := s.copy c
  let s := (s.count C_TM_Q_RES_EXP 1 x.port x.queue).dropCopy c
  { s with tm := { s.tm with expired := queueKey x.port x.queue :: s.tm.expired } }

/-- RESIDUE_EXPIRY (R252): every copy of the frame still pending is dropped and counted. -/
def execResidueExpiry (f : Nat) (s : State) : Host.Outcome State Fault Refusal :=
  .next (match s.tm.residue.find? (fun e => e.frame == f) with
    | none => s
    | some e => s.when (s.pendExpired e) fun s => e.pend.foldl State.expireCopy s)

/-! ### Flushes (R60, R263) -/

/-- A copy is dropped at the crossing: its port is not UP, or a drain holds its queue (R60, R263).  DESIGN CHOICE (log 113): a multicast frame
with copies for several held queues counts once for each in CHIP_MODE_DRAIN_DROP. -/
def State.crossDrop (s : State) (p q : Nat) (cls : Option Nat) : State :=
  let s := (s.count C_TM_XDROP 1 p).ev 0x022 (sliceOf p) cls
  if s.queueHeld p q then s.countF CHIP_MODE_DRAIN_DROP_COUNT else s

/-- Take back the admission of a copy in the cc of a port-down event, which drops it at the crossing instead (R264). -/
def State.flushAdmitted (s : State) (c : Nat) : State :=
  let x := s.copy c
  (((s.uncount C_TM_Q_ENQ x.port x.queue).unev 0x020 (sliceOf x.port)).crossDrop x.port x.queue (tagCls x.tag)).dropCopy c

/-- Take back the charge of a decision in the cc of a port-down event, in which none is made (R264). -/
def State.undecide (s : State) (x : Copy) : State :=
  if (x.state = .dequeued ∨ x.state = .piped) ∧ x.deqCc = s.cc ∧ !x.metered then
    (s.setDeficit x.port x.queue (s.deficit x.port x.queue + (if x.charged = 0 then s.schedLen x + 20 else x.charged : Nat))).unev 0x021 (sliceOf x.port)
  else s

/-- Flush one copy: released, and counted in TM_Q_FLUSH of its queue (R263); `drain` tells whether a drain's flush takes it. -/
def State.flushCopy (s : State) (drain : Bool) (c : Nat) : State :=
  let x := s.copy c
  if x.state = .queued ∧ x.enq = s.cc then s.flushAdmitted c
  else
    let s := ((s.undecide x).count C_TM_Q_FLUSH 1 x.port x.queue).ev 0x023 (sliceOf x.port) (tagCls x.tag)
    let s := s.setCopy c { x with charged := if x.deqCc = s.cc then 0 else x.charged }
    let gone := if x.state = .queued ∨ x.state = .residue then [(queueKey x.port x.queue, x.slot, drain)] else []
    State.dropCopy { s with tm := { s.tm with flushGone := gone ++ s.tm.flushGone } } c

/-- A copy that has expired in the cc of its port's flush counts as flushed only (R252). -/
def State.expiredToFlush (s : State) (k : Nat) : State := (s.uncount C_TM_Q_RES_EXP (k / 12) (k % 12)).count C_TM_Q_FLUSH 1 (k / 12) (k % 12)

/-- The copies of a port that a flush takes: queued, in residue, or dequeued and not yet at the egress MAC plane. -/
def State.flushable (s : State) (p : Nat) : List Nat :=
  (s.fwd.copies.filter (fun e => e.2.port == p && e.2.state != .none && e.2.state != .sending)).map (·.1)

/-- The flush of a port begins (R263): copies are released, and the flush ends max(ceil(n/4), 512) + 16 cc later for n queued copies. -/
def State.startFlush (s : State) (p : Nat) : State :=
  let n := (List.range 12).foldl (fun a q => a + (s.queue p q).length) 0
  let s := (s.flushable p).foldl (State.flushCopy · false) s
  let s := (s.tm.expired.filter (· / 12 == p)).foldl State.expiredToFlush s
  let s := (s.setF TM_PORT_STAT_FLUSHING 1 p).replan p
  s.setTp p (fun t => { t with flushEnd := s.cc + max (ceilDiv n 4) 512 + 16 })

/-- The traffic manager's part of a port-down event (R263): the flush, and the re-pin engine when STG_REPIN_CTL.EN names a table
(R159). -/
def State.tmPortDown (s : State) (p : Nat) : State :=
  let s := s.startFlush p
  if s.f STG_REPIN_CTL_EN = 0 then s
  else State.setF { s with tab := { s.tab with repinWait := s.tab.repinWait ++ [p] } } STG_REPIN_STAT_ACTIVE 1

/-! ### XOFF, pause and PFC (R103, R104, R248) -/

/-- I > X, judged with the ACTIVE generation's settings (R248). -/
def State.xoffEnters (s : State) (p pr : Nat) : Bool :=
  natBit (s.ca TM_ING_CFG_LL p) pr && s.ingressLimit s.active p < s.f TM_ING_CNT_CELLS p pr

/-- I ≤ X - XON_DELTA, or I = 0 when X is not greater than XON_DELTA (R248). -/
def State.xoffLeaves (s : State) (p pr : Nat) : Bool :=
  let x := s.ingressLimit s.active p
  let d := s.ca TM_ING_CFG_XON_DELTA p
  if x ≤ d then s.f TM_ING_CNT_CELLS p pr == 0 else s.f TM_ING_CNT_CELLS p pr + d ≤ x

/-- Add a PFC change to the frame of this cc, or make a new frame (R104: one frame covers every change in one cc). -/
def addPfc (cc pr time : Nat) : List GenFrame → List GenFrame
  | [] => [{ fc := true, pfc := true, vector := 2 ^ pr, times := (List.range 8).map (fun i => if i = pr then time else 0), made := cc }]
  | g :: t =>
    if g.fc && g.pfc && g.made == cc then
      { g with vector := g.vector ||| 2 ^ pr, times := g.times.set pr time } :: t
    else g :: addPfc cc pr time t

/-- Queue a generated frame of a port. -/
def State.queueGen (s : State) (p : Nat) (g : GenFrame) : State :=
  s.setMp p (fun m => { m with gen := m.gen ++ [g] })

/-- Queue an Annex 31B pause frame. -/
def State.genPause (s : State) (p time : Nat) : State :=
  (s.queueGen p { fc := true, times := [time], made := s.cc }).setMp p (fun m => { m with fcLast := s.cc })

/-- Queue a PFC frame, or add to the one of this cc.  DESIGN CHOICE (log 114): the interval of the resends of R104 runs once for a port, from the
last flow-control frame queued, whatever its priorities and times. -/
def State.genPfc (s : State) (p pr time : Nat) : State :=
  s.setMp p (fun m => { m with gen := addPfc s.cc pr time m.gen, fcLast := s.cc })

/-- The frame that a change of one priority's XOFF calls for, while the port is UP (R104). -/
def State.xoffFrame (s : State) (p pr : Nat) (old new : Nat) : State :=
  let q := s.f MAC_PFC_TX_QUANTA p
  if !s.macUp p then s
  else if s.on MAC_FC_CFG_PFC_TX_EN p then s.genPfc p pr (if natBit new pr then q else 0)
  else if s.on MAC_FC_CFG_PAUSE_TX_EN p then
    if old = 0 ∧ new ≠ 0 then s.genPause p q else if old ≠ 0 ∧ new = 0 then s.genPause p 0 else s
  else s

/-- XOFF_CHANGE (R104, R248). -/
def execXoffChange (p : Fin 512) (pr : Fin 8) (s : State) : Host.Outcome State Fault Refusal :=
  let old := s.f TM_PORT_STAT_XOFF p
  .next (if natBit old pr then
      s.when (s.xoffLeaves p pr) fun s => (s.setF TM_PORT_STAT_XOFF (old - 2 ^ pr.val) p).xoffFrame p pr old (old - 2 ^ pr.val)
    else
      s.when (s.xoffEnters p pr) fun s => (s.setF TM_PORT_STAT_XOFF (old + 2 ^ pr.val) p).xoffFrame p pr old (old + 2 ^ pr.val))

/-- The frame that the XOFF state in force calls for (R104): at port-up and at each resend. -/
def State.xoffResend (s : State) (p : Nat) : State :=
  let x := s.f TM_PORT_STAT_XOFF p
  if x = 0 then s
  else if s.on MAC_FC_CFG_PFC_TX_EN p then
    (List.range 8).foldl (fun s pr => if natBit x pr then s.genPfc p pr (s.f MAC_PFC_TX_QUANTA p) else s) s
  else if s.on MAC_FC_CFG_PAUSE_TX_EN p then s.genPause p (s.f MAC_PFC_TX_QUANTA p)
  else s

/-- FC_RESEND (R104): half the duration of QUANTA has elapsed since the last flow-control frame. -/
def execFcResend (p : Fin 512) (s : State) : Host.Outcome State Fault Refusal :=
  .next (s.when (s.macUp p && (s.mp p).fcLast + ceilDiv (quantaCc (s.f MAC_PFC_TX_QUANTA p) (s.portRate p false)) 2 ≤ s.cc)
    fun s => s.xoffResend p)

/-! ### Gate list events (R257 to R261) -/

/-- GATE_STATE_CHANGE (R258): TM_GATE_STAT.GATES shows the state in force at the NT of this cc. -/
def execGateStateChange (p : Fin 512) (s : State) : Host.Outcome State Fault Refusal :=
  .next (s.setF TM_GATE_STAT_GATES (s.gatesNow p s.nt) p)

/-- BASE of the administrative list in whole ns. -/
def State.gateBase (s : State) (p : Nat) : Nat := s.getNs3 TM_GATE_BASE_HI_SEC_HI TM_GATE_BASE_MID_SEC_LO TM_GATE_BASE_LO_NS p

/-- GATE_SWAP_REQUEST (R259): a SWAP latches EN, LEN, BASE and CYCLE; one while PENDING is 1 is ignored and sets GL_REFUSED. -/
def State.gateSwapRequest (s : State) (p : Nat) : State :=
  if s.on TM_GATE_STAT_PENDING p then s.flag TM_GATE_STAT_GL_REFUSED p
  else
    let g : GateList := { en := s.on TM_GATE_CTL_EN p, len := s.f TM_GATE_CTL_LEN p, base := s.gateBase p, cycle := s.f TM_GATE_CYCLE_CYCLE p }
    let due := s.nt + 1000 * nsUnit
    let t := if due ≤ g.base * nsUnit then g.base * nsUnit
      else g.base * nsUnit + ceilDiv (due - g.base * nsUnit) (g.cycle * nsUnit) * (g.cycle * nsUnit)
    (s.setF TM_GATE_STAT_PENDING 1 p).setTp p (fun x => { x with latched := g, tsw := t })

/-- GATE_SWAP_REQUEST (R259). -/
def execGateSwapRequest (p : Fin 512) (s : State) : Host.Outcome State Fault Refusal := .next (s.gateSwapRequest p)

/-- GATE_SWAP (R259): at t_sw the administrative list becomes operational and begins its cycle 0 there. -/
def execGateSwap (p : Fin 512) (s : State) : Host.Outcome State Fault Refusal :=
  .next (s.when (s.on TM_GATE_STAT_PENDING p && (s.tp p).tsw ≤ s.nt) fun s =>
    let t := s.tp p
    let s := s.setTp p (fun x => { x with oper := t.swapped })
    let s := s.setF TM_GATE_STAT_OPER (1 - s.f TM_GATE_STAT_OPER p) p
    let s := (s.setF TM_GATE_STAT_PENDING 0 p).setF TM_GATE_STAT_OPER_EN (if t.latched.en then 1 else 0) p
    (s.flag TM_GATE_STAT_SWAPPED p).setF TM_GATE_STAT_GATES (s.gatesNow p s.nt) p)

/-! ### The multicast port (R157, R267) and the clears (R268) -/

/-- A GO of the multicast port takes its registers as they stand (R157, R267); while BUSY it is ignored and sets COLLIDE. -/
def State.mcGo (s : State) (read active : Bool) (group : Nat) (player : Bool := false) : State :=
  if s.on TM_MC_STAT_BUSY then s.flag TM_MC_STAT_COLLIDE
  else
    let ws := BitVec.ofNat 32 (s.f TM_MC_FLAGS_PRUNE) :: (List.range 16).map (fun i => s.rget TM_MC_DATA i)
    let a : Access := { go := s.cc, read := read, active := active, addr := group, data := ws, player := player }
    State.setF { s with tab := { s.tab with mcAcc := a } } TM_MC_STAT_BUSY 1

/-- MC_GROUP_WRITE (R267). -/
def execMcGroupWrite (grp : Fin 65536) (s : State) : Host.Outcome State Fault Refusal :=
  .next ((s.rset TM_MC_CTL (BitVec.ofNat 32 grp)).mcGo false false grp)

/-- MC_GROUP_READ (R267). -/
def execMcGroupRead (grp : Fin 65536) (active : Bool) (s : State) : Host.Outcome State Fault Refusal :=
  .next ((s.rset TM_MC_CTL (BitVec.ofNat 32 ((if active then 2 ^ 30 else 0) + 2 ^ 29 + grp))).mcGo true active grp)

/-- A map of 512 bits from its 16 words, word i holding ports 32 i onwards. -/
def mapOfWords (ws : List Word) : Nat := (List.range 16).foldl (fun a i => a + (ws.getD i 0).toNat * 2 ^ (32 * i)) 0

/-- The access of the multicast port lands (R157, R267): a write is refused while the shadow slot is not OPEN (R208). -/
def State.mcDone (s : State) : State :=
  let a := s.tab.mcAcc
  let fin := fun (s : State) (r : Nat) => ((s.setF TM_MC_STAT_BUSY 0).setF TM_MC_STAT_RESULT r).flag TM_MC_STAT_DONE
  if a.read then
    let g := (s.slot (if a.active then s.active else s.shadow)).mc.get a.addr
    let s := s.setF TM_MC_FLAGS_PRUNE (if g.prune then 1 else 0)
    fin ((List.range 16).foldl (fun s i => s.rset TM_MC_DATA (BitVec.ofNat 32 (natBits g.map (32 * i) 32)) i) s) 0
  else if s.shadowOpen || a.player then
    let g := s.slot s.shadow
    fin (s.setSlot s.shadow { g with mc := g.mc.set a.addr { map := mapOfWords a.data.tail, prune := wordBits (a.data.headD 0) 0 1 == 1 } }) 0
  else fin ((s.count C_GEN_WR_REFUSED).flag GEN_STAT_WR_CLOSED) 1

/-- TM_PORT_CLR (R268). -/
def State.tmPortClrCmd (s : State) (p : Nat) : State :=
  (List.range 12).foldl (fun s q => s.cclrs [C_TM_Q_ENQ, C_TM_Q_ADMIT_DROP, C_TM_Q_FLUSH, C_TM_Q_RES_EXP] p q) (s.cclr C_TM_XDROP p)

/-- TM_PORT_CLR. -/
def execTmPortClr (p : Fin 512) (s : State) : Host.Outcome State Fault Refusal := .next (s.tmPortClrCmd p.val)

/-- TM_CHIP_CLR (R268). -/
def State.tmChipClrCmd (s : State) : State :=
  s.cclrs [C_TM_MC_RES_FULL, C_TM_MC_EMPTY]

/-- TM_CHIP_CLR. -/
def execTmChipClr (s : State) : Host.Outcome State Fault Refusal := .next (s.tmChipClrCmd)

end Sys2Proof.Machine
end

