-- ==== Sys2Proof/Machine/Ends.lean ====
section
/-! DEFINITION. What the end of a frame settles: counter bytes and meter debits (R178, R179), the digest (R366), the deficits of DWRR (R255), its
copies and punt copies (R98, R107), and how a copy on the line ends before its frame is whole (R101, R107, R221). -/

namespace Sys2Proof.Machine

/-! ### Counters and meters (R178, R179) -/

/-- A counter entry counts, also into what it has counted in this cc (R189). -/
def State.tally (s : State) (k : Nat) (f : CountEntry → CountEntry) : State :=
  { s with tab := { s.tab with counts := s.tab.counts.upd k f, countsNew := s.tab.countsNew.upd k f } }

/-- Add to the frame count of a counter entry (saturating). -/
def State.tallyFrame (s : State) (k : Nat) : State :=
  s.tally k fun e => { e with frames := min (e.frames + 1) (2 ^ 48 - 1) }

/-- Add L to the byte count of a counter entry (saturating). -/
def State.tallyBytes (s : State) (l k : Nat) : State :=
  s.tally k fun e => { e with bytes := min (e.bytes + l) (2 ^ 48 - 1) }

/-- Is a meter enabled; does it meter frames. -/
def Meter.en (m : Meter) : Bool := wordBits m.cfg0 31 1 == 1
def Meter.pkt (m : Meter) : Bool := wordBits m.cfg0 30 1 == 1

/-- CIR, and PIR, which is stored as CIR when below it (R189). -/
def Meter.cir (m : Meter) : Nat := wordBits m.cfg0 0 22
def Meter.pir (m : Meter) : Nat := wordBits m.cfg1 0 22

/-- CBS and PBS in tokens. -/
def Meter.cbs (m : Meter) : Nat := wordBits m.cfg2 0 24
def Meter.pbs (m : Meter) : Nat := wordBits m.cfg3 0 24

/-- One token in the meter's units: NT units of 2^-40 ns credit CIR units each, so that a Mb/s gives a byte every 8,000 ns and a
thousand frames per second a frame every 1,000,000 ns. -/
def Meter.token (m : Meter) : Nat := (if m.pkt then 1000000 else 8000) * 2 ^ 40

/-- A meter refilled up to an NT (R179). -/
def Meter.refill (m : Meter) (nt : Nat) : Meter :=
  let d := nt - m.last
  { m with
    c := min (m.c + (m.cir * d : Nat)) (m.cbs * m.token : Nat)
    p := min (m.p + (m.pir * d : Nat)) (m.pbs * m.token : Nat)
    last := nt }

/-- The colour that a meter gives (R179). -/
def Meter.decide (m : Meter) (aware : Bool) (colour : Nat) : Nat :=
  if aware && colour == 3 then 3
  else if m.p ≤ 0 then 3
  else if m.c ≤ 0 then 2
  else if aware && colour == 2 then 2 else 1

/-- Debit `n` tokens: a green frame from both buckets, a yellow one from P; byte buckets never stand below -16,000. -/
def Meter.debit (m : Meter) (colour n : Nat) : Meter :=
  let lo : Int := -(16000 * m.token : Nat)
  let d : Int := (n * m.token : Nat)
  if colour = 1 then { m with c := max (m.c - d) lo, p := max (m.p - d) lo }
  else if colour = 2 then { m with p := max (m.p - d) lo } else m

/-- Give a meter its new state. -/
def State.setMeter (s : State) (k : Nat) (m : Meter) : State :=
  { s with tab := { s.tab with meters := s.tab.meters.set k m } }

/-- The debit of L bytes at a frame's end. -/
def State.debitBytes (s : State) (l : Nat) (d : Nat × Nat) : State :=
  s.setMeter d.1 ((s.tab.meters.get d.1).debit d.2 l)

/-- L of an ended frame or copy goes to the counters and meters that wait for it. -/
def State.settleL (s : State) (n : Nat) (tallies : List Nat) (debits : List (Nat × Nat)) : State :=
  debits.foldl (fun s d => s.debitBytes n d) (tallies.foldl (fun s k => s.tallyBytes n k) s)

/-! ### The digest (R366) -/

/-- Change telemetry's own state. -/
def State.setTlm (s : State) (f : TlmState → TlmState) : State := { s with tlm := f s.tlm }

/-- Telemetry notes an event of this cc, which it counts when the cc ends: behind a boundary of the cc (R364). -/
def State.noteTlm (s : State) (n : TlmNote) : State := s.setTlm (fun t => { t with noted := t.noted ++ [n] })

/-- The bytes of a digested frame. -/
def State.digestBytes (s : State) (k : Option Nat) (n : Nat) : State :=
  match k with
  | some k => s.noteTlm (.bytes k n)
  | none => s

/-! ### The bytes of a copy -/

/-- The cells of a copy delivered from its first on without a gap, from cell `i`. -/
def cellRun (t : Tab (List Byte)) : Nat → Nat → List Byte
  | _, 0 => []
  | i, n + 1 => if t.get i = [] then [] else bytesAt (t.get i) 0 256 ++ cellRun t (i + 1) n

/-- The frame bytes of a copy delivered so far without a gap, up to its length, as the buffer holds them. -/
def Copy.data (x : Copy) : List Byte :=
  let b := (cellRun x.got 0 64).drop 64
  if x.lenKnown then b.take x.len else b

/-- The bytes of a copy that the egress MAC can send: the deparsed head and the bytes behind it, without the FCS of a frame that has ended. -/
def Copy.body (x : Copy) : List Byte :=
  let r := x.data.drop 192
  let b := x.out ++ x.behind.take r.length ++ r.drop x.behind.length
  if x.lenKnown then b.take (x.out.length + (x.len - 192) - 4) else b

/-- Bytes of a frame that a port has sent by the end of this cc when its start block passed in cc `start`: behind the 8 bytes of the start block. -/
def State.sentBy (s : State) (p start : Nat) : Nat := (s.cc + 1 - start) * s.portRate p false / 1200 - 8

/-! ### The line (R38, R90, R97) -/

/-- Do the lanes of a port return what it sends to its own receiver: near-end loopback (R90).  Those of a trunk port return trunk frames. -/
def State.looped (s : State) (p : Nat) : Bool :=
  let ls := s.portLanes p
  ls ≠ [] && !s.isTrunk s.active p && ls.all (fun n => s.f LANE_STAT_STATE n == 7)

/-- The group of a trunk port, as its key in the trunk layer's state. -/
def State.trunkKey (s : State) (p : Nat) : Option Nat :=
  if s.isTrunk s.active p then (s.groupAt s.active (p / 16) (p % 16)).map (fun g => 8 * (p / 16) + g) else none

/-- The blocks of a frame that a trunk port has sent wait for their trunk frames (R117). -/
def State.trunkSend (s : State) (p : Nat) (wire : List Byte) : State :=
  match s.trunkKey p with
  | some k => { s with trk := { s.trk with grp := s.trk.grp.upd k (fun x => { x with txBlocks := x.txBlocks ++ frameBlocks wire }) } }
  | none => s

/-- A frame has been put on a port's line, as sent.  In a near-end loopback it arrives at the port's own receiver; in far-end loopback local
transmit data is discarded (R90). -/
def State.toLine (s : State) (p : Nat) (wire : List Byte) : State :=
  if s.looped p then
    let w := s.fwd.wait.get p
    let s := s.setMp p (fun m => { m with sent := wire })
    if 4 ≤ w.length then (if p < 512 then (s.count C_PRS_SLOT_DROP 1 (sliceOf p)).ev 0x011 (sliceOf p) else s)
    else { s with fwd := { s.fwd with wait := s.fwd.wait.set p (w ++ [{ bytes := wire, ready := s.nt }]) } }
  else if (s.portLanes p).any (fun n => s.f LANE_CTL_LOOP n == 3) then s
  else (s.setMp p (fun m => { m with sent := wire })).trunkSend p wire

/-- The frame on a port's line ends in this cc with the complement of the FCS over `b`, the bytes sent (R98, R101, R221). -/
def State.endStomped (s : State) (c : Nat) (b : List Byte) : State :=
  let x := s.copy c
  let wire := stompFrame b
  let s := (s.settleL wire.length x.tallies x.debits).endCopy c false
  let r := s.portRate x.port false
  let e := max (s.cc + 1) (x.start + termS wire.length r) + termG r
  ((s.toLine x.port wire).setMp x.port (fun m => { m with openFrame := none, lineEnd := e })).replan x.port

/-- A frame in flight at the egress MAC is cut off at the next block and counted in TX_ABORT (R107); what was sent of it is its L. -/
def State.abortCopy (s : State) (c : Nat) : State :=
  let x := s.copy c
  let b := x.body.take (s.sentBy x.port x.start)
  let s := ((s.settleL b.length x.tallies x.debits).count C_TX_ABORT 1 x.port).endCopy c false
  s.setMp x.port (fun m => { m with openFrame := none, sent := b, lineEnd := s.cc + 1, freeAt := s.cc + 1 })

/-- The copies that are being sent on a port. -/
def State.sendingOn (s : State) (p : Nat) : List Nat :=
  (s.fwd.copies.filter (fun e => e.2.port == p && e.2.state == .sending)).map (·.1)

/-! ### The end of a received frame (R98, R107, R178, R255) -/

/-- The copies of a frame. -/
def State.copiesOf (s : State) (f : Nat) : List Nat :=
  (s.fwd.copies.filter (fun e => e.2.frame == f && e.2.fromPort && e.2.state != .none)).map (·.1)

/-- Give up a punt copy of a frame that turned out bad: its reference is released and the in-flight count falls. -/
def State.rxGiveUp (s : State) (r : RxFrame) : State := (s.release r.block r.tag (sliceOf r.inPort % 32) r.epoch).infl r.slot (-1)

/-- Drop the punt copies of a frame that have not reached their ring. -/
def State.rxDrop (s : State) (f : Nat) : State :=
  let gone := s.stk.rx.foldl (fun a e => a ++ e.2.filter (fun r => r.frame == f && !r.ended)) []
  let s := gone.foldl State.rxGiveUp s
  (List.range 32).foldl (fun s k =>
    { s with stk := { s.stk with rx := s.stk.rx.set k ((s.stk.rx.get k).filter (fun r => !(r.frame == f && !r.ended))) } }) s

/-- Punt copies of a frame get its bytes. -/
def State.rxEnd (s : State) (f n : Nat) (b : List Byte) : State :=
  let upd := fun (r : RxFrame) => if r.frame = f && !r.ended then { r with ended := true, bytes := b, len := n } else r
  { s with stk := { s.stk with rx := (List.range 32).foldl (fun t k => t.upd k (fun l => l.map upd)) s.stk.rx } }

/-- L of a copy whose frame is `n` bytes long: a mirror copy is cut to 64 TRUNC bytes (R189). -/
def truncTo (trunc n : Nat) : Nat := if trunc = 0 then n else min n (64 * trunc)

/-- The difference between what DWRR charged at a decision without a known L and L + 20 is added back (R255); on a port with telemetry role
INSERT both hold 40 bytes more (R361). -/
def State.addBack (s : State) (p q charged l : Nat) : State :=
  if charged = 0 then s
  else
    let ins := if s.f TLM_PORT_CFG_ROLE p = 1 then 40 else 0
    s.setDeficit p q (s.deficit p q + ((charged : Int) - (l + ins + 20 : Nat)))

/-- A copy learns the end of its frame, `n` bytes long as stored; when the frame is bad the copy is to end with an inverted FCS (R98). -/
def State.copyEnd (s : State) (n : Nat) (good : Bool) (c : Nat) : State :=
  let x := s.copy c
  let l := truncTo x.trunc n
  (s.setCopy c { x with ended := true, lenKnown := true, len := l, charged := 0, bad := x.bad || !good }).addBack x.port x.queue x.charged l

/-- Are all cells of an ended frame with a writer queue, or written. -/
def Frame.stored (x : Frame) : Bool := x.fate != .open && (x.block.isNone || ceilDiv (64 + x.bytes.length) 256 ≤ x.written)

/-- Forget a frame that is past its enqueue and stored. -/
def State.tidyFrame (s : State) (f : Nat) : State := if (s.frame f).stage = .done && (s.frame f).stored then s.setFrame f {} else s

/-- A frame of the pipeline has ended with a fate, its L being the bytes received: all that waits for L is settled, and its copies learn it. -/
def State.frameOver (s : State) (f : Nat) (fate : Fate) : State :=
  let x := s.frame f
  let s := (s.settleL x.len x.tallies x.debits).digestBytes x.digest x.len
  let s := x.owed.foldl (fun s o => s.addBack o.1 o.2.1 o.2.2.1 (truncTo o.2.2.2 x.bytes.length)) s
  let s := s.setFrame f { x with fate := fate, tallies := [], debits := [], digest := none, owed := [] }
  let s := (s.copiesOf f).foldl (fun s c => s.copyEnd x.bytes.length (fate == .good) c) s
  (if fate = .good then s.rxEnd f x.len x.bytes else s.rxDrop f).tidyFrame f

/-- A received frame in flight on a port that leaves UP is ended as a frame longer than the bytes received (R107). -/
def State.cutFrame (s : State) (f : Nat) : State :=
  let x := s.frame f
  if x.control || x.hello || 512 ≤ x.inPort then s.setFrame f {} else s.frameOver f .cut

/-- The frames in flight from a port. -/
def State.receivingOn (s : State) (p : Nat) : List Nat :=
  (s.fwd.frames.filter (fun e => e.2.inPort == p && e.2.stage != .none && e.2.fate == .open)).map (·.1)

end Sys2Proof.Machine
end

