-- ==== Sys2Proof/Machine/Parser.lean ====
section
/-! DEFINITION. The parser program, the frame record and the deparser (R139 to R146, R176). -/

namespace Sys2Proof.Machine

/-! ### Places in the frame record (R144, R145) -/

def mInPort : Nat := 0x180
def mSlice : Nat := 0x182
def mKct : Nat := 0x183
def mLen : Nat := 0x184
def mPass : Nat := 0x186
def mParseErr : Nat := 0x187
def mArrival : Nat := 0x188
def mHdrCount : Nat := 0x18C
def mFlags : Nat := 0x18D
def mLastState : Nat := 0x18E
def mHdrStack : Nat := 0x190
def cT0 : Nat := 0x1C0
def cGen : Nat := 0x1CC
def cInPort : Nat := 0x1D0
def cEgPort : Nat := 0x1D2
def cQueue : Nat := 0x1D4
def cDisp : Nat := 0x1D5
def cMcGroup : Nat := 0x1D6
def cMirror : Nat := 0x1D8
def cDropReason : Nat := 0x1D9
def cHobCtx : Nat := 0x1DA
def cFlowHash : Nat := 0x1DC
def cFlags : Nat := 0x1FF

/-- The record bytes that hold values which depend on timing (R168): T0, M.ARRIVAL_OFFSET and M.K_CT. -/
def timingByte (o : Nat) : Bool := (0x1C0 ≤ o && o ≤ 0x1CB) || (0x188 ≤ o && o ≤ 0x18B) || o == 0x183

/-- `n` record bytes from `o` as an opcode fetches them: bytes that depend on timing read 0 (R168). -/
def fetch (rec : List Byte) (o n : Nat) : List Byte :=
  (List.range n).map (fun i => if timingByte (o + i) then 0 else rec.getD (o + i) 0)

/-- The recorded headers of a record: type ID and byte offset of each HDR_STACK entry (R144). -/
def headers (rec : List Byte) : List (Nat × Nat) :=
  (List.range (min (fieldAt rec mHdrCount 1) 16)).map (fun i =>
    let v := fieldAt rec (mHdrStack + 2 * i) 2
    (v / 512, v % 512))

/-- Region C of a record. -/
def regionC (rec : List Byte) : List Byte := bytesAt rec cT0 64

/-! ### The program (R140, R141) -/

/-- A word of slice `sl`'s parser program in a generation slot; addresses from 0x1400 hold no word. -/
def GenSlot.progWord (g : GenSlot) (sl a : Nat) : Word := if a < 0x1400 then g.prog.get (0x2000 * sl + a) else 0

/-- Where parsing stands: header start, state, the headers met, the extractions made and the record. -/
structure Parse where
  pos : Nat := 0
  state : Nat := 0
  hdrs : List (Nat × Nat) := []
  extracts : List Extract := []
  record : List Byte := []
  err : Nat := 0
  last : Nat := 0

/-- The bytes that a parse may reach: all below `bound`; `code` is the error of a reach beyond it (1 SHORT, 2 WINDOW). -/
structure Reach where
  bytes : List Byte
  bound : Nat
  code : Nat

/-- A select or length byte: 0 at or beyond the bound (R140). -/
def Reach.byte (r : Reach) (i : Nat) : Nat := if i < r.bound then (r.bytes.getD i 0).toNat else 0

/-- One extraction entry (R140 to R142). -/
def extractOne (r : Reach) (p : Parse) (w : Word) : Parse :=
  if p.err ≠ 0 ∨ wordBits w 31 1 = 0 then p
  else
    let n := wordBits w 8 6 + 1
    let a := p.pos + wordBits w 14 8
    let d := wordBits w 22 9
    if r.bound < a + n then { p with err := r.code }
    else { p with record := putBytes p.record d (bytesAt r.bytes a n), extracts := p.extracts ++ [{ dst := d, pos := a, len := n }] }

/-- The length of the header at `pos` (R140). -/
def headerLen (r : Reach) (pos : Nat) (w0 w1 : Word) : Nat :=
  let c := wordBits w0 16 9
  if wordBits w1 25 1 = 0 then c
  else
    let b := r.byte (pos + wordBits w0 8 8)
    c + ((b &&& wordBits w0 0 8) / 2 ^ wordBits w1 29 3) * 2 ^ wordBits w1 26 3

/-- The 32-bit select value (R140). -/
def selectValue (r : Reach) (pos : Nat) (w1 : Word) : Nat :=
  let o0 := pos + wordBits w1 8 8
  let o1 := pos + wordBits w1 0 8
  r.byte o0 * 2 ^ 24 + r.byte (o0 + 1) * 2 ^ 16 + r.byte o1 * 2 ^ 8 + r.byte (o1 + 1)

/-- Does transition entry `e` match in state `x` with select value `v` (R141). -/
def transMatches (g : GenSlot) (sl x v e : Nat) : Bool :=
  let w2 := g.progWord sl (0x800 + 3 * e + 2)
  wordBits w2 31 1 == 1 && wordBits w2 23 8 == x &&
    (v &&& (g.progWord sl (0x800 + 3 * e + 1)).toNat) ==
      ((g.progWord sl (0x800 + 3 * e)).toNat &&& (g.progWord sl (0x800 + 3 * e + 1)).toNat)

/-- Walk the program from the current state; `fuel` bounds the states entered to 32 (R142). -/
def parseFrom (g : GenSlot) (sl : Nat) (r : Reach) : Nat → Parse → Parse
  | 0, p => { p with err := 3 }
  | fuel + 1, p =>
    let w0 := g.progWord sl (8 * p.state)
    let w1 := g.progWord sl (8 * p.state + 1)
    let p := { p with last := p.state }
    let ty := wordBits w0 25 7
    if ty ≠ 0 ∧ p.hdrs.length = 16 then { p with err := 3 }
    else
      let p := if ty = 0 then p else { p with hdrs := p.hdrs ++ [(ty, p.pos)] }
      let p := (List.range 6).foldl (fun p i => extractOne r p (g.progWord sl (8 * p.state + 2 + i))) p
      let len := headerLen r p.pos w0 w1
      if p.err ≠ 0 then p
      else if r.bound < p.pos + len then { p with err := r.code }
      else
        match (List.range 1024).find? (transMatches g sl p.state (selectValue r p.pos w1)) with
        | none => p
        | some e =>
          let w2 := g.progWord sl (0x800 + 3 * e + 2)
          if wordBits w2 11 4 ≠ 0 then { p with err := wordBits w2 11 4 }
          else if wordBits w2 10 1 = 1 then p
          else parseFrom g sl r fuel { p with pos := p.pos + len, state := wordBits w2 15 8 }

/-- Parse a frame into a record that is zero but for region C. -/
def runParser (g : GenSlot) (sl : Nat) (r : Reach) (rec : List Byte) : Parse :=
  parseFrom g sl r 32 { record := rec }

/-- The header stack as the 32 bytes of M.HDR_STACK. -/
def stackBytes (hdrs : List (Nat × Nat)) : List Byte :=
  bytesAt (hdrs.foldl (fun a h => a ++ natBytes 2 (h.1 * 512 + h.2 % 512)) []) 0 32

/-- The bound of an ingress parse: the start of the FCS of a frame whose end is within the lead, else byte 511 (R142). -/
def ingressReach (bytes : List Byte) (whole : Bool) : Reach :=
  if whole && bytes.length ≤ 516 then { bytes := bytes, bound := bytes.length - 4, code := 1 }
  else { bytes := bytes.take 512, bound := 512, code := 2 }

/-- The bound of an egress parse of the frame bytes in the first cell: all 192 of them, or the start of the FCS of a frame that ends there
(`whole`; R146). -/
def egressReach (bytes : List Byte) (whole : Bool) : Reach :=
  if whole then { bytes := bytes, bound := bytes.length - 4, code := 1 } else { bytes := bytes.take 192, bound := 192, code := 2 }

/-- Region C as the parser writes it at t0 (R145). -/
def freshC (t0 gen inPort : Nat) : List Byte :=
  ntBytes t0 ++ natBytes 4 gen ++ natBytes 2 inPort ++ List.replicate 46 0

/-- The record after the ingress parse (R143, R144): region M from the frame and the parse, region C as given. -/
def ingressRecord (fr : Frame) (p : Parse) (slice : Nat) (whole trunk : Bool) : List Byte :=
  let r := putBytes p.record mInPort (natBytes 2 fr.inPort)
  let r := putBytes r mSlice (natBytes 1 slice)
  let r := putBytes r mKct (natBytes 1 fr.kct)
  let r := putBytes r mLen (natBytes 2 (if whole then 0x8000 + fr.bytes.length % 0x4000 else 0))
  let r := putBytes r mPass (natBytes 1 fr.pass)
  let r := putBytes r mParseErr (natBytes 1 p.err)
  let r := putBytes r mArrival (natBytes 4 fr.arrival)
  let r := putBytes r mHdrCount (natBytes 1 p.hdrs.length)
  let r := putBytes r mFlags (natBytes 1 (if trunk then 1 else 0))
  let r := putBytes r mLastState (natBytes 1 p.last)
  putBytes r mHdrStack (stackBytes p.hdrs)

/-- The record after the egress parse (R146): F, HDR_COUNT and HDR_STACK rebuilt, every other M field 0. -/
def egressRecord (p : Parse) : List Byte :=
  let r := putBytes p.record mHdrCount (natBytes 1 p.hdrs.length)
  putBytes r mHdrStack (stackBytes p.hdrs)

/-! ### The deparser (R146, R176) -/

/-- F written back: each extraction's bytes return to the frame positions they were taken from. -/
def writeBack (rec frame : List Byte) (xs : List Extract) : List Byte :=
  xs.foldl (fun b x => putBytes b x.pos (bytesAt rec x.dst x.len)) frame

/-- Is frame position `i` removed by a pop. -/
def popped (es : List Edit) (i : Nat) : Bool := es.any (fun e => !e.push && e.pos ≤ i && i < e.pos + e.len)

/-- The bytes that the pushes at position `i` insert, in the order of execution. -/
def pushesAt (rec : List Byte) (es : List Edit) (i : Nat) : List Byte :=
  (es.filter (fun e => e.push && e.pos == i)).foldl (fun a e => a ++ fetch rec e.src e.len) []

/-- Apply an edit list from frame position `i` on (R176). -/
def editFrom (rec : List Byte) (es : List Edit) : Nat → List Byte → List Byte
  | i, [] => pushesAt rec es i
  | i, b :: t =>
    pushesAt rec es i ++ (if popped es i then [] else [b]) ++ editFrom rec es (i + 1) t

/-- The frame as deparsed: F written back, then the edit list applied. -/
def deparse (rec frame : List Byte) (xs : List Extract) (es : List Edit) : List Byte :=
  let b := writeBack rec frame xs
  if es.isEmpty then b else editFrom rec es 0 b

/-- Bytes pushed by an edit list. -/
def pushedBytes (es : List Edit) : Nat := es.foldl (fun a e => if e.push then a + e.len else a) 0

/-- How the edit list changes a frame of `n` bytes: the length of the deparsed frame. -/
def editedLen (es : List Edit) (n : Nat) : Nat :=
  pushedBytes es + ((List.range n).filter (fun i => !popped es i)).length

end Sys2Proof.Machine
end

