-- ==== Sys2Proof/Machine/Lookup.lean ====
section
/-! DEFINITION. Match resources of a stage and the lookups of its four table slots (R148 to R154, R158). -/

namespace Sys2Proof.Machine

/-! ### Where a stage's memories stand in the tables of the model -/

/-- The number of stage `g` of slice `sl`. -/
def stageNo (sl g : Nat) : Nat := 18 * sl + g

/-- The key of SRAM row `row` (0 to 32,767: 1,024 u + row) of a stage. -/
def sramKey (sl g row : Nat) : Nat := 32768 * stageNo sl g + row

/-- The key of ternary entry `e` (0 to 2,047: 128 b + entry) of a stage. -/
def ternKey (sl g e : Nat) : Nat := 2048 * stageNo sl g + e

/-- The key of key-map entry `a` (16 map + entry) of a stage. -/
def keymapKey (sl g a : Nat) : Nat := 256 * stageNo sl g + a

/-- The key of action memory word `a` (8 bundle + word) of a stage. -/
def actKey (sl g a : Nat) : Nat := 8192 * stageNo sl g + a

/-! ### Key maps (R149) -/

/-- The valid entries of a key map: offset and length. -/
def GenSlot.keymapEntries (s : GenSlot) (sl g m : Nat) : List (Nat × Nat) :=
  (List.range 16).filterMap (fun i =>
    let w := s.keymap.get (keymapKey sl g (16 * m + i))
    if wordBits w 31 1 = 1 then some (wordBits w 22 9, wordBits w 17 5 + 1) else none)

/-- The number of bytes that a key map gathers. -/
def keymapLen (es : List (Nat × Nat)) : Nat := es.foldl (fun a e => a + e.2) 0

/-- Does a key map reach past byte 511. -/
def keymapPast (es : List (Nat × Nat)) : Bool := es.any (fun e => 512 < e.1 + e.2)

/-- The key bytes of a key map, for a table lookup or for HASH: bytes that depend on timing read as 0 (R168, and R5: no lookup's outcome depends on
time; DEDUCED for the lookup, log 75). -/
def gather (rec : List Byte) (es : List (Nat × Nat)) : List Byte :=
  es.foldl (fun a e => a ++ fetch rec e.1 e.2) []

/-! ### Table slots -/

/-- The configuration of one table slot (STG_TBL_ registers). -/
structure Slot where
  on : Bool
  kind : Nat
  keymap : Nat
  dWords : Nat
  keyBytes : Nat
  units : List Nat
  blocks : List Nat
  ifHdr : Nat
  defAction : Nat
  seed : Nat

/-- The positions of the set bits among the low `w` bits, ascending. -/
def setBits (w n : Nat) : List Nat := (List.range w).filter (natBit n)

/-- Table slot `t` of a stage in a generation slot. -/
def GenSlot.tblSlot (x : GenSlot) (sl g t : Nat) : Slot :=
  { on := x.f STG_TBL_CFG_EN sl g t == 1
    kind := x.f STG_TBL_CFG_KIND sl g t
    keymap := x.f STG_TBL_CFG_KEYMAP sl g t
    dWords := x.f STG_TBL_CFG_D_WORDS sl g t
    keyBytes := x.f STG_TBL_CFG_KEY_BYTES sl g t
    units := setBits 32 (x.f STG_TBL_UNITS_UNITS sl g t)
    blocks := setBits 16 (x.f STG_TBL_CFG_TBLK sl g t)
    ifHdr := x.f STG_TBL_DEF_IF_HDR sl g t
    defAction := x.f STG_TBL_DEF_DEF_ACTION sl g t
    seed := x.f STG_TBL_SEED_SEED sl g t }

def kindExact : Nat := 0
def kindDirect : Nat := 1
def kindLpm : Nat := 2
def kindTernary : Nat := 3
def kindPin : Nat := 4

/-- The width in bits of an EXACT entry (R150). -/
def Slot.exactWidth (s : Slot) : Nat := 32 * ceilDiv (18 + 32 * s.dWords + 8 * s.keyBytes) 32

/-- The width in bits of one version of a DIRECT entry (R151). -/
def Slot.versionWidth (s : Slot) : Nat := 32 * ceilDiv (17 + 32 * s.dWords) 32

/-- Rows that a wide entry of `w` bits spans. -/
def entrySpan (w : Nat) : Nat := ceilDiv w 128

/-- Entries of `w` bits that one row packs. -/
def entriesPerRow (w : Nat) : Nat := 128 / w

/-- Row `r` of the table whose units are `units` (1,024 rows in each, in ascending order). -/
def State.tblRow (s : State) (sl g : Nat) (units : List Nat) (r : Nat) : Nat :=
  s.tab.sram.get (sramKey sl g (1024 * units.getD (r / 1024) 0 + r % 1024))

/-- `n` rows from row `r`, the first in the low bits. -/
def State.tblRows (s : State) (sl g : Nat) (units : List Nat) (r : Nat) : Nat → Nat
  | 0 => 0
  | n + 1 => s.tblRow sl g units r + 2 ^ 128 * s.tblRows sl g units (r + 1) n

/-- Entry `e` of `w` bits of a table, packed or spanning as R150 lays entries out; none beyond the table's rows. -/
def State.tblEntry (s : State) (sl g : Nat) (units : List Nat) (w e : Nat) : Option Nat :=
  let rows := 1024 * units.length
  if w ≤ 128 then
    let n := entriesPerRow w
    if e / n < rows then some (natBits (s.tblRow sl g units (e / n)) (w * (e % n)) w) else none
  else
    let k := entrySpan w
    if (e + 1) * k ≤ rows then some (s.tblRows sl g units (e * k) k % 2 ^ w) else none

/-- What a lookup delivers (R154). -/
structure Look where
  hit : Bool := false
  index : Nat := 0
  data : List Nat := []
  looked : Bool := false

/-- Data words above bit `b` of an entry. -/
def dataWords (e b n : Nat) : List Nat := (List.range n).map (fun d => natBits e (b + 32 * d) 32)

/-- The entries of bucket `b` of a way whose units are `units`. -/
def State.exactBucket (s : State) (sl g : Nat) (units : List Nat) (w b : Nat) : List Nat :=
  if w ≤ 128 then (List.range (entriesPerRow w)).filterMap (fun i => s.tblEntry sl g units w (b * entriesPerRow w + i))
  else (s.tblEntry sl g units w b).toList

/-- The lookup of one way of an EXACT table (R150): the first matching entry of its bucket. -/
def State.exactWay (s : State) (sl g n : Nat) (t : Slot) (units : List Nat) (seed : Nat) (key : List Byte) : Option Nat :=
  let w := t.exactWidth
  let rows := 1024 * units.length
  let buckets := if w ≤ 128 then rows else rows / entrySpan w
  if buckets = 0 then none
  else
    let b := crc32c (natBytes 4 seed ++ key) % buckets
    (s.exactBucket sl g units w b).find? (fun e =>
      natBit e n && natBits e (18 + 32 * t.dWords) (8 * t.keyBytes) == beNat key)

/-- The lookup of an EXACT table (R150): way 0 wins, and a hit in both ways is reported. -/
def State.lookExact (s : State) (sl g n : Nat) (t : Slot) (key : List Byte) : Option Look × Bool :=
  let k := bytesAt key 0 t.keyBytes
  let half := t.units.length / 2
  let a := s.exactWay sl g n t (t.units.take half) t.seed k
  let b := s.exactWay sl g n t (t.units.drop half) (2 ^ 32 - 1 - t.seed) k
  let mk := fun e => { hit := true, index := natBits e 2 16, data := dataWords e 18 t.dWords, looked := true : Look }
  match a, b with
  | some e, some _ => (some (mk e), true)
  | some e, none => (some (mk e), false)
  | none, some e => (some (mk e), false)
  | none, none => (none, false)

/-- The version for generation slot `n` of entry `e` of a DIRECT table (R151). -/
def State.directVersion (s : State) (sl g n : Nat) (t : Slot) (e : Nat) : Option Nat :=
  (s.tblEntry sl g t.units (2 * t.versionWidth) e).map (fun x => natBits x (t.versionWidth * n) t.versionWidth)

/-- The lookup of a DIRECT table (R151). -/
def State.lookDirect (s : State) (sl g n : Nat) (t : Slot) (e : Nat) : Option Look :=
  match s.directVersion sl g n t e with
  | none => none
  | some v => if natBit v 0 then some { hit := true, index := natBits v 1 16, data := dataWords v 17 t.dWords, looked := true } else none

/-- The version for generation slot `n` of bucket `e` of a PIN table (R158). -/
def State.pinVersion (s : State) (sl g n : Nat) (units : List Nat) (e : Nat) : Option Nat :=
  (s.tblEntry sl g units 64 e).map (fun x => natBits x (32 * n) 32)

/-- The lookup of a PIN table (R154, R158). -/
def State.lookPin (s : State) (sl g n : Nat) (t : Slot) (e : Nat) : Option Look :=
  match s.pinVersion sl g n t.units e with
  | none => none
  | some v =>
    if natBit v 31 then
      some { hit := true, index := t.defAction / 2 * 2, data := if t.dWords = 0 then [] else [v % 4096], looked := true }
    else none

/-- The ternary entries of a slot's blocks in table order. -/
def Slot.ternEntries (t : Slot) : List Nat :=
  t.blocks.foldl (fun a b => a ++ (List.range 128).map (128 * b + ·)) []

/-- The number in table order of the first matching entry (R153): presence bit and masked key. -/
def State.ternFind (s : State) (sl g n : Nat) (t : Slot) (key : Nat) : Option Nat :=
  t.ternEntries.findIdx? (fun e =>
    let x := s.tab.tern.get (ternKey sl g e)
    natBit x.p n && (key &&& x.mask) == (x.key &&& x.mask))

/-- The lookup of a TERNARY table (R153). -/
def State.lookTernary (s : State) (sl g n : Nat) (t : Slot) (key : List Byte) : Option Look :=
  match s.ternFind sl g n t (beNat (bytesAt key 0 20)) with
  | none => none
  | some e =>
    if t.units = [] then some { hit := true, index := t.defAction / 2 * 2, data := [], looked := true }
    else
      match s.directVersion sl g n t e with
      | none => none
      | some v => some { hit := true, index := natBits v 1 16, data := dataWords v 17 t.dWords, looked := true }

/-- Of two LPM candidates the one with the greater SLEN; between equals the first. -/
def betterPrefix (a b : Option (Nat × Nat)) : Option (Nat × Nat) :=
  match a, b with
  | none, _ => b
  | _, none => a
  | some x, some y => if x.1 < y.1 then b else a

/-- One entry of an LPM bucket against the 160-bit key (R152): its SLEN and ACTION when it matches. -/
def lpmMatch (n len key e : Nat) : Option (Nat × Nat) :=
  let slen := natBits e 35 5
  let follow := (key * 2 ^ len) % 2 ^ 160 / 2 ^ 136
  if natBit e n && slen ≤ 24 && natBits e 40 24 / 2 ^ (24 - slen) == follow / 2 ^ (24 - slen) then
    some (slen, natBits e 19 16)
  else none

/-- The lookup of an LPM table (R152): lowest matching pivot, then its bucket's longest matching suffix. -/
def State.lookLpm (s : State) (sl g n : Nat) (t : Slot) (key : List Byte) : Option Look :=
  let k := beNat (bytesAt key 0 20)
  match s.ternFind sl g n t k with
  | none => none
  | some p =>
    let len := ones 160 (s.tab.tern.get (ternKey sl g (t.ternEntries.getD p 0))).mask
    let best := (List.range 32).foldl (fun a i =>
      match s.tblEntry sl g t.units 64 (32 * p + i) with
      | none => a
      | some e => betterPrefix a (lpmMatch n len k e)) none
    best.map (fun b => { hit := true, index := b.2, data := [], looked := true })

/-- The tables as they stood before the writes of this cc: what the lookups of the cc see (R156). -/
def State.beforeWrites (s : State) : State :=
  { s with tab := { s.tab with sram := s.tab.undo.foldl (fun t e => t.set e.1 e.2) s.tab.sram
                               tern := s.tab.undoTern.foldl (fun t e => t.set e.1 e.2) s.tab.tern } }

/-- The lookup of one table slot for a record, and whether both ways of an EXACT table held a match. -/
def State.lookSlot (s : State) (sl g n : Nat) (rec : List Byte) (t : Slot) (km : List (Nat × Nat)) : Look × Bool :=
  let miss := fun l => { hit := false, index := t.defAction, data := [], looked := l : Look }
  if !t.on || (t.ifHdr != 0 && !(headers rec).any (fun h => h.1 == t.ifHdr)) then (miss false, false)
  else
    let key := gather rec km
    if t.kind = kindExact then
      match s.lookExact sl g n t key with
      | (some l, d) => (l, d)
      | (none, d) => (miss true, d)
    else
      let r := if t.kind = kindDirect then s.lookDirect sl g n t (beNat key)
        else if t.kind = kindLpm then s.lookLpm sl g n t key
        else if t.kind = kindTernary then s.lookTernary sl g n t key
        else if t.kind = kindPin then s.lookPin sl g n t (beNat key)
        else none
      (r.getD (miss true), false)

end Sys2Proof.Machine
end

