-- ==== Sys2Proof/Machine/Actions.lean ====
section
/-! DEFINITION. The action instruction set: bundles, operands, predicates and every opcode (R162 to R182, R188). -/

namespace Sys2Proof.Machine

/-! ### The context in which a stage runs -/

/-- What travels through the stages of one side with a frame or a copy: the record, the edit list, the colour (0 none, 1 green,
2 yellow, 3 red), the counters and meters that await the frame's end, a drop reason that the chip set, the side, the slice and, once
the frame has ended, its length. -/
structure Ctx where
  record : List Byte
  edits : List Edit := []
  colour : Nat := 0
  tallies : List Nat := []
  debits : List (Nat × Nat) := []
  drop : Option Nat := none
  egress : Bool := false
  slice : Nat := 0
  genSlot : Nat := 0
  ended : Option Nat := none

/-- The inputs of one stage (R162): the record at stage entry, the lookup results, ATAG, the slice and the stage. -/
structure StageIn where
  entry : List Byte
  looks : List Look
  atag : Nat
  slice : Nat
  stage : Nat

/-- The look of table slot `t`. -/
def StageIn.look (i : StageIn) (t : Nat) : Look := i.looks.getD t {}

/-! ### Instruction fields (R166) -/

def actOpc (w : Nat) : Nat := natBits w 58 6
def actPred (w : Nat) : Nat := natBits w 53 5
def actW (w : Nat) : Nat := natBits w 51 2
def actDst (w : Nat) : Nat := natBits w 42 9
def actSa (w : Nat) : Nat := natBits w 32 10
def actSb (w : Nat) : Nat := natBits w 22 10
def actX (w : Nat) : Nat := natBits w 0 22
def actImm (w : Nat) : Nat := natBits w 0 32

/-- Operand width in bytes. -/
def actBytes (w : Nat) : Nat := 2 ^ actW w

/-- 2 to the operand width in bits. -/
def actMod (w : Nat) : Nat := 2 ^ (8 * actBytes w)

/-! ### Operands and predicates (R167 to R170) -/

/-- The HIT bits, bit t for table slot t. -/
def StageIn.hits (i : StageIn) : Nat :=
  (List.range 4).foldl (fun a t => if (i.look t).hit then a + 2 ^ t else a) 0

/-- A special operand (R167). -/
def StageIn.special (i : StageIn) (n : Nat) : Nat :=
  if n < 8 then (i.look (n / 2)).data.getD (n % 2) 0
  else if 0x10 ≤ n ∧ n < 0x14 then (i.look (n - 0x10)).index
  else if n = 0x14 then i.atag
  else if n = 0x15 then i.hits
  else 0

/-- The value of an operand specifier at a width of `b` bytes. -/
def StageIn.operand (i : StageIn) (spec b : Nat) : Nat :=
  if spec < 512 then beNat (fetch i.entry spec b) else i.special (spec - 512) % 2 ^ (8 * b)

/-- Predicate flag `n`, as it stood at stage entry (R170). -/
def StageIn.flag (i : StageIn) (n : Nat) : Bool := natBit (fieldAt i.entry cFlags 1) n

/-- Does the slot run (R169). -/
def StageIn.runs (i : StageIn) (p : Nat) : Bool :=
  if p = 0 then true
  else if p ≤ 8 then i.flag (p - 1)
  else if p ≤ 16 then !i.flag (p - 9)
  else if p ≤ 20 then (i.look (p - 17)).hit
  else if p ≤ 24 then !(i.look (p - 21)).hit
  else false

/-! ### Writes -/

/-- Write a value of `b` bytes to the record. -/
def Ctx.put (c : Ctx) (o b v : Nat) : Ctx := { c with record := putBytes c.record o (natBytes b (v % 2 ^ (8 * b))) }

/-- Set or clear one bit of a record byte, leaving the others (R181). -/
def Ctx.putBit (c : Ctx) (o n : Nat) (v : Bool) : Ctx :=
  let x := fieldAt c.record o 1
  c.put o 1 (if v then x ||| 2 ^ n else x - (if natBit x n then 2 ^ n else 0))

/-- The chip drops the frame with a reason of its own; the first such reason stands. -/
def Ctx.chipDrop (c : Ctx) (reason : Nat) : Ctx := { c with drop := some (c.drop.getD reason) }

/-! ### Arithmetic, comparison and checksums (R172 to R174) -/

/-- A shift left or right by n; 0 when n reaches the width. -/
def actShift (left : Bool) (m bits a n : Nat) : Nat :=
  if bits ≤ n then 0 else if left then a * 2 ^ n % m else a / 2 ^ n

/-- Subtraction modulo the width. -/
def actSub (m a b : Nat) : Nat := (a + m - b % m) % m

/-- A comparison of two operands. -/
def actCond (cond a b : Nat) : Bool :=
  match cond with
  | 0 => a == b
  | 1 => a != b
  | 2 => a < b
  | 3 => b ≤ a
  | 4 => a ≤ b
  | 5 => b < a
  | 6 => (a &&& b) != 0
  | _ => (a &&& b) == 0

/-- One step of a ones' complement sum with end-around carry. -/
def onesAdd (a b : Nat) : Nat := if 65536 ≤ a + b then a + b - 65535 else a + b

/-- The ones' complement sum of 16-bit words. -/
def onesSum (ws : List Nat) : Nat := ws.foldl onesAdd 0

/-- The `n` big-endian 16-bit words of a value of `n` words. -/
def words16 (n v : Nat) : List Nat := (List.range n).map (fun i => natBits v (16 * (n - 1 - i)) 16)

/-- CSUM (R174). -/
def csum (ws : List Nat) (sb : Nat) (udp : Bool) : Nat :=
  let r := 65535 - onesSum (ws ++ [sb % 65536])
  if udp && r == 0 then 65535 else r

/-- CSUM_INC (R174): HC' = ~(~HC + ~m + m'), over the 16-bit words of the old and the new value. -/
def csumInc (hc : Nat) (old new : List Nat) : Nat :=
  65535 - onesSum ((65535 - hc) :: old.map (fun w => 65535 - w) ++ new)

/-! ### Edits (R175, R177) -/

/-- The edit of a PUSH or POP: anchor `a`, LEN `n`, source `sa`, TONEXT. -/
def StageIn.edit (i : StageIn) (push : Bool) (a n sa : Nat) (toNext : Bool) : Edit :=
  let hs := headers i.entry
  let pos := (hs.getD a (0, 0)).2
  { push := push, pos := pos, src := sa,
    len := if toNext then (hs.getD (a + 1) (0, 0)).2 - pos else n }

/-- Is an edit refused (R177). -/
def Ctx.editRefused (c : Ctx) (hdrCount a : Nat) (e : Edit) (toNext : Bool) : Bool :=
  8 ≤ c.edits.length || (e.push && 128 < pushedBytes c.edits + e.len) || hdrCount ≤ a ||
  (toNext && hdrCount ≤ a + 1) || (!e.push && (if c.egress then 192 else 512) < e.pos + e.len)

/-- Append an edit, or refuse it and drop the frame with reason 0xF2. -/
def Ctx.addEdit (c : Ctx) (hdrCount a : Nat) (e : Edit) (toNext : Bool) : Ctx :=
  if c.editRefused hdrCount a e toNext then c.chipDrop 0xF2 else { c with edits := c.edits ++ [e] }

/-! ### Counters and meters (R178, R179) -/

/-- COUNT (R178). -/
def State.actCount (s : State) (c : Ctx) (stage addr : Nat) : State × Ctx :=
  if 8192 ≤ addr then (s.count C_STG_ACT_RANGE 1 c.slice, c)
  else
    let k := actKey c.slice stage addr
    let s := s.tallyFrame k
    match c.ended with
    | some l => (s.tallyBytes l k, c)
    | none => (s, { c with tallies := c.tallies ++ [k] })

/-- METER (R179, R180). -/
def State.actMeter (s : State) (c : Ctx) (stage addr : Nat) (aware dropRed : Bool) : State × Ctx :=
  if 2048 ≤ addr then (s.count C_STG_ACT_RANGE 1 c.slice, c)
  else
    let k := actKey c.slice stage addr
    let m := s.tab.meters.get k
    if !m.en then (s, { c with colour := 1 })
    else
      let m := m.refill s.nt
      let col := m.decide aware c.colour
      let c := { c with colour := col }
      let c := if dropRed && col == 3 then c.chipDrop 0xF3 else c
      if m.pkt then (s.setMeter k (m.debit col 1), c)
      else
        let s := s.setMeter k m
        if col = 3 then (s, c)
        else
          match c.ended with
          | some l => (s.debitBytes l (k, col), c)
          | none => (s, { c with debits := c.debits ++ [(k, col)] })

/-! ### One slot of a bundle -/

/-- Set a bit of C.DISP. -/
def Ctx.disp (c : Ctx) (n : Nat) : Ctx := c.putBit cDisp n true

/-- Run the instruction `w` of one slot (R172 to R180): operands come from the stage entry, writes go to the record in slot order. -/
def State.runSlot (s : State) (i : StageIn) (c : Ctx) (w : Nat) : State × Ctx :=
  let b := actBytes w
  let m := actMod w
  let d := actDst w
  let a := i.operand (actSa w) b
  let y := i.operand (actSb w) b
  let imm := actImm w
  let x := actX w
  if !i.runs (actPred w) then (s, c)
  else
    match actOpc w with
    | 0x01 => (s, c.put d b a)
    | 0x02 => (s, c.put d b imm)
    | 0x03 => (s, c.put d 4 imm)
    | 0x04 => (s, c.put d b ((a + y) % m))
    | 0x05 => (s, c.put d b (actSub m a y))
    | 0x06 => (s, c.put d b (a - y))
    | 0x07 => (s, c.put d b (a &&& y))
    | 0x08 => (s, c.put d b (a ||| y))
    | 0x09 => (s, c.put d b (a ^^^ y))
    | 0x0A => (s, c.put d b (actShift true m (8 * b) a (x % 64)))
    | 0x0B => (s, c.put d b (actShift false m (8 * b) a (x % 64)))
    | 0x0C => (s, c.put d b ((a + imm) % m))
    | 0x0D => (s, c.put d b (actSub m a imm))
    | 0x0E => (s, c.put d b (a - imm))
    | 0x0F => (s, c.put d b (a &&& imm))
    | 0x10 => (s, c.put d b (a ||| imm))
    | 0x11 => (s, c.put d b (a ^^^ imm))
    | 0x12 => (s, c.putBit cFlags (d / 8 % 8) (actCond (d % 8) a y))
    | 0x13 => (s, c.putBit cFlags (d / 8 % 8) (actCond (d % 8) a imm))
    | 0x14 =>
      let km := (s.slot c.genSlot).keymapEntries i.slice i.stage (actSa w % 16)
      (s, c.put d 4 (crc32c (natBytes 4 imm ++ gather i.entry km)))
    | 0x15 =>
      let n := x % 32 + 1
      let ws := words16 n (beNat (fetch i.entry (actSa w % 512) (2 * n)))
      (s, c.put d 2 (csum ws (i.operand (actSb w) 2) (natBit x 5)))
    | 0x16 =>
      (s, c.put d 2 (csumInc (beNat (fetch i.entry d 2)) (words16 (b / 2) a) (words16 (b / 2) y)))
    | 0x17 =>
      let an := natBits x 6 5
      (s, c.addEdit (fieldAt i.entry mHdrCount 1) an (i.edit true an (x % 64 + 1) (actSa w % 512) false) false)
    | 0x18 =>
      let an := natBits x 6 5
      (s, c.addEdit (fieldAt i.entry mHdrCount 1) an (i.edit false an (x % 64 + 1) 0 (natBit x 11)) (natBit x 11))
    | 0x19 => s.actCount c i.stage (x % 8192 + a)
    | 0x1A => s.actMeter c i.stage (x % 2048 + a) (natBit x 11) (natBit x 12)
    | 0x1B => (s, (c.put cEgPort 2 (0x8000 + a % 512)).put cQueue 1 (x % 16))
    | 0x1C => (s, (c.put cEgPort 2 (0x8000 + imm % 512)).put cQueue 1 (natBits imm 16 4))
    | 0x1D => (s, c.put cQueue 1 (imm % 16))
    | 0x1E => (s, (c.put cMcGroup 2 a).disp 2)
    | 0x1F => (s, (c.put cMirror 1 imm).disp 3)
    | 0x20 => (s, (c.put cDropReason 1 imm).disp 0)
    | 0x21 => (s, c.disp 6)
    | 0x22 => (s, c.disp 1)
    | 0x23 => (s, (c.put cHobCtx 2 (a % 4096)).disp 4)
    | 0x24 => (s, c.disp 5)
    | _ => (s, c)

/-! ### A stage (R162 to R164, R188) -/

/-- The looks of a stage's four table slots, with the double EXACT hits counted (R150). -/
def State.lookStage (s : State) (c : Ctx) (g : Nat) : State × List Look :=
  (List.range 4).foldl (fun (st : State × List Look) t =>
    let sl := (s.slot c.genSlot).tblSlot c.slice g t
    let r := s.beforeWrites.lookSlot c.slice g c.genSlot c.record sl ((s.slot c.genSlot).keymapEntries c.slice g sl.keymap)
    let s1 := if r.2 then st.1.count C_STG_DUP_HIT 1 c.slice g else st.1
    let s1 := if r.1.looked then s1.ev 0x012 c.slice else s1
    let s1 := if r.1.hit then s1.ev 0x013 c.slice else s1
    (s1, st.2 ++ [r.1])) (s, [])

/-- The action index that selects the bundle (R164). -/
def selectIndex (mode slot : Nat) (looks : List Look) : Nat :=
  let d := (looks.getD slot {}).index
  if mode = 0 then d
  else
    match looks.find? (·.hit) with
    | some l => l.index
    | none => d

/-- The 64-bit instruction in slot `k` of bundle `b` of a stage (R165). -/
def GenSlot.actInstr (g : GenSlot) (sl stage b k : Nat) : Nat :=
  (g.act.get (actKey sl stage (8 * b + 2 * k))).toNat + 2 ^ 32 * (g.act.get (actKey sl stage (8 * b + 2 * k + 1))).toNat

/-- Errors met on reading the bundle's words (R188): a corrected one raises MEMC; an uncorrectable one raises MEMU, drops the frame
with reason 0xF4 and turns the word's slot into a NOP. -/
def State.actEcc (s : State) (c : Ctx) (g : Nat) (ecc : List (Nat × Nat × Nat)) : State × Ctx × List Nat :=
  ecc.foldl (fun (st : State × Ctx × List Nat) e =>
    if e.1 ≠ g then st
    else if e.2.2 = 1 then (st.1.raise 0 0 2 c.slice, st.2.1, st.2.2)
    else if e.2.2 = 2 then (st.1.raise 1 2 2 c.slice, st.2.1.chipDrop 0xF4, e.2.1 / 2 :: st.2.2)
    else st) (s, c, [])

/-- Run stage `g` for a frame or copy. -/
def State.runStage (s : State) (c : Ctx) (ecc : List (Nat × Nat × Nat)) (g : Nat) : State × Ctx :=
  let (s, looks) := s.lookStage c g
  let gs := s.slot c.genSlot
  let ix := selectIndex (gs.f STG_ACT_SEL_MODE c.slice g) (gs.f STG_ACT_SEL_SLOT c.slice g) looks
  let i : StageIn := { entry := c.record, looks := looks, atag := natBits ix 10 6, slice := c.slice, stage := g }
  let (s, c, dead) := s.actEcc c g ecc
  (List.range 4).foldl (fun (st : State × Ctx) k =>
    if dead.contains k then st else st.1.runSlot i st.2 (gs.actInstr c.slice g (ix % 1024) k)) (s, c)

/-- Run `n` stages from stage `g`. -/
def State.runStages (s : State) (c : Ctx) (ecc : List (Nat × Nat × Nat)) (g : Nat) : Nat → State × Ctx
  | 0 => (s, c)
  | n + 1 =>
    let (s, c) := s.runStage c ecc g
    State.runStages s c ecc (g + 1) n

end Sys2Proof.Machine
end

