-- ==== Sys2Proof/Machine/PortState.lean ====
section
/-! DEFINITION. Port states and events: up, down, faults, pause decode, LPI, thresholds and MAC clears (R94 to R110, R351, R352). -/

namespace Sys2Proof.Machine

/-! ### Domain link states that follow the port (R351, R352) -/

/-- A domain link's own state. -/
def State.dp (s : State) (p : Nat) : DomPort := s.dom.port.get p

/-- Change a domain link's own state. -/
def State.setDp (s : State) (p : Nat) (f : DomPort → DomPort) : State :=
  { s with dom := { s.dom with port := s.dom.port.upd p f } }

/-- Enter QUARANTINED with a cause. -/
def State.enterQuarantine (s : State) (p cause : Nat) : State :=
  let s := ((s.setF DOM_PORT_STAT_STATE 1 p).setF DOM_PORT_STAT_CAUSE cause p).setF DOM_PORT_STAT_AGREE_CNT 0 p
  s.setDp p (fun d => { d with disagreed := false, silent := false })

/-- A port enters UP: a domain link goes to QUARANTINED with cause 1 (NEW). -/
def State.domUp (s : State) (p : Nat) : State :=
  if s.f DOM_PORT_STAT_STATE p = 3 then s
  else (s.enterQuarantine p 1).setDp p (fun d => { d with lastNt := s.nt, period := none })

/-- The DOMAIN faults of a link detected in this cc that its record does not hold yet are withdrawn: a disagreeing hello and the port-down event
of one cc give DOWN and no DOMAIN fault (R353). -/
def State.noDomainFault (s : State) (p : Nat) : State :=
  let mine (e : FaultEv) : Bool := e.cls == 13 && e.level == 1 && e.info == p && e.cc == s.cc && !e.inj
  if s.flt.pend.any mine then
    { s with flt := { s.flt with pend := s.flt.pend.filter (fun e => !mine e), raised := s.flt.raised.erase 13 } }
  else s

/-- A port leaves UP: a domain link goes to DOWN. -/
def State.domDown (s : State) (p : Nat) : State :=
  if s.f DOM_PORT_STAT_STATE p = 3 then s
  else ((s.noDomainFault p).setF DOM_PORT_STAT_STATE 0 p).setF DOM_PORT_STAT_AGREE_CNT 0 p

/-- A link leaves AGREED (R351): the traffic manager gets a port-down event. -/
def State.leaveAgreed (s : State) (p cause : Nat) : State :=
  let s := ((s.enterQuarantine p cause).flag DOM_PORT_STAT_QENTER p).count C_DOM_Q_ENTRIES 1 p
  (s.raise 13 1 cause p).tmPortDown p

/-! ### A port leaves UP (R106, R107, R263) -/

/-- A generated frame on the line is cut off at the next block and counted in TX_ABORT (R107). -/
def State.abortGen (s : State) (p : Nat) : State :=
  match (s.mp p).genOut with
  | none => s
  | some (start, wire) =>
    let b := wire.take (s.sentBy p start)
    (s.count C_TX_ABORT 1 p).setMp p (fun m => { m with genOut := none, sent := b, lineEnd := s.cc + 1, freeAt := s.cc + 1 })

/-- A generated frame that has left is counted, and is on the line (R110). -/
def State.genDone (s : State) (p : Nat) : State :=
  match (s.mp p).genOut with
  | none => s
  | some (start, wire) =>
    s.when (start + termS wire.length (s.portRate p false) ≤ s.cc) fun s =>
      (((s.count C_TX_FRAMES 1 p).count C_TX_BYTES wire.length p).setMp p (fun m => { m with genOut := none })).toLine p wire

/-- What a port has in flight in either direction is cut off, and its timers and generated frames go (R103, R106, R107). -/
def State.cutPort (s : State) (p : Nat) : State :=
  let s := ((s.sendingOn p).foldl State.abortCopy s).abortGen p
  let s := (s.receivingOn p).foldl State.cutFrame s
  let s := { s with fwd := { s.fwd with wait := s.fwd.wait.set p [] } }
  let s := s.setMp p (fun m => { m with pauseEnd := 0, pfcEnd := [], gen := [], asleep := false, lpiExit := none, idleFrom := none })
  (s.setF MAC_PORT_STAT_LPI_TX 0 p).setF MAC_PORT_STAT_LPI_RX 0 p

/-- A port goes to another state; leaving UP it gives the traffic manager a port-down event (R103, R106, R107, R263). -/
def State.portTo (s : State) (p st : Nat) : State :=
  if s.macUp p then
    let s := (((s.setF MAC_PORT_STAT_STATE st p).flag MAC_PORT_STAT_DOWN_EV p).cutPort p).domDown p
    if p < 512 then s.tmPortDown p else s
  else (s.setF MAC_PORT_STAT_STATE st p).cutPort p

/-- A port leaves HELD or UP for DOWN; a port that is neither stays. -/
def State.portDown (s : State) (p : Nat) : State := if 2 ≤ s.f MAC_PORT_STAT_STATE p then s.portTo p 1 else s

/-- Entry into the safe state takes a port to DOWN from any state (R106, R470). -/
def State.portSafe (s : State) (p : Nat) : State := if s.f MAC_PORT_STAT_STATE p = 1 then s else s.portTo p 1

/-! ### A port comes up (R106, R123) -/

/-- Is every lane of a port in DATA; for a trunk port, is its group UP. -/
def State.linkReady (s : State) (p : Nat) : Bool :=
  let n := s.active
  if s.isTrunk n p then
    match s.groupAt n (p / 16) (p % 16) with
    | some g => s.on TRK_GRP_STAT_RX_UP (p / 16) g && s.on TRK_GRP_STAT_TX_UP (p / 16) g
    | none => false
  else
    let ls := s.portLanes p
    ls ≠ [] && ls.all s.laneData

/-- A port enters UP: port-up event, domain link in QUARANTINED, and the flow-control frame that XOFF calls for (R104, R106, R351). -/
def State.enterUp (s : State) (p : Nat) : State :=
  let s := s.setF MAC_PORT_STAT_STATE 3 p
  let s := s.setMp p (fun m => { m with openFrame := none, idleFrom := none })
  if 512 ≤ p then s else (s.domUp p).xoffResend p

/-- PORT_UP (R106): DOWN to UP, or to HELD while a flush of the port is running. -/
def execPortUp (p : Fin 514) (s : State) : Host.Outcome State Fault Refusal :=
  .next (s.when (s.f MAC_PORT_STAT_STATE p == 1 && s.linkReady p && !s.on MAC_PORT_STAT_LF p && !s.on MAC_PORT_STAT_RF p) fun s =>
    if p < 512 && s.on TM_PORT_STAT_FLUSHING p then s.setF MAC_PORT_STAT_STATE 2 p else s.enterUp p)

/-- FLUSH_DONE (R106, R263); `ecc` what the flush has met in the words of the pool manager (R236). -/
def execFlushDone (p : Fin 512) (ecc : Fin 3) (s : State) : Host.Outcome State Fault Refusal :=
  .next (s.when (s.on TM_PORT_STAT_FLUSHING p && (s.tp p).flushEnd ≤ s.cc) fun s =>
    let s := ((s.poolMeta ecc).setF TM_PORT_STAT_FLUSHING 0 p).flag TM_PORT_STAT_FLUSH_DONE p
    if s.f MAC_PORT_STAT_STATE p = 2 then s.enterUp p else s)

/-- LF shows a local fault that the reconciliation sublayer receives, or that the trunk layer gives (R106, R123). -/
def State.showFault (s : State) (p : Nat) : State :=
  s.setF MAC_PORT_STAT_LF (if (s.mp p).rxFault || (s.mp p).trunkFault then 1 else 0) p

/-- LOCAL_FAULT_RX (R106): a received local fault shows in LF and takes a HELD or UP port DOWN. -/
def execLocalFaultRx (p : Fin 514) (on : Bool) (s : State) : Host.Outcome State Fault Refusal :=
  .next (let s := (s.setMp p (fun m => { m with rxFault := on })).showFault p
    if on then s.portDown p else s)

/-- REMOTE_FAULT_RX (R106): RF is set, and an UP port sends idle in place of queued frames. -/
def execRemoteFaultRx (p : Fin 514) (s : State) : Host.Outcome State Fault Refusal :=
  .next (s.when (!s.on MAC_PORT_STAT_RF p) fun s =>
    (s.setF MAC_PORT_STAT_RF 1 p).setMp p (fun m => { m with rfFrom := some s.cc }))

/-- REMOTE_FAULT_TIMEOUT (R106): received continuously for 1 ms, the fault takes a HELD or UP port DOWN. -/
def execRemoteFaultTimeout (p : Fin 514) (s : State) : Host.Outcome State Fault Refusal :=
  .next (match (s.mp p).rfFrom with
    | none => s
    | some t => s.when (t + 1500000 ≤ s.cc && 2 ≤ s.f MAC_PORT_STAT_STATE p) fun s =>
        (s.portDown p).setMp p (fun m => { m with rfDown := true }))

/-- REMOTE_FAULT_CLEAR (R106): the fault is no longer received. -/
def execRemoteFaultClear (p : Fin 514) (s : State) : Host.Outcome State Fault Refusal :=
  .next ((s.setF MAC_PORT_STAT_RF 0 p).setMp p (fun m => { m with rfFrom := none, rfDown := false }))

/-! ### Pause and PFC take effect (R103) -/

/-- Take the oldest decode of a kind that is due. -/
def takeDecode (pfc : Bool) (cc : Nat) : List FcDecode → Option (FcDecode × List FcDecode)
  | [] => none
  | d :: t =>
    if d.pfc == pfc && d.at_ ≤ cc then some (d, t)
    else (takeDecode pfc cc t).map (fun x => (x.1, d :: x.2))

/-- PAUSE_DECODE (R103): the pause timer of the port restarts. -/
def execPauseDecode (p : Fin 512) (s : State) : Host.Outcome State Fault Refusal :=
  .next (match takeDecode false s.cc (s.mp p).decode with
    | none => s
    | some (d, rest) => s.setMp p (fun m => s.decoded p { m with decode := rest } d))

/-- PFC_DECODE (R103): the timer of each priority that the frame addresses restarts. -/
def execPfcDecode (p : Fin 512) (s : State) : Host.Outcome State Fault Refusal :=
  .next (match takeDecode true s.cc (s.mp p).decode with
    | none => s
    | some (d, rest) => s.setMp p (fun m => s.decoded p { m with decode := rest } d))

/-- PAUSE_TIMER_EXPIRY (R103): timers that have run out release their queues. -/
def execPauseTimerExpiry (p : Fin 512) (s : State) : Host.Outcome State Fault Refusal :=
  .next (s.setMp p (fun m => { m with
    pauseEnd := if m.pauseEnd ≤ s.cc then 0 else m.pauseEnd
    pfcEnd := m.pfcEnd.keep (fun _ e => s.cc < e) }))

/-! ### Low-power idle (R105) -/

/-- Metered latency mode in force (CHIP_MODE[2]). -/
def State.meteredMode (s : State) : Bool := natBit (s.f CHIP_MODE_MODE) 2

/-- Are the 12 queues of a port empty. -/
def State.queuesEmpty (s : State) (p : Nat) : Bool := (List.range 12).all (fun q => s.queue p q == [])

/-- Are the conditions of transmit LPI met in this cc. -/
def State.lpiIdle (s : State) (p : Nat) : Bool :=
  let m := s.mp p
  s.on MAC_EEE_EN p && !s.meteredMode && s.macUp p && !s.isTrunk s.active p && s.queuesEmpty p && m.gen = [] && m.openFrame.isNone &&
  m.lineEnd ≤ s.cc && s.sendingOn p = [] && (s.flushable p) = []

/-- Since which cc a port has been idle, as this cc leaves it (R105). -/
def State.lpiTrack (s : State) (p : Nat) : State :=
  s.setMp p (fun m => { m with idleFrom := if s.lpiIdle p then some (m.idleFrom.getD s.cc) else none })

/-- The ports whose idle time runs or may begin: those with MAC_EEE.EN, and those where it ran. -/
def State.lpiPorts (s : State) : List Nat := (List.range 512).filter (fun p => s.on MAC_EEE_EN p || (s.mp p).idleFrom.isSome)

/-- LPI_ENTRY (R105): after IDLE_US of idle the port enters LPI in its transmit direction. -/
def execLpiEntry (p : Fin 512) (s : State) : Host.Outcome State Fault Refusal :=
  .next (match (s.mp p).idleFrom with
    | none => s
    | some t => s.when (s.lpiIdle p && !(s.mp p).asleep && (s.mp p).lpiExit.isNone && t + 1500 * s.f MAC_EEE_IDLE_US p ≤ s.cc) fun s =>
        ((s.setF MAC_PORT_STAT_LPI_TX 1 p).count C_LPI_ENTRIES 1 p).setMp p (fun m => { m with asleep := true }))

/-- Request the exit from LPI. -/
def State.lpiWake (s : State) (p : Nat) : State :=
  if (s.mp p).asleep then
    (s.setF MAC_PORT_STAT_LPI_TX 0 p).setMp p (fun m => { m with asleep := false, lpiExit := some s.cc, idleFrom := none })
  else s

/-- LPI_EXIT (R105): a queue has become non-empty or a generated frame is pending. -/
def execLpiExit (p : Fin 512) (s : State) : Host.Outcome State Fault Refusal :=
  .next (s.when (!s.queuesEmpty p || (s.mp p).gen ≠ []) fun s => s.lpiWake p)

/-- LPI_WAKE_END (R105): TW_TX_US after the exit request the queues are released. -/
def execLpiWakeEnd (p : Fin 512) (s : State) : Host.Outcome State Fault Refusal :=
  .next (match (s.mp p).lpiExit with
    | none => s
    | some t => s.when (t + 1500 * s.f MAC_EEE_TW_TX_US p ≤ s.cc) fun s => s.setMp p (fun m => { m with lpiExit := none }))

/-! ### Thresholds and clears (R101, R102, R110, R220) -/

/-- One port at a whole second (R102); from which T_CUR it fell is kept for an underrun that comes in the same cc. -/
def State.secondPort (s : State) (p : Nat) : State :=
  let k := s.f MAC_CT_T_CUR p
  if s.f MAC_CT_T_BASE p < k && !(s.mp p).underrun then
    (s.setF MAC_CT_T_CUR (k - 1) p).setMp p (fun m => { m with underrun := false, fell := some k })
  else s.setMp p (fun m => { m with underrun := false, fell := none })

/-- An underrun is charged to an ingress port: its threshold rises by one step, up to 63 (R101).  One in the cc of a whole second's boundary
belongs to the second just ended, in which the port then does not fall (R102). -/
def State.thresholdRise (s : State) (p : Nat) : State :=
  let edge := s.time.secondCc == s.cc && s.time.secondDone != 0
  let s := match (if edge then (s.mp p).fell else none) with
    | some k => s.setF MAC_CT_T_CUR k p
    | none => s
  let s := s.setMp p (fun m => { m with underrun := !edge || m.underrun, fell := none })
  if s.f MAC_CT_T_CUR p < 63 then (s.setF MAC_CT_T_CUR (s.f MAC_CT_T_CUR p + 1) p).count C_CT_RISES 1 p else s

/-- WHOLE_SECOND_TICK (R102, R220, R285): thresholds decay and the window of corrections restarts; whole seconds that a jump passed
are counted in TIME_SKIP. -/
def execWholeSecondTick (s : State) : Host.Outcome State Fault Refusal :=
  .next (s.when (s.time.secondDone < ntSec s.nt) fun s =>
    let s := s.count C_TIME_SKIP (ntSec s.nt - s.time.secondDone - 1)
    let s := { s with time := { s.time with secondDone := ntSec s.nt, secondCc := s.cc }
                      fwd := { s.fwd with corrections := 0, corrRaised := false } }
    (List.range 514).foldl State.secondPort s)

/-- MAC_CT_WRITE (R102): a T_BASE above T_CUR raises T_CUR at once. -/
def State.macCtWriteCmd (s : State) (p : Nat) (base : Nat) : State :=
  (s.setF MAC_CT_T_BASE base p).setF MAC_CT_T_CUR (max (s.f MAC_CT_T_CUR p) base) p

/-- MAC_CT_WRITE. -/
def execMacCtWrite (p : Fin 514) (base : Fin 64) (s : State) : Host.Outcome State Fault Refusal := .next (s.macCtWriteCmd p.val base.val)

/-- The 17 counters of a port (R110). -/
def macCounters : List Cnt := [C_RX_FRAMES, C_RX_BYTES, C_RX_FCS_ERR, C_RX_RUNT, C_RX_OVERSIZE, C_RX_PAUSE, C_RX_PFC,
  C_RX_CTRL_OTHER, C_TX_FRAMES, C_TX_BYTES, C_TX_UNDERRUN, C_TX_STOMP, C_TX_ABORT, C_TX_FC, C_CT_RISES, C_LPI_ENTRIES, C_RX_HELD_DROP]

/-- MAC_CNT_CLR (R110). -/
def State.macCntClrCmd (s : State) (p : Nat) : State :=
  s.cclrs macCounters p

/-- MAC_CNT_CLR. -/
def execMacCntClr (p : Fin 514) (s : State) : Host.Outcome State Fault Refusal := .next (s.macCntClrCmd p.val)

end Sys2Proof.Machine
end

