-- ==== Sys2Proof/Machine/Trunk.lean ====
section
/-! DEFINITION. Trunk groups and the Flue channel (R112 to R132): member alignment and states, lags, active sets, group state,
overhead words, and the Flue FIFOs. -/

namespace Sys2Proof.Machine

/-! ### Access to the trunk layer's own state -/

/-- A member's own state. -/
def State.tmem (s : State) (n : Nat) : TrkMem := s.trk.mem.get n

/-- Change a member's own state. -/
def State.setTmem (s : State) (n : Nat) (f : TrkMem → TrkMem) : State :=
  { s with trk := { s.trk with mem := s.trk.mem.upd n f } }

/-- A group's own state. -/
def State.tgrp (s : State) (sl g : Nat) : TrkGrp := s.trk.grp.get (8 * sl + g)

/-- Change a group's own state. -/
def State.setTgrp (s : State) (sl g : Nat) (f : TrkGrp → TrkGrp) : State :=
  { s with trk := { s.trk with grp := s.trk.grp.upd (8 * sl + g) f } }

/-- A Flue port's own state. -/
def State.fsp (s : State) (k : Nat) : Fsp := s.trk.fsp.get k

/-- Change a Flue port, with its level fields. -/
def State.setFsp (s : State) (k : Nat) (x : Fsp) : State :=
  let s := { s with trk := { s.trk with fsp := s.trk.fsp.set k x } }
  (s.setF TRK_FSP_STAT_RX_LEVEL x.rx.length k).setF TRK_FSP_STAT_TX_LEVEL x.tx.length k

/-- The formed group of slice `n / 16` of which lane `n` is a member (R112). -/
def State.memGroup (s : State) (n : Nat) : Option Nat :=
  (List.range 8).find? (fun g => s.caOn TRK_GRP_CFG_EN (n / 16) g && natBit (s.ca TRK_GRP_CFG_LANE_MASK (n / 16) g) (n % 16))

/-- The lanes of a group in force, in member order. -/
def State.grpLanes (s : State) (sl g : Nat) : List Nat := s.groupLanes s.active sl g

/-- The lanes of a group whose members are USABLE. -/
def State.usable (s : State) (sl g : Nat) : List Nat := (s.grpLanes sl g).filter (fun n => s.f TRK_MEM_STAT_STATE n == 7)

/-- The Flue port bound to a group (R128). -/
def State.fspOf (s : State) (sl g : Nat) : Option Nat :=
  (List.range 4).find? (fun k => s.caOn TRK_FSP_CFG_EN k && s.ca TRK_FSP_CFG_SLICE k == sl && s.ca TRK_FSP_CFG_GROUP k == g)

/-- Frame period in cc by RATE code (R113). -/
def trunkPeriod (code : Nat) : Nat := if code = 0 then 246 else if code = 1 then 492 else if code = 2 then 984 else 1968

/-! ### Group state (R123, R126, R129) -/

/-- With no USABLE member a group forgets where it stood in the received frames: the next one to become USABLE begins afresh (R120 to R122). -/
def State.trkForget (s : State) (sl g : Nat) : State :=
  s.setTgrp sl g (fun x => { x with mapRun := [], mapLost := 0, rxMfc := none, rel := none, rxTail := [], rxOpen := none })

/-- Settle RX_UP, TX_UP, the group's state and its consequences: DOWN_EV, local fault towards the port, LINK, and FLUE_LOSS. -/
def State.trkEval (s : State) (sl g : Nat) : State :=
  let ls := s.grpLanes sl g
  let m := s.ca TRK_GRP_CFG_MIN_ACT sl g
  let formed := s.caOn TRK_GRP_CFG_EN sl g
  let rx := formed && m ≤ (s.usable sl g).length
  let tx := formed && m ≤ ones 16 (s.f TRK_GRP_MAP_ACT_TX sl g)
  let was := (s.tgrp sl g).up
  let p := ls.headD (16 * sl)
  let s := (s.setF TRK_GRP_STAT_RX_UP rx.toNat sl g).setF TRK_GRP_STAT_TX_UP tx.toNat sl g
  let s := s.setTgrp sl g (fun x => { x with up := rx && tx })
  let s := match s.fspOf sl g with
    | none => s
    | some k =>
      let lost := (s.usable sl g).isEmpty
      let s := s.setF TRK_FSP_STAT_FLUE_LOSS lost.toNat k
      if lost then s.setFsp k { s.fsp k with rd := 0xFF } else s
  let s := if (s.usable sl g).isEmpty then s.trkForget sl g else s
  let s := (s.setMp p (fun m => { m with trunkFault := formed && s.isTrunk s.active p && !(rx && tx) })).showFault p
  if was && !(rx && tx) then
    let allAis := ls.all (fun n => s.f TRK_MEM_STAT_STATE n == 4)
    let s := s.flag TRK_GRP_STAT_DOWN_EV sl g
    let s := if allAis then s else s.raise 6 1 3 p
    if s.isTrunk s.active p then s.portDown p else s
  else s

/-! ### Member state (R118, R119, R126) -/

/-- A member shows another state; leaving USABLE sets DEF_EV, and the new state raises what R126 names. -/
def State.memTo (s : State) (n st : Nat) : State :=
  let old := s.f TRK_MEM_STAT_STATE n
  if old = st then s else
    let s := s.setF TRK_MEM_STAT_STATE st n
    let s := if old = 7 then s.flag TRK_MEM_STAT_DEF_EV n else s
    let s := if old = 7 && st ≤ 2 then s.raise 6 0 1 n else s
    if st = 3 ∨ st = 5 then s.raise 6 1 2 n else s

/-- A member lane has left DATA: LOS (R119, R126). -/
def State.memLos (s : State) (n : Nat) : State :=
  match s.memGroup n with
  | none => s
  | some g => ((s.setTmem n (fun _ => {})).memTo n 0).trkEval (n / 16) g

/-- A member lane has entered DATA: SEARCH. -/
def State.memData (s : State) (n : Nat) : State :=
  match s.memGroup n with
  | none => s
  | some _ => (s.setTmem n (fun _ => {})).memTo n 1

/-! ### The overhead word (R115) -/

/-- One bit step of the CRC16 of R115. -/
def crc16Bit (c : Nat) : Nat := if 32768 ≤ c then ((c * 2) ^^^ 0x1021) % 65536 else c * 2

/-- One byte of CRC16. -/
def crc16Byte (c : Nat) (b : Byte) : Nat :=
  crc16Bit (crc16Bit (crc16Bit (crc16Bit (crc16Bit (crc16Bit (crc16Bit (crc16Bit (c ^^^ (b.toNat * 256)))))))))

/-- CRC16 of R115: polynomial 0x1021, initial value 0xFFFF, no reflection, no final XOR. -/
def crc16 (bs : List Byte) : Nat := bs.foldl crc16Byte 0xFFFF

/-- The frame alignment word. -/
def trunkFaw : Nat := 0xF63A28

/-- Does an overhead carry the FAW and a valid CRC16 (R118). -/
def ovhValid (o : List Byte) : Bool := fieldAt o 0 3 == trunkFaw && crc16 (bytesAt o 0 14) == fieldAt o 14 2

/-- The 16 overhead bytes of a frame to be sent. -/
def trunkOvh (mfc gid mem : Nat) (ais rdi : Bool) (bptr : Nat) (flue bip : Byte) (act rxmap : Nat) : List Byte :=
  let b := natBytes 3 trunkFaw ++ natBytes 2 mfc ++ natBytes 1 gid ++
    natBytes 1 (mem % 16 * 16 + ais.toNat * 8 + rdi.toNat * 4) ++ natBytes 1 (bptr % 128) ++ [flue, bip] ++
    natBytes 2 act ++ natBytes 2 rxmap
  b ++ natBytes 2 (crc16 b)

/-! ### Lag (R120) -/

/-- The difference of two MFCs in the range -32,768 to 32,767. -/
def mfcDiff (a b : Nat) : Int := (((a : Int) - b + 32768) % 65536) - 32768

/-- How many cc member `a` arrives after member `b`, measured at frames of equal MFC. -/
def State.memLag (s : State) (a b : Nat) : Int :=
  ((s.tmem a).arr : Int) - (s.tmem b).arr - mfcDiff (s.tmem a).mfc (s.tmem b).mfc * (trunkPeriod (s.laneRate s.active a) : Nat)

/-- The in-frame members among some lanes. -/
def State.inFrame (s : State) (ls : List Nat) : List Nat := ls.filter (fun n => (s.tmem n).align == 2)

/-- How many other members arrive within 4,000.0 ns after member `r`. -/
def State.followers (s : State) (ls : List Nat) (r : Nat) : Nat :=
  (ls.filter (fun n => n != r && 0 ≤ s.memLag n r && s.memLag n r ≤ 6000)).length

/-- The reference member: the greatest number of followers, a tie going to the earlier arrival. -/
def State.trkRef (s : State) (ls : List Nat) : Option Nat :=
  ls.foldl (fun b n => match b with
    | none => some n
    | some r =>
      let fn := s.followers ls n
      let fr := s.followers ls r
      if fr < fn ∨ (fr = fn ∧ s.memLag n r < 0) then some n else some r) none

/-! ### Frames received (R118 to R122, R126) -/

/-- A condition with entry and exit after three consecutive frames: the new condition and count. -/
def threeRun (cur seen : Bool) (run : Nat) : Bool × Nat :=
  if seen == cur then (cur, 0) else if run + 1 = 3 then (seen, 0) else (cur, run + 1)

/-- The MISMATCH test of one overhead (R119). -/
def State.memWrong (s : State) (n g : Nat) (o : List Byte) : Bool :=
  let ls := s.grpLanes (n / 16) g
  let mem := fieldAt o 6 1 / 16
  fieldAt o 5 1 != s.ca TRK_GRP_ID_GID_EXP (n / 16) g || ls.length ≤ mem ||
    (s.inFrame ls).any (fun l => l < n && s.f TRK_MEM_STAT_MEMBER_RX l == mem)

/-- How many cc a member lags behind the reference (R120). -/
def State.lagNow (s : State) (n g : Nat) : Int :=
  match s.trkRef (s.inFrame (s.grpLanes (n / 16) g)) with
  | some r => s.memLag n r
  | none => 0

/-- The runs of MISMATCH and AIS after a frame with a valid CRC16 (R119).  DEDUCED (log 128): those seen in CHECK count. -/
def State.memRuns (s : State) (n g : Nat) (o : List Byte) : State :=
  let wrong := s.memWrong n g o
  let ais := natBit (fieldAt o 6 1) 3
  s.setTmem n (fun x =>
    let m := threeRun x.mis wrong x.misRun
    let a := threeRun x.ais ais x.aisRun
    { x with mis := m.1, misRun := m.2, ais := a.1, aisRun := a.2 })

/-- LAG of an in-frame member after a valid overhead, the run of SKEW, and the state that the member shows (R119, R120). -/
def State.memChecks (s : State) (n g : Nat) : State :=
  let sl := n / 16
  let lag := s.lagNow n g
  let (lagField, s) := if lag < 0 then (s.freeVal % 65536, s.fresh) else (min (lag.toNat * 20 / 3) 65535, s)
  let s := (s.setF TRK_MEM_STAT_LAG lagField n).setTmem n (fun x =>
    let k := if 6000 < lag then (true, 0)
      else if x.skew then (if lag ≤ 5850 then (if x.skewRun + 1 = 3 then (false, 0) else (true, x.skewRun + 1)) else (true, 0))
      else (false, 0)
    { x with lag := lag, skew := k.1, skewRun := k.2 })
  let x := s.tmem n
  s.memTo n (if x.mis then 3 else if x.ais then 4 else if x.skew then 5
    else if natBit (s.f TRK_GRP_CTL_WITHDRAW sl g) ((s.grpLanes sl g).idxOf n) then 6 else 7)

/-- RX_MAP read from a new frame: the runs of R121 and member RDI (R126). -/
def State.readRxMap (s : State) (sl g rxmap : Nat) : State :=
  let ls := s.grpLanes sl g
  let s := s.setTgrp sl g (fun x =>
    { x with mapRun := (List.range ls.length).foldl (fun t m => if natBit rxmap m then t.upd m (· + 1) else t.set m 0) x.mapRun
             mapLost := x.mapLost ||| (65535 - rxmap) })
  (List.range ls.length).foldl (fun s m =>
    let n := ls.getD m 0
    let r := threeRun (s.on TRK_MEM_STAT_RDI_M n) (!natBit rxmap m) (s.tmem n).rdiRun
    (s.setTmem n (fun x => { x with rdiRun := r.2 })).setF TRK_MEM_STAT_RDI_M r.1.toNat n) s

/-- What the group takes from a valid overhead of an in-frame member: group RDI; and from a USABLE member's, when its frame is later than the
last one read, ACT_MAP and RX_MAP (R121).  DEDUCED: "latest" goes by MFC, so a late member's older frame takes nothing back. -/
def State.grpRead (s : State) (n sl g : Nat) (o : List Byte) : State :=
  let mfc := fieldAt o 3 2
  let rdi := threeRun (s.on TRK_GRP_STAT_RDI_RX sl g) (natBit (fieldAt o 6 1) 2) (s.tgrp sl g).rdiRun
  let old := s.on TRK_GRP_STAT_RDI_RX sl g
  let s := (s.setTgrp sl g (fun x => { x with rdiRun := rdi.2 })).setF TRK_GRP_STAT_RDI_RX rdi.1.toNat sl g
  let s := if rdi.1 && !old then s.raise 6 0 4 ((s.grpLanes sl g).headD 0) else s
  let isNew := match (s.tgrp sl g).rxMfc with
    | some m => 0 < mfcDiff mfc m
    | none => true
  if s.f TRK_MEM_STAT_STATE n = 7 && isNew then
    let s := (s.setF TRK_GRP_PEER_ACT_RX (fieldAt o 10 2) sl g).setF TRK_GRP_PEER_RXMAP_RX (fieldAt o 12 2) sl g
    (s.setTgrp sl g (fun x => { x with rxMfc := some mfc })).readRxMap sl g (fieldAt o 12 2)
  else s

/-- A frame goes into the member's deskew memory: 256 KiB, which hold 32 frames (R120). -/
def State.deskew (s : State) (n : Nat) (valid : Bool) (b : List Byte) : State :=
  s.setTmem n (fun x => { x with frames := (x.frames ++ [({ mfc := x.mfc, valid := valid, bytes := b } : TrkFrame)]).drop (x.frames.length - 31) })

/-- An in-frame member takes a frame with a valid overhead. -/
def State.takeFrame (s : State) (n g : Nat) (b : List Byte) : State :=
  let s := s.setTmem n (fun x => { x with align := 2, hits := 3, misses := 0, mfc := fieldAt b 3 2, arr := s.cc })
  ((s.memChecks n g).grpRead n (n / 16) g b).deskew n true b

/-- What stands on a member lane where a frame begins: what arrives, or in a near-end loopback the frame that the group sent last there (R90). -/
def State.memBytes (s : State) (n g : Nat) (bytes : List Byte) : List Byte :=
  if s.f LANE_STAT_STATE n = 7 then (s.tgrp (n / 16) g).sent.getD ((s.grpLanes (n / 16) g).idxOf n) [] else bytes

/-- TRUNK_FRAME_RX (R114, R115, R118 to R122, R126): `bytes` are the 8,192 from a block start on a member lane, `gap` how many data blocks it comes
after the last one that counted: 1,024 is where the next frame is expected. -/
def execTrunkFrameRx (n : Fin 512) (bytes : List Byte) (gap : Nat) (s : State) : Host.Outcome State Fault Refusal :=
  .next (match s.memGroup n with
    | none => s
    | some g => s.when (s.laneData n) fun s =>
      let b := s.memBytes n g bytes
      let x := s.tmem n
      let hit := ovhValid b && (x.align == 0 || gap == 1024)
      let s := if hit && x.align != 0 then s.count C_BIP_ERR (ones 8 (x.bip ^^^ BitVec.ofNat 8 (fieldAt b 9 1)).toNat) n else s
      let s := if hit then (s.setF TRK_MEM_STAT_MEMBER_RX (fieldAt b 6 1 / 16) n).setF TRK_MEM_STAT_AIS_RX (fieldAt b 6 1 / 8 % 2) n
        else s
      let s := if hit then s.memRuns n g b else s
      let s := s.setTmem n (fun x => { x with bip := bip8 b })
      let s :=
        if x.align = 0 then
          if hit then (s.setTmem n (fun x => { x with align := 1, hits := 1 })).memTo n 2 else s
        else if x.align = 1 then
          if !hit then (s.setTmem n (fun _ => {})).memTo n 1
          else if x.hits + 1 < 3 then s.setTmem n (fun x => { x with hits := x.hits + 1 })
          else s.takeFrame n g b
        else if hit then s.takeFrame n g b
        else if x.misses + 1 < 4 then
          (s.setTmem n (fun x => { x with misses := x.misses + 1, mfc := (x.mfc + 1) % 65536, arr := s.cc })).deskew n false b
        else ((s.setTmem n (fun _ => {})).count C_LOF_ENTRIES 1 n).memTo n 1
      s.trkEval (n / 16) g)

/-! ### Release of group blocks (R117, R120, R122) -/

/-- The lane that carries the sender's member `m`: the one that receives that number, else the lane of that member here. -/
def State.carrier (s : State) (sl g m : Nat) : Nat :=
  let ls := s.grpLanes sl g
  match (s.usable sl g).find? (fun n => s.f TRK_MEM_STAT_MEMBER_RX n == m) with
  | some n => n
  | none => ls.getD m (ls.headD 0)

/-- Frame `f` in a member's deskew memory. -/
def State.held (s : State) (n f : Nat) : Option TrkFrame := (s.tmem n).frames.find? (fun e => e.mfc == f)

/-- The active set and BPTR of frame `f`: read from a USABLE member's valid overhead, else that of the frame before (R122). -/
def State.activeSet (s : State) (sl g f : Nat) : Nat × Nat :=
  let x := s.tgrp sl g
  match (s.usable sl g).findSome? (fun n => (s.held n f).bind (fun e => if e.valid then some e.bytes else none)) with
  | some b => (fieldAt b 10 2, fieldAt b 7 1 % 128)
  | none => (x.act, (x.bptr + 64) % 66)

/-- The descrambled payload of frame `f` on the lane of the sender's member `m`; none while the member is not USABLE. -/
def State.memPayload (s : State) (sl g f m : Nat) : Option Nat :=
  let n := s.carrier sl g m
  if (s.usable sl g).contains n then (s.held n f).map (fun e => beNat (e.bytes.drop 16) ^^^ payloadMask) else none

/-- The rows of blocks that end in a frame, in the order of the group's stream (R117): first those that run on from the frame before, then those
that start in this one; a lost block is none. -/
def releasedBlocks (tails : List (Option Nat)) (heads pays : List (Option Nat)) (bptr : Nat) : List (Option Nat) :=
  List.zipWith (fun t h => t.bind (fun t => h.map (fun h => t * 2 ^ bptr + blockHead bptr h))) tails heads ++
    ((List.range (blocksWhole bptr)).map (fun k => pays.map (fun p => p.map (fun p => blockAt bptr p k)))).flatten

/-- One block of the group's stream reaches the PCS: descrambled, a lost one as an error block (R122), and put to the frame it belongs to. -/
def TrkGrp.takeBlock (x : TrkGrp) (b : Option Nat) : TrkGrp :=
  let r := descramble x.rxReg (b.getD 0)
  let st := frameStep x.rxOpen (if b.isSome then r.2 else errorBlock)
  { x with rxReg := r.1, rxOpen := st.1, rxFrames := x.rxFrames ++ st.2.toList }

/-- The Flue byte of a released frame, from the designated member or else the lowest-numbered USABLE one (R129, R130). -/
def State.flueRx (s : State) (sl g f : Nat) : State :=
  match s.fspOf sl g with
  | none => s
  | some k =>
    let us := s.usable sl g
    let des := (s.grpLanes sl g).getD (s.ca TRK_FSP_CFG_MEMBER k) 0
    match s.held (if us.contains des then des else us.headD 0) f with
    | none => s
    | some e =>
      let b : Byte := BitVec.ofNat 8 (fieldAt e.bytes 8 1)
      let y := s.fsp k
      if 64 ≤ y.rx.length then (s.setFsp k { y with rd := b }).flag TRK_FSP_STAT_RX_OVF k
      else s.setFsp k { y with rd := b, rx := y.rx ++ [b] }

/-- Frame `f` of a group is released. -/
def State.releaseFrame (s : State) (sl g f : Nat) : State :=
  let (act, bptr) := s.activeSet sl g f
  let us := s.usable sl g
  let s := (List.range 16).foldl (fun s m =>
    if natBit act m && !(us.contains (s.carrier sl g m)) then s.count C_ERR_BLK (blocksIn bptr) (s.carrier sl g m) else s) s
  let members (a : Nat) : List Nat := (List.range 16).filter (natBit a)
  let x := s.tgrp sl g
  let pays := (members act).map (s.memPayload sl g f)
  let blocks := releasedBlocks x.rxTail ((members x.act).map (s.memPayload sl g f)) pays bptr
  let s := (s.flueRx sl g f).setTgrp sl g (fun x => { blocks.foldl TrkGrp.takeBlock x with
    rel := some f, act := act, bptr := bptr
    rxTail := if blocksIn bptr = blocksWhole bptr then [] else pays.map (fun p => p.map (blockTail bptr)) })
  (s.grpLanes sl g).foldl (fun s n => s.setTmem n (fun x => { x with frames := x.frames.filter (fun e => 0 < mfcDiff e.mfc f) })) s

/-- DESKEW_RELEASE (R120, R122): the next frame's blocks are released once the latest USABLE member's frame of that number has arrived.  The spec
does not say where release begins: DESIGN CHOICE (log 129), with the latest USABLE member's frame at that time. -/
def execDeskewRelease (sl : Fin 32) (g : Fin 8) (s : State) : Host.Outcome State Fault Refusal :=
  .next (match (s.usable sl g).foldl (fun b n => match b with
        | none => some (s.tmem n).mfc
        | some m => some (if mfcDiff (s.tmem n).mfc m < 0 then (s.tmem n).mfc else m)) none with
    | none => s
    | some last =>
      let f := match (s.tgrp sl g).rel with
        | none => last
        | some r => (r + 1) % 65536
      s.when ((s.tgrp sl g).rel.isNone || 0 ≤ mfcDiff last f) fun s => s.releaseFrame sl g f)

/-! ### Frames sent (R121, R126, R129) -/

/-- ACT_MAP of the next frame (R121). -/
def State.nextAct (s : State) (sl g : Nat) : Nat :=
  let ls := s.grpLanes sl g
  let usable := !(s.usable sl g).isEmpty
  let x := s.tgrp sl g
  (List.range ls.length).foldl (fun a m =>
    let lane := s.laneData (ls.getD m 0)
    let isIn := natBit (s.f TRK_GRP_MAP_ACT_TX sl g) m
    let stay := isIn && (!usable || !natBit x.mapLost m)
    let enter := !isIn && usable && 8 ≤ x.mapRun.get m
    if lane && (stay || enter) then a + 2 ^ m else a) 0

/-- RX_MAP of the next frame: the sender's numbers of the USABLE members. -/
def State.nextRxMap (s : State) (sl g : Nat) : Nat :=
  (List.range 16).foldl (fun a m => if (s.usable sl g).any (fun n => s.f TRK_MEM_STAT_MEMBER_RX n == m) then a + 2 ^ m else a) 0

/-- The blocks that start in a frame, as many as `n`, from the port's PCS, with idle blocks where it has none, scrambled (R69, R117). -/
def TrkGrp.giveBlocks (x : TrkGrp) (n : Nat) : TrkGrp × List Nat :=
  let plain := x.txBlocks.take n ++ List.replicate (n - x.txBlocks.length) idleBlock
  let r := plain.foldl (fun (st : Nat × List Nat) b => let y := scramble st.1 b; (y.1, y.2 :: st.2)) (x.txReg, [])
  ({ x with txBlocks := x.txBlocks.drop n, txReg := r.1 }, r.2.reverse)

/-- The payloads of a frame for `members`, and what runs on from each: the members of ACT_MAP, ascending, take the blocks in turn, and the others carry
idle blocks. -/
def framePayloads (members act bptr : Nat) (tails blocks : List Nat) : List (Nat × Nat) :=
  let ms := (List.range members).filter (natBit act)
  (List.range members).map (fun m =>
    let own := (List.range (blocksIn bptr)).map (fun k => if natBit act m then blocks.getD (k * ms.length + ms.idxOf m) idleBlock else idleBlock)
    packPayload bptr (tails.getD m 0) own)

/-- The rate of a trunk port's egress has changed: frames in flight on its line go on at the new pace (R124). -/
def State.repace (s : State) (p old : Nat) : State :=
  let new := s.portRate p false
  if new = old ∨ new = 0 then s
  else
    let now := s.cc + 1
    let since (c : Nat) : Nat := now - (now - c) * old / new
    let s := s.fwd.copies.foldl (fun s e =>
      if e.2.port = p ∧ e.2.state = .sending then s.setCopy e.1 { e.2 with start := since e.2.start } else s) s
    (s.setMp p (fun m => { m with
      genOut := m.genOut.map (fun x => (since x.1, x.2)), lineEnd := if now ≤ m.lineEnd then now + ceilDiv ((m.lineEnd - now) * old) new else m.lineEnd })).replan p

/-- The Flue byte of the next frame: sampled from FSPk_TD, or from the transmit FIFO (R129). -/
def State.flueTx (s : State) (sl g : Nat) (td : Byte) : State × Byte :=
  match s.fspOf sl g with
  | none => (s, 0xFF)
  | some k =>
    if s.ca TRK_FSP_CFG_SRC k = 0 then (s, td)
    else match (s.fsp k).tx with
      | [] => (s, 0x7E)
      | b :: rest => (s.setFsp k { s.fsp k with tx := rest }, b)

/-- TRUNK_FRAME_TX (R114 to R117, R121, R126, R129): the next frame on every member; `td` holds the eight bits sampled from FSPk_TD. -/
def execTrunkFrameTx (sl : Fin 32) (g : Fin 8) (td : Byte) (s : State) : Host.Outcome State Fault Refusal :=
  .next (s.when (s.caOn TRK_GRP_CFG_EN sl g) fun s =>
    let ls := s.grpLanes sl g
    let act := s.nextAct sl g
    let rxmap := s.nextRxMap sl g
    let ais := !s.caOn MAC_PORT_CFG_EN (ls.headD 0)
    let old := s.portRate (ls.headD 0) false
    let s := (s.setF TRK_GRP_MAP_ACT_TX act sl g).setF TRK_GRP_MAP_RXMAP_TX rxmap sl g
    let s := s.setF TRK_GRP_STAT_AIS_TX ais.toNat sl g
    let (s, flue) := s.flueTx sl g td
    let x := s.tgrp sl g
    let rdi := !s.on TRK_GRP_STAT_RX_UP sl g
    let gid := s.ca TRK_GRP_ID_GID_TX sl g
    let (x, blocks) := x.giveBlocks (ones 16 act * blocksIn x.txBptr)
    let pays := framePayloads ls.length act x.txBptr x.txTail blocks
    let out := (List.range ls.length).map (fun m =>
      trunkOvh x.txMfc gid m ais rdi x.txBptr flue (bip8 (x.sent.getD m [])) act rxmap ++
        natBytes 8176 ((pays.getD m (0, 0)).1 ^^^ payloadMask))
    let s := s.setTgrp sl g (fun _ => { x with
      txMfc := (x.txMfc + 1) % 65536, txBptr := (x.txBptr + 64) % 66, txTail := pays.map (·.2), sent := out, mapLost := 0 })
    (s.repace (ls.headD 0) old).trkEval sl g)

/-! ### The Flue FIFOs (R130) and clears (R132) -/

/-- The word that TRK_FSP_RX reads. -/
def State.fspRxWord (s : State) (k : Nat) : Word :=
  match (s.fsp k).rx with
  | [] => 0
  | b :: _ => BitVec.ofNat 32 (256 + b.toNat)

/-- A read of TRK_FSP_RX removes the oldest received byte. -/
def State.fspPop (s : State) (k : Nat) : State :=
  match (s.fsp k).rx with
  | [] => s
  | _ :: rest => s.setFsp k { s.fsp k with rx := rest }

/-- A write to TRK_FSP_TX appends a byte, or sets TX_FULL. -/
def State.fspPush (s : State) (k : Nat) (b : Byte) : State :=
  if 64 ≤ (s.fsp k).tx.length then s.flag TRK_FSP_STAT_TX_FULL k else s.setFsp k { s.fsp k with tx := (s.fsp k).tx ++ [b] }

/-- FLUE_RX_READ (R130). -/
def execFlueRxRead (k : Fin 4) (s : State) : Host.Outcome State Fault Refusal := .next (s.fspPop k)

/-- FLUE_TX_WRITE (R130). -/
def execFlueTxWrite (k : Fin 4) (b : Byte) (s : State) : Host.Outcome State Fault Refusal := .next (s.fspPush k b)

/-- The three counters of a member (R132). -/
def trkCounters : List Cnt := [C_BIP_ERR, C_LOF_ENTRIES, C_ERR_BLK]

/-- TRK_MEM_CNT_CLR (R132). -/
def State.trkMemCntClrCmd (s : State) (n : Nat) : State :=
  s.cclrs trkCounters n

/-- TRK_MEM_CNT_CLR. -/
def execTrkMemCntClr (n : Fin 512) (s : State) : Host.Outcome State Fault Refusal := .next (s.trkMemCntClrCmd n.val)

/-! ### A commit changes groups (R112) -/

/-- After a commit, settle the members of slice `sl` against the slot that was in force before: a lane that joined or left a
group starts afresh, a group whose members have changed begins its stream afresh, and every group is settled. -/
def State.trkCommit (s : State) (old sl : Nat) : State :=
  let grpIn (n l : Nat) : Option Nat :=
    (List.range 8).find? (fun g => s.cf n TRK_GRP_CFG_EN sl g == 1 && natBit (s.cf n TRK_GRP_CFG_LANE_MASK sl g) l)
  let s := (List.range 16).foldl (fun s l =>
    let n := 16 * sl + l
    if grpIn old l = grpIn s.active l then s
    else (s.setTmem n (fun _ => {})).setF TRK_MEM_STAT_STATE (if (grpIn s.active l).isSome && s.laneData n then 1 else 0) n) s
  (List.range 8).foldl (fun s g =>
    if s.cf old TRK_GRP_CFG_EN sl g = 0 && s.ca TRK_GRP_CFG_EN sl g = 0 then s
    else
      let same := s.cf old TRK_GRP_CFG_EN sl g = s.ca TRK_GRP_CFG_EN sl g && s.cf old TRK_GRP_CFG_LANE_MASK sl g = s.ca TRK_GRP_CFG_LANE_MASK sl g
      let s := if same then s else (s.trkForget sl g).setTgrp sl g (fun x => { x with txTail := [], txBlocks := [], sent := [], rxFrames := [] })
      let s := if s.ca TRK_GRP_CFG_EN sl g = 0 then
          (((s.setF TRK_GRP_MAP_ACT_TX 0 sl g).setF TRK_GRP_MAP_RXMAP_TX 0 sl g).setF TRK_GRP_STAT_AIS_TX 0 sl g) else s
      s.trkEval sl g) s

end Sys2Proof.Machine
end

