-- ==== Sys2Proof/Machine/Lanes.lean ====
section
/-! DEFINITION. Lanes (R67 to R93, R109, R490): reference clocks and PLLs, training, failure, back-off, adaptation, Ember, test
patterns, loopbacks, and the sleep of the AUX ports. -/

namespace Sys2Proof.Machine

/-- A lane's own state. -/
def State.ln (s : State) (n : Nat) : LaneState := s.lanes.lane.get n

/-- Change a lane's own state. -/
def State.setLn (s : State) (n : Nat) (f : LaneState → LaneState) : State :=
  { s with lanes := { s.lanes with lane := s.lanes.lane.upd n f } }

/-- Cycles of CCLK in one ms. -/
def msCc : Nat := 1500000

/-- Is the PLL of a lane locked (R490). -/
def State.pllLocked (s : State) (n : Nat) : Bool :=
  if 512 ≤ n then natBit s.lanes.auxLock (n - 512) else s.on LANE_OCT_STAT_PLL_LOCK (n / 8)

/-- Is the chip in the safe state (R469). -/
def State.safe (s : State) : Bool := s.on FLT_STAT_SAFE

/-- Is the AUX port of a lane asleep (R109). -/
def State.auxAsleep (s : State) (n : Nat) : Bool := 512 ≤ n && s.on MAC_AUX_CTL_SLEEP (n - 512)

/-- The lanes that move together with lane `n`: those of its Ethernet port; a trunk member, an AUX lane and a lane of no port move
alone (R78, R113). -/
def State.siblings (s : State) (n : Nat) : List Nat :=
  if 512 ≤ n then [n]
  else match s.memGroup n with
    | some _ => [n]
    | none => match s.laneOwner n with
      | some p => s.portLanes p
      | none => [n]

/-- Is a lane in a training state, WAIT_SIG to ALIGN. -/
def State.training (s : State) (n : Nat) : Bool := 1 ≤ s.f LANE_STAT_STATE n && s.f LANE_STAT_STATE n ≤ 4

/-- The port or the trunk member of a lane learns that the lane has left DATA (R106, R119). -/
def State.leftData (s : State) (n : Nat) : State :=
  if 512 ≤ n then s.portDown n
  else match s.memGroup n with
    | some _ => s.memLos n
    | none => match s.laneOwner n with
      | some p => (s.portDown p).setF MAC_PORT_STAT_LPI_RX 0 p
      | none => s

/-- Show lane state `st`; outside DATA no lock, Ember or frozen adaptation remains. -/
def State.laneSet (s : State) (n st : Nat) : State :=
  let was := s.laneData n
  let s := s.setF LANE_STAT_STATE st n
  if st = 5 ∨ st = 7 then s else
    let s := ([LANE_STAT_BLOCK_LOCK, LANE_STAT_AM_LOCK, LANE_STAT_TX_EMBER, LANE_STAT_RX_EMBER, LANE_STAT_FROZEN]).foldl
      (fun s x => s.setF x 0 n) s
    let s := s.setLn n (fun x => { x with
      goodMarks := 0, badMarks := 0, seq := none, idx := none, misWidth := false, refreshAt := 0, spoilt := [] })
    if was then s.leftData n else s

/-- Begin a training attempt in WAIT_SIG (R78, R79). -/
def State.attempt (s : State) (n : Nat) : State :=
  ((s.satF LANE_ATTEMPTS_COUNT 1 n).setLn n (fun x => { x with tmoStart := s.cc })).laneSet n 1

/-- A lane goes to OFF. -/
def State.laneOff (s : State) (n : Nat) : State := ((s.laneSet n 0).setF LANE_STAT_SIG_DET 0 n).setF LANE_STAT_PRECODE_ON 0 n

/-- A lane goes to OFF with a cause. -/
def State.laneOffCause (s : State) (n cause : Nat) : State := (s.laneOff n).setF LANE_STAT_FAIL_CAUSE cause n

/-- Is the pattern generator or the checker of a lane on (R88). -/
def State.prbsOn (s : State) (n : Nat) : Bool := s.on LANE_PRBS_GEN_EN n || s.on LANE_PRBS_CHK_EN n

/-- A lane in OFF leaves it when it may: for PRBS, for a near-end loopback, or for a training attempt (R78, R88, R90).  The spec does not say what
SIG_DET, BLOCK_LOCK and AM_LOCK show in a near-end loopback: they stay 0 (DESIGN CHOICE, log 126). -/
def State.startLane (s : State) (n : Nat) : State :=
  if s.f LANE_STAT_STATE n ≠ 0 || s.safe || !s.pllLocked n || s.auxAsleep n then s
  else if s.prbsOn n then s.laneSet n 8
  else if !s.on LANE_CTL_EN n then s
  else if s.f LANE_CTL_LOOP n = 1 ∨ s.f LANE_CTL_LOOP n = 2 then
    let s := s.laneSet n 7
    if n < 512 then s.memData n else s
  else s.attempt n

/-! ### Reference clocks and PLLs (R72 to R74, R490) -/

/-- The lanes of an octet. -/
def octLanes (o : Nat) : List Nat := (List.range 8).map (8 * o + ·)

/-- The octet's PLL loses lock and its lanes go to OFF. -/
def State.octOff (s : State) (o : Nat) (cause : Option Nat) : State :=
  let s := s.setF LANE_OCT_STAT_PLL_LOCK 0 o
  (octLanes o).foldl (fun s n => match cause with
    | some c => s.laneOffCause n c
    | none => s.laneOff n) s

/-- Settle whether an independent octet runs on an input declared SPREAD (R73).  R73 names no cause for lanes that the conflict sends to OFF:
FAIL_CAUSE keeps its value (DESIGN CHOICE, log 125). -/
def State.spreadCheck (s : State) (o : Nat) : State :=
  let bad := s.ca LANE_OCT_CFG_COMMON o == 0 && s.on LANE_REFCLK_SPREAD (o / 8)
  if bad == s.on LANE_OCT_STAT_SPREAD_CONFLICT o then s
  else if bad then ((s.setF LANE_OCT_STAT_SPREAD_CONFLICT 1 o).raise 8 1 12).octOff o none
  else s.setF LANE_OCT_STAT_SPREAD_CONFLICT 0 o

/-- A write of LANE_REFCLKk: each octet that the input serves is checked. -/
def State.refclkWritten (s : State) (k : Nat) : State := (octLanes k).foldl State.spreadCheck s

/-- REFCLK_LOST (R74). -/
def execRefclkLost (k : Fin 8) (s : State) : Host.Outcome State Fault Refusal :=
  .next (s.when (s.on LANE_REFCLK_PRESENT k) fun s =>
    let s := (s.setF LANE_REFCLK_PRESENT 0 k).raise 4 2 1
    let s := (octLanes k).foldl (fun s o => s.octOff o (some 7)) s
    if k.val = 0 then
      let s := { s with lanes := { s.lanes with auxLock := 0 } }
      (s.laneOffCause 512 7).laneOffCause 513 7
    else s)

/-- REFCLK_PRESENT (R490). -/
def execRefclkPresent (k : Fin 8) (s : State) : Host.Outcome State Fault Refusal := .next (s.setF LANE_REFCLK_PRESENT 1 k)

/-- PLL_LOCK (R490): with its input present and no spread conflict the PLL locks (64: the PLL of the AUX lanes), and each enabled
lane leaves OFF. -/
def execPllLock (o : Fin 65) (s : State) : Host.Outcome State Fault Refusal :=
  .next (if o.val = 64 then
      s.when (s.on LANE_REFCLK_PRESENT 0) fun s =>
        let s := { s with lanes := { s.lanes with auxLock := 3 } }
        (s.startLane 512).startLane 513
    else s.when (s.on LANE_REFCLK_PRESENT (o / 8) && !s.on LANE_OCT_STAT_SPREAD_CONFLICT o && !s.on LANE_OCT_STAT_PLL_LOCK o) fun s =>
      (octLanes o).foldl State.startLane (s.setF LANE_OCT_STAT_PLL_LOCK 1 o))

/-- A commit that changes an octet's RATE or COMMON sends its lanes to OFF (R82); `old` is the slot that was in force. -/
def State.laneCommit (s : State) (old : Nat) : State :=
  (List.range 64).foldl (fun s o =>
    let s := if (s.slot old).rget LANE_OCT_CFG o = (s.slot s.active).rget LANE_OCT_CFG o then s else s.octOff o (some 0)
    s.spreadCheck o) s

/-! ### Enabling, loopback and training (R78, R79, R90) -/

/-- EN becomes 1: a run of attempts starts afresh. -/
def State.laneEnabled (s : State) (n : Nat) : State :=
  ((s.setF LANE_CTL_EN 1 n).setLn n (fun x => { x with raised := false })).startLane n

/-- EN becomes 0. -/
def State.laneDisabled (s : State) (n : Nat) : State :=
  ((s.setF LANE_CTL_EN 0 n).laneOffCause n 0).setF LANE_BACKOFF_FAILS 0 n

/-- LANE_ENABLE (R78). -/
def execLaneEnable (n : Fin 514) (s : State) : Host.Outcome State Fault Refusal :=
  .next (s.when (!s.on LANE_CTL_EN n) fun s => s.laneEnabled n)

/-- LANE_DISABLE (R78). -/
def execLaneDisable (n : Fin 514) (s : State) : Host.Outcome State Fault Refusal := .next (s.laneDisabled n)

/-- LOOP changes: the lane goes to OFF and then on as LOOP selects; codes 4 to 7 are stored as 0 (R90). -/
def State.loopChange (s : State) (n loop : Nat) : State :=
  let l := if 4 ≤ loop then 0 else loop
  if s.f LANE_CTL_LOOP n = l then s else ((s.setF LANE_CTL_LOOP l n).laneOffCause n 0).startLane n

/-- LANE_LOOP_CHANGE (R90). -/
def execLaneLoopChange (n : Fin 514) (loop : Fin 8) (s : State) : Host.Outcome State Fault Refusal := .next (s.loopChange n loop)

/-- PARTNER_FRAME_LOCK (R78): WAIT_SIG to TRAIN. -/
def execPartnerFrameLock (n : Fin 514) (s : State) : Host.Outcome State Fault Refusal :=
  .next (s.when (s.f LANE_STAT_STATE n == 1) fun s => (s.laneSet n 2).setF LANE_STAT_SIG_DET 1 n)

/-- TRAIN_CONVERGED (R78): TRAIN to CONFIRM; precoding is used when both ends request it (R77), and what the partner requests is
free. -/
def execTrainConverged (n : Fin 514) (s : State) : Host.Outcome State Fault Refusal :=
  .next (s.when (s.f LANE_STAT_STATE n == 2) fun s =>
    let s := s.laneSet n 3
    if s.on LANE_CTL_PRECODE n then (s.setF LANE_STAT_PRECODE_ON s.freeVal n).fresh else s.setF LANE_STAT_PRECODE_ON 0 n)

/-- PARTNER_READY (R78): CONFIRM to ALIGN. -/
def execPartnerReady (n : Fin 514) (s : State) : Host.Outcome State Fault Refusal :=
  .next (s.when (s.f LANE_STAT_STATE n == 3) fun s => s.laneSet n 4)

/-- A lane enters DATA. -/
def State.enterData (s : State) (n : Nat) : State :=
  let s := (s.laneSet n 5).setF LANE_BACKOFF_FAILS 0 n
  let s := (s.setF LANE_STAT_BLOCK_LOCK 1 n).setF LANE_STAT_AM_LOCK 1 n
  let s := s.setLn n (fun x => { x with raised := false })
  if n < 512 then s.memData n else s

/-- Do the markers of a port's lanes disagree: WIDTH is another than the port's, or two lanes carry the same LANE_IDX (R71). -/
def State.mismatch (s : State) (ls : List Nat) : Bool :=
  ls.any (fun n => (s.ln n).misWidth) || !(ls.filterMap (fun n => (s.ln n).idx)).Nodup

/-- The lanes of a port in the order of the LANE_IDX of their markers, in which its receiver takes them (R71). -/
def State.laneOrder (s : State) (ls : List Nat) : List Nat :=
  (List.range ls.length).filterMap (fun i => ls.find? (fun n => (s.ln n).idx == some i))

/-- PORT_ALIGNED (R76, R78): every lane of the port holds block, codeword and marker lock, with the skews given in 0.1 ns; within
180 ns all lanes enter DATA.  DEDUCED: lanes whose markers disagree do not align, and the attempt ends by TRAIN_TMO, for which R78 names
cause 1; R81 gives cause 6 to a lane in DATA. -/
def execPortAligned (p : Fin 514) (skews : List Nat) (s : State) : Host.Outcome State Fault Refusal :=
  .next (let ls := s.siblings p
    s.when (ls.any (fun n => s.f LANE_STAT_STATE n == 4) && !s.mismatch ls &&
        ls.all (fun n => s.f LANE_STAT_STATE n == 4 || s.f LANE_STAT_STATE n == 5)) fun s =>
      let skew (i : Nat) : Nat := if ls.length ≤ 1 then 0 else skews.getD i 0
      let s := (List.range ls.length).foldl (fun s i =>
        let n := ls.getD i 0
        ((s.setF LANE_SKEW_SKEW (min (skew i) 65535) n).setF LANE_STAT_BLOCK_LOCK 1 n).setF LANE_STAT_AM_LOCK 1 n) s
      if (List.range ls.length).all (fun i => skew i ≤ 1800) then ls.foldl State.enterData s else s)

/-- TRAINING_SIGNAL_LOSS (R78): all lanes of the port that train return to WAIT_SIG. -/
def execTrainingSignalLoss (n : Fin 514) (s : State) : Host.Outcome State Fault Refusal :=
  .next (s.when (2 ≤ s.f LANE_STAT_STATE n && s.f LANE_STAT_STATE n ≤ 4) fun s =>
    (s.siblings n).foldl (fun s m => if s.training m then s.laneSet m 1 else s) (s.setF LANE_STAT_SIG_DET 0 n))

/-- The back-off wait after the k-th consecutive failure, in ms (R79). -/
def backoffMs (tmo k : Nat) : Nat := min (tmo * 2 ^ (k - 1)) 8000

/-- An attempt fails on one lane. -/
def State.attemptFails (s : State) (cause n : Nat) : State :=
  let s := s.satF LANE_BACKOFF_FAILS 1 n
  let s := (s.flag LANE_STAT_TRAIN_FAIL n).setF LANE_STAT_FAIL_CAUSE cause n
  let s := if (s.ln n).raised then s else (s.raise 5 0 1 n).setLn n (fun x => { x with raised := true })
  let wait := backoffMs (s.f LANE_TRAIN_CFG_TMO_MS n) (s.f LANE_BACKOFF_FAILS n)
  (s.laneSet n 6).setLn n (fun x => { x with backEnd := s.cc + wait * msCc })

/-- Did only skew keep the lanes of a port from DATA (R78). -/
def State.skewOnly (s : State) (ls : List Nat) : Bool :=
  ls.all (fun n => s.f LANE_STAT_STATE n == 4 && s.on LANE_STAT_BLOCK_LOCK n && s.on LANE_STAT_AM_LOCK n) &&
  ls.any (fun n => 1800 < s.f LANE_SKEW_SKEW n) && !s.mismatch ls

/-- TRAIN_TMO_EXPIRY (R78, R79). -/
def execTrainTmoExpiry (n : Fin 514) (s : State) : Host.Outcome State Fault Refusal :=
  .next (s.when (s.training n && (s.ln n).tmoStart + s.f LANE_TRAIN_CFG_TMO_MS n * msCc ≤ s.cc) fun s =>
    let ls := s.siblings n
    let cause := if s.skewOnly ls then 5 else 1
    ls.foldl (fun s m => if s.training m then s.attemptFails cause m else s) s)

/-- BACKOFF_END (R79). -/
def execBackoffEnd (n : Fin 514) (s : State) : Host.Outcome State Fault Refusal :=
  .next (s.when (s.f LANE_STAT_STATE n == 6 && (s.ln n).backEnd ≤ s.cc) fun s => s.attempt n)

/-- BACKOFF_SIGNAL_PRESENT (R80). -/
def execBackoffSignalPresent (n : Fin 514) (s : State) : Host.Outcome State Fault Refusal :=
  .next (s.when (s.f LANE_STAT_STATE n == 6) fun s => (s.attempt n).setF LANE_STAT_SIG_DET 1 n)

/-- The word that LANE_BACKOFF reads: REMAIN_MS is what is left of the wait, in ms rounded up. -/
def State.backoffWord (s : State) (n : Nat) : Word :=
  let r := if s.f LANE_STAT_STATE n = 6 then min (ceilDiv ((s.ln n).backEnd - s.cc) msCc) 16383 else 0
  wordPut (s.rget LANE_BACKOFF n) LANE_BACKOFF_REMAIN_MS.lsb LANE_BACKOFF_REMAIN_MS.w r

/-! ### Failure in DATA (R71, R78, R81) -/

/-- A lane in DATA fails: all lanes of the port begin a new attempt at once. -/
def State.laneFail (s : State) (n cause : Nat) : State :=
  if s.f LANE_STAT_STATE n ≠ 5 then s else
    let ls := (s.siblings n).filter (fun m => s.f LANE_STAT_STATE m == 5)
    let s := if cause = 2 then s.setF LANE_STAT_SIG_DET 0 n else s
    ls.foldl (fun s m => ((s.flag LANE_STAT_LINK_FAIL m).setF LANE_STAT_FAIL_CAUSE cause m).attempt m) s

/-- One codeword with `e` wrong symbols (R68, R69, R92): RS(544,514) corrects up to 15 of them.  More than 8 uncorrectable ones among 1,024
consecutive codewords fail a lane in DATA with cause 4 (R81). -/
def State.codeword (s : State) (n e : Nat) : State :=
  let k := (s.ln n).codewords
  let s := s.setLn n (fun x => { x with codewords := k + 1 })
  if e = 0 then s
  else if e ≤ 15 then (s.count C_LANE_FEC_CORR 1 n).count C_LANE_FEC_SYM e n
  else
    let s := (s.count C_LANE_FEC_UNCORR 1 n).setLn n (fun x => { x with spoilt := x.spoilt.filter (fun i => k < i + 1024) ++ [k] })
    if 8 < (s.ln n).spoilt.length then s.laneFail n 4 else s

/-- Codewords that the lane has received: after how many clean ones each comes, and its wrong symbols. -/
def State.codewordsIn (s : State) (n : Nat) (fec : List (Nat × Nat)) : State :=
  fec.foldl (fun s e => (s.setLn n (fun x => { x with codewords := x.codewords + e.1 })).codeword n e.2) s

/-- LANE_FAILURE (R81): loss of signal (cause 2), of lock (3), codewords (4) or a marker mismatch (6), outside Ember; `fec` the codewords
received since the lane's last such event or marker.  Cause 4 is what the codewords themselves give. -/
def execLaneFailure (n : Fin 514) (cause : Fin 16) (fec : List (Nat × Nat)) (s : State) : Host.Outcome State Fault Refusal :=
  .next (s.when (!s.on LANE_STAT_RX_EMBER n) fun s =>
    let s := s.codewordsIn n fec
    if cause.val = 2 ∨ cause.val = 3 ∨ cause.val = 6 then s.laneFail n cause else s)

/-- Is a marker block of a 425 Gb/s lane valid after SEQ `seq` (R70, R71). -/
def markerValid (seq : Option Nat) (m : BitVec 257) : Bool :=
  m.extractLsb' 233 24 == 0x5CD1E3#24 && m.extractLsb' 161 48 == ~~~(m.extractLsb' 209 48) &&
  (match seq with
   | some q => (m.extractLsb' 209 8).toNat == (q + 1) % 256
   | none => true)

/-- A valid marker at the exact spacing or elsewhere: two in a row give marker lock, and a mismatch fails a lane in DATA (R71, R81). -/
def State.goodMarker (s : State) (n : Nat) (spaced : Bool) : State :=
  let g := if spaced then min ((s.ln n).goodMarks + 1) 2 else 1
  let s := s.setLn n (fun x => { x with goodMarks := g, badMarks := 0 })
  let s := if g = 2 then s.setF LANE_STAT_AM_LOCK 1 n else s
  if s.mismatch (s.siblings n) then s.laneFail n 6 else s

/-- An invalid marker: three in a row lose marker lock, and SEQ is taken afresh. -/
def State.badMarker (s : State) (n : Nat) : State :=
  let b := min ((s.ln n).badMarks + 1) 3
  let s := s.setLn n (fun x => { x with goodMarks := 0, badMarks := b })
  if b = 3 then ((s.setLn n (fun x => { x with seq := none })).setF LANE_STAT_AM_LOCK 0 n).laneFail n 3 else s

/-- MARKER_RECEIVED (R71): a marker in ALIGN or DATA, outside Ember.  On a 425 Gb/s lane the marker block `m`, `pairs` codeword pairs after the
last, is judged by R70 and R71; at the rates of IEEE 802.3 `good` is what that standard makes of its marker (R68).  `fec`: the codewords received
since the lane's last marker. -/
def execMarkerReceived (n : Fin 514) (good : Bool) (m : BitVec 257) (pairs : Nat) (fec : List (Nat × Nat)) (s : State) :
    Host.Outcome State Fault Refusal :=
  .next (s.when ((s.f LANE_STAT_STATE n == 4 || s.f LANE_STAT_STATE n == 5) && !s.on LANE_STAT_RX_EMBER n) fun s =>
    let s := s.codewordsIn n fec
    if s.laneRate s.active n ≠ 0 then if good then s.goodMarker n true else s.badMarker n
    else if markerValid (s.ln n).seq m then
      let s := s.setLn n (fun x => { x with
        seq := some (m.extractLsb' 209 8).toNat, idx := some (m.extractLsb' 225 8).toNat,
        misWidth := (m.extractLsb' 217 8).toNat != (s.siblings n).length })
      s.goodMarker n (pairs == 4096)
    else s.badMarker n)

/-! ### Adaptation and Ember (R83 to R87) -/

/-- ADAPTATION_FREEZE (R83). -/
def execAdaptationFreeze (n : Fin 514) (s : State) : Host.Outcome State Fault Refusal :=
  .next (s.when (s.f LANE_STAT_STATE n == 5) fun s => s.setF LANE_STAT_FROZEN 1 n)

/-- ADAPTATION_RESUME (R83). -/
def execAdaptationResume (n : Fin 514) (s : State) : Host.Outcome State Fault Refusal :=
  .next (s.when (s.f LANE_STAT_STATE n == 5 && !s.on LANE_STAT_RX_EMBER n) fun s => s.setF LANE_STAT_FROZEN 0 n)

/-- Is Ember offered on a lane: in DATA at 106.25 Gb/s or above (R84). -/
def State.emberOffered (s : State) (n : Nat) : Bool := s.f LANE_STAT_STATE n == 5 && s.laneRate s.active n ≤ 2 && n < 512

/-- Is the port of a lane in LPI in its transmit direction. -/
def State.laneLpi (s : State) (n : Nat) : Bool :=
  match s.laneOwner n with
  | some p => (s.mp p).asleep
  | none => false

/-- EMBER_ENTRY (R84, R85). -/
def execEmberEntry (n : Fin 514) (s : State) : Host.Outcome State Fault Refusal :=
  .next (s.when (s.emberOffered n && s.laneLpi n) fun s =>
    (s.setF LANE_STAT_TX_EMBER 1 n).setLn n (fun x => { x with refreshAt := s.cc }))

/-- LPI_RX of the lane's Ethernet port shows whether the partner is in LPI, as far as a command reports it: from the receive entry into
Ember to the exit (R85, R105). -/
def State.lpiRx (s : State) (n v : Nat) : State :=
  match s.laneOwner n with
  | some p => if s.isTrunk s.active p then s else s.setF MAC_PORT_STAT_LPI_RX v p
  | none => s

/-- RX_EMBER_ENTRY (R85): adaptation freezes. -/
def execRxEmberEntry (n : Fin 514) (s : State) : Host.Outcome State Fault Refusal :=
  .next (s.when (s.emberOffered n) fun s => ((s.setF LANE_STAT_RX_EMBER 1 n).setF LANE_STAT_FROZEN 1 n).lpiRx n 1)

/-- The refresh period in cc: 50 µs on independent octets, 1,000 µs on common-reference ones (R86). -/
def State.refreshCc (s : State) (n : Nat) : Nat := if s.ca LANE_OCT_CFG_COMMON (n / 8) = 1 then 1500000 else 75000

/-- EMBER_REFRESH (R86). -/
def execEmberRefresh (n : Fin 514) (s : State) : Host.Outcome State Fault Refusal :=
  .next (s.when (s.on LANE_STAT_TX_EMBER n && (s.ln n).refreshAt + s.refreshCc n ≤ s.cc) fun s =>
    s.setLn n (fun x => { x with refreshAt := s.cc }))

/-- EMBER_REFRESH_MISS (R86): three missed periods are a loss of signal, cause 2. -/
def execEmberRefreshMiss (n : Fin 514) (s : State) : Host.Outcome State Fault Refusal :=
  .next (s.when (s.on LANE_STAT_RX_EMBER n) fun s => s.laneFail n 2)

/-- EMBER_EXIT (R87). -/
def execEmberExit (n : Fin 514) (s : State) : Host.Outcome State Fault Refusal :=
  .next (s.when (s.on LANE_STAT_TX_EMBER n && !s.laneLpi n) fun s =>
    (s.setF LANE_STAT_TX_EMBER 0 n).setLn n (fun x => { x with refreshAt := 0 }))

/-- RX_EMBER_EXIT (R87). -/
def execRxEmberExit (n : Fin 514) (s : State) : Host.Outcome State Fault Refusal :=
  .next (s.when (s.on LANE_STAT_RX_EMBER n) fun s =>
    ((s.setF LANE_STAT_RX_EMBER 0 n).setF LANE_STAT_FROZEN 0 n).lpiRx n 0)

/-! ### Test patterns (R88, R89) -/

/-- The taps of a pattern's recurrence: the bit to come is the sum of the bits so many places before it.  The Q patterns are those of PRBS13 and
PRBS31 after Gray decoding; the square wave inverts the UI 16 before. -/
def patternTaps (pattern : Nat) : List Nat :=
  [[7, 6], [9, 5], [13, 12, 2, 1], [15, 14], [23, 18], [31, 28], [13, 12, 2, 1], [31, 28]].getD pattern [16]

/-- How many bits seed a pattern: the degree of its polynomial. -/
def patternDegree (pattern : Nat) : Nat := (patternTaps pattern).headD 16

/-- The bit that follows the ones in a shift register, the latest lowest. -/
def patternBit (pattern reg : Nat) : Bool := (patternTaps pattern).foldl (fun a t => xor a (natBit reg (t - 1))) (pattern == 8)

/-- A shift register of 31 bits after one more bit. -/
def patternPush (reg : Nat) (b : Bool) : Nat := (2 * reg + b.toNat) % 2 ^ 31

/-- The register after `k` bits of its own pattern. -/
def patternRun (pattern reg : Nat) : Nat → Nat
  | 0 => reg
  | k + 1 => patternRun pattern (patternPush reg (patternBit pattern reg)) k

/-- Bits that a lane sends in `t` cc: a 425 Gb/s lane 850 in 3, and half as many for each rate below (R67). -/
def State.laneBits (s : State) (n t : Nat) : Nat := t * 850 / (3 * 2 ^ min (s.laneRate s.active n) 3)

/-- Bit `k` of a lane's generator, before Gray coding: the pattern from the generator's seed, with the bits that INSERT_ERR has inverted. -/
def State.generated (s : State) (n k : Nat) : Bool :=
  let p := s.f LANE_PRBS_PATTERN n
  xor (patternBit p (patternRun p (Config.prbsSeed n) k)) ((s.ln n).inverted.contains k)

/-- GEN_EN, CHK_EN and PATTERN take new values; codes 9 to 15 are stored as 5. -/
def State.prbsSet (s : State) (n : Nat) (gen chk : Bool) (pattern : Nat) : State :=
  let fresh := gen && !s.on LANE_PRBS_GEN_EN n
  let s := ((s.setF LANE_PRBS_GEN_EN gen.toNat n).setF LANE_PRBS_CHK_EN chk.toNat n).setF LANE_PRBS_PATTERN
    (if 9 ≤ pattern then 5 else pattern) n
  let s := if chk then s else s.setF LANE_PRBS_CHK_LOCK 0 n
  let s := if gen then s else s.setLn n (fun x => { x with inverted := [] })
  let s := if fresh then s.setLn n (fun x => { x with genFrom := s.cc }) else s
  if gen || chk then
    if s.f LANE_STAT_STATE n = 8 || s.safe || !s.pllLocked n || s.auxAsleep n then s
    else
      let s := if s.laneData n then s.setF LANE_STAT_FAIL_CAUSE 0 n else s
      s.laneSet n 8
  else if s.f LANE_STAT_STATE n = 8 then
    if s.on LANE_CTL_EN n then s.attempt n else s.laneOff n
  else s

/-- PRBS_ENABLE (R88). -/
def execPrbsEnable (n : Fin 514) (gen chk : Bool) (pattern : Fin 16) (s : State) : Host.Outcome State Fault Refusal :=
  .next (s.prbsSet n gen chk pattern)

/-- One bit of the generated pattern is inverted: DESIGN CHOICE, the first that is generated after this cc.  With the generator off, or the lane not
in PRBS, no bit is generated and none is inverted (log 124). -/
def State.insertErr (s : State) (n : Nat) : State :=
  if s.f LANE_STAT_STATE n = 8 && s.on LANE_PRBS_GEN_EN n then
    s.setLn n (fun x => { x with inverted := x.inverted ++ [s.laneBits n (s.cc + 1 - x.genFrom)] })
  else s

/-- INSERT_ERR (R89). -/
def execInsertErr (n : Fin 514) (s : State) : Host.Outcome State Fault Refusal := .next (s.insertErr n)

/-- The checker's register after received bits. -/
def seeded (reg : Nat) (bits : List Bool) : Nat := bits.foldl patternPush reg

/-- How many bits differ from a checker's own pattern, and its register after them. -/
def patternErrors (pattern : Nat) : Nat → List Bool → Nat × Nat
  | reg, [] => (0, reg)
  | reg, b :: t =>
    let own := patternBit pattern reg
    let r := patternErrors pattern (patternPush reg own) t
    (r.1 + (xor b own).toNat, r.2)

/-- PRBS_CHECKER_LOCK (R89): `bits` as received, after Gray decoding.  The first of them, as many as the pattern's degree, seed the checker;
1,024 more without an error give CHK_LOCK. -/
def execPrbsCheckerLock (n : Fin 514) (bits : List Bool) (s : State) : Host.Outcome State Fault Refusal :=
  .next (let pat := s.f LANE_PRBS_PATTERN n
    let d := patternDegree pat
    let r := patternErrors pat (seeded 0 (bits.take d)) (bits.drop d)
    s.when (s.f LANE_STAT_STATE n == 8 && s.on LANE_PRBS_CHK_EN n && !s.on LANE_PRBS_CHK_LOCK n && r.1 == 0 && d + 1024 ≤ bits.length) fun s =>
      (s.setF LANE_PRBS_CHK_LOCK 1 n).setLn n (fun x => { x with checker := r.2 }))

/-- PRBS_LOCK_LOST (R89): while locked, the errors of the next received bits, up to 1,024, are counted; more than 64 lose the lock. -/
def execPrbsLockLost (n : Fin 514) (bits : List Bool) (s : State) : Host.Outcome State Fault Refusal :=
  .next (s.when (s.on LANE_PRBS_CHK_LOCK n) fun s =>
    let r := patternErrors (s.f LANE_PRBS_PATTERN n) (s.ln n).checker bits
    let s := (s.count C_LANE_PRBS_ERR r.1 n).setLn n (fun x => { x with checker := r.2 })
    if 64 < r.1 then (s.setF LANE_PRBS_CHK_LOCK 0 n).flag LANE_PRBS_LOCK_LOST n else s)

/-! ### AUX lanes and ports (R92, R109) -/

/-- A write of LANE_AUX_CFGa.RATE. -/
def State.auxRate (s : State) (a rate : Nat) : State :=
  if rate < 2 ∨ 4 < rate then s.flag LANE_AUX_CFG_CFG_ERR a
  else if s.f LANE_AUX_CFG_RATE a = rate then s
  else
    let s := s.setF LANE_AUX_CFG_RATE rate a
    let s := { s with lanes := { s.lanes with auxLock := if natBit s.lanes.auxLock a then s.lanes.auxLock - 2 ^ a else s.lanes.auxLock } }
    s.laneOffCause (512 + a) 0

/-- LANE_AUX_CFG_WRITE (R92): the lane goes to OFF and begins a new attempt once the PLL of the AUX lanes has locked again (R490). -/
def execLaneAuxCfgWrite (a : Fin 2) (rate : Fin 8) (s : State) : Host.Outcome State Fault Refusal := .next (s.auxRate a rate)

/-- The port and lane of an AUX port power down (R109). -/
def State.auxSleep (s : State) (a : Nat) : State :=
  let s := ((s.setF MAC_AUX_CTL_SLEEP 1 a).laneOffCause (512 + a) 0).portTo (512 + a) 0
  { s with stk := { s.stk with rx := s.stk.rx.set (32 + a) [] } }

/-- The AUX port leaves sleep: its MAC is DOWN when it is enabled, and its lane starts. -/
def State.auxWaken (s : State) (a : Nat) : State :=
  let s := s.setF MAC_AUX_CTL_SLEEP 0 a
  let s := if s.f MAC_PORT_STAT_STATE (512 + a) = 0 && s.caOn MAC_PORT_CFG_EN (512 + a) then s.setF MAC_PORT_STAT_STATE 1 (512 + a) else s
  (s.setF LANE_BACKOFF_FAILS 0 (512 + a)).startLane (512 + a)

/-- AUX_SLEEP (R109). -/
def execAuxSleep (a : Fin 2) (s : State) : Host.Outcome State Fault Refusal := .next (s.auxSleep a)

/-- AUX_WAKE_PATTERN (R109). -/
def execAuxWakePattern (a : Fin 2) (s : State) : Host.Outcome State Fault Refusal :=
  .next (s.when (s.on MAC_AUX_CTL_WAKE_EN a && s.on MAC_AUX_CTL_SLEEP a) fun s =>
    (((s.flag MAC_AUX_CTL_WAKE a).irq 4).auxWaken a))

/-! ### Clears and the safe state (R82, R93, R470) -/

/-- The four counters of a lane (R93). -/
def laneCounters : List Cnt := [C_LANE_PRBS_ERR, C_LANE_FEC_CORR, C_LANE_FEC_UNCORR, C_LANE_FEC_SYM]

/-- LANE_CNT_CLR (R93). -/
def State.laneCntClrCmd (s : State) (n : Nat) : State :=
  s.cclrs laneCounters n

/-- LANE_CNT_CLR. -/
def execLaneCntClr (n : Fin 514) (s : State) : Host.Outcome State Fault Refusal := .next (s.laneCntClrCmd n.val)

/-- Every lane goes to OFF (R470). -/
def State.lanesSafe (s : State) : State :=
  (List.range 514).foldl (fun s n => if s.f LANE_STAT_STATE n = 0 then s else s.laneOffCause n 0) s

/-- Leaving the safe state, enabled lanes begin a new attempt with FAILS = 0 (R82). -/
def State.lanesResume (s : State) : State :=
  (List.range 514).foldl (fun s n => if s.on LANE_CTL_EN n || s.prbsOn n then (s.setF LANE_BACKOFF_FAILS 0 n).startLane n else s) s

end Sys2Proof.Machine
end

