-- ==== Sys2Proof/Machine/Access.lean ====
section
/-! DEFINITION. Software's access to the tables of a slice: the parser program, the table access port, the action port, the
re-pin engine, and their clears (R141, R155 to R161, R163, R178, R179, R189). -/

namespace Sys2Proof.Machine

/-! ### The parser program (R141, R160, R208) -/

/-- A write to a configuration register, or to what is held as one, was discarded because the slot is not OPEN (R208). -/
def State.shadowRefused (s : State) : State := (s.count C_GEN_WR_REFUSED 1).flag GEN_STAT_WR_CLOSED

/-- Change the shadow slot. -/
def State.updShadow (s : State) (f : GenSlot → GenSlot) : State := s.setSlot s.shadow (f (s.slot s.shadow))

/-- The slices that a write of slice `sl`'s port reaches. -/
def targets (bcast : Bool) (sl : Nat) : List Nat := if bcast then List.range 32 else [sl]

/-- ADDR moves on by one after an access to PRS_PROG_DATA when AUTO_INC is 1. -/
def State.prsInc (s : State) (sl : Nat) : State :=
  if s.on PRS_PROG_ADDR_AUTO_INC sl then s.setF PRS_PROG_ADDR_ADDR (s.f PRS_PROG_ADDR_ADDR sl + 1) sl else s

/-- The word that PRS_PROG_DATA reads: the shadow's, or with RD_ACTIVE the ACTIVE slot's (R193). -/
def State.prsWord (s : State) (sl : Nat) : Word :=
  (s.slot (if s.on GEN_CTL_RD_ACTIVE then s.active else s.shadow)).progWord sl (s.f PRS_PROG_ADDR_ADDR sl)

/-- The bits of the program word at an address that are not reserved (R141). -/
def progMask (a : Nat) : Word :=
  if a < 0x800 then (if a % 8 = 0 then 0xFFFFFFFF else if a % 8 = 1 then 0xFE00FFFF else 0xFFFFFF00)
  else if (a - 0x800) % 3 = 2 then 0xFFFFFC00 else 0xFFFFFFFF

/-- A write of PRS_PROG_DATA, whose reserved bits are ignored (R19); `ok` when the shadow slot may be written. -/
def State.prsWrite (s : State) (sl : Nat) (v : Word) (ok : Bool) : State :=
  let a := s.f PRS_PROG_ADDR_ADDR sl
  let s := if !ok then s.shadowRefused
    else if a < 0x1400 then
      s.updShadow (fun g => { g with prog := (targets (s.on PRS_PROG_ADDR_BCAST sl) sl).foldl (fun t x => t.set (0x2000 * x + a) (v &&& progMask a)) g.prog })
    else s
  s.prsInc sl

/-- PRS_PROG_DATA_ACCESS (R141, R160, R208). -/
def execPrsProgDataAccess (sl : Fin 32) (wr : Bool) (v : Word) (s : State) : Host.Outcome State Fault Refusal :=
  .next (if wr then s.prsWrite sl v s.shadowOpen else s.prsInc sl)

/-- The six PRS counters of a slice (R161). -/
def prsCounters : List Cnt :=
  [C_PRS_ERR_SHORT, C_PRS_ERR_WINDOW, C_PRS_ERR_DEPTH, C_PRS_ERR_REJECT, C_PRS_SLOT_DROP, C_PRS_RECIRC_DROP]

/-- PRS_CNT_CLR (R161). -/
def State.prsCntClrCmd (s : State) (sl : Nat) : State :=
  s.cclrs prsCounters sl

/-- PRS_CNT_CLR. -/
def execPrsCntClr (sl : Fin 32) (s : State) : Host.Outcome State Fault Refusal := .next (s.prsCntClrCmd sl.val)

/-- STG_CNT_CLR (R161): STG_WR_REFUSED and the slice's 18 STG_DUP_HIT counters. -/
def State.stgCntClear (s : State) (sl : Nat) : State :=
  (List.range 18).foldl (fun s g => s.cclr C_STG_DUP_HIT sl g) (s.cclr C_STG_WR_REFUSED sl)

/-- STG_CNT_CLR (R161). -/
def execStgCntClr (sl : Fin 32) (s : State) : Host.Outcome State Fault Refusal := .next (s.stgCntClear sl)

/-- STG_ACT_CNT_CLR (R189). -/
def State.stgActCntClrCmd (s : State) (sl : Nat) : State :=
  s.cclr C_STG_ACT_RANGE sl

/-- STG_ACT_CNT_CLR. -/
def execStgActCntClr (sl : Fin 32) (s : State) : Host.Outcome State Fault Refusal := .next (s.stgActCntClrCmd sl.val)

/-! ### Which writes of table memory are refused (R155) -/

/-- How entries of a table are judged: `keyed` entries carry presence bits 0 and 1, others two versions of half their width. -/
structure EntryView where
  keyed : Bool
  units : List Nat
  width : Nat
  entry : Nat

/-- The enabled table slot of a generation slot to which SRAM unit `u` of a stage belongs. -/
def GenSlot.unitOwner (x : GenSlot) (sl g u : Nat) : Option Slot :=
  ((List.range 4).map (x.tblSlot sl g)).find? (fun t => t.on && t.units.contains u)

/-- The enabled table slot to which ternary block `b` of a stage belongs. -/
def GenSlot.blockOwner (x : GenSlot) (sl g b : Nat) : Option Slot :=
  ((List.range 4).map (x.tblSlot sl g)).find? (fun t => t.on && t.blocks.contains b && (t.kind == kindLpm || t.kind == kindTernary))

/-- The entries of `w` bits that use row `r` of some units. -/
def rowEntries (keyed : Bool) (units : List Nat) (w r : Nat) : List EntryView :=
  if w ≤ 128 then (List.range (entriesPerRow w)).map (fun i => { keyed, units, width := w, entry := r * entriesPerRow w + i })
  else [{ keyed, units, width := w, entry := r / entrySpan w }]

/-- The entries that use row `r` of a table's units. -/
def Slot.entriesAt (t : Slot) (r : Nat) : List EntryView :=
  if t.kind = kindExact then
    let half := t.units.length / 2
    if r < 1024 * half then rowEntries true (t.units.take half) t.exactWidth r
    else rowEntries true (t.units.drop half) t.exactWidth (r - 1024 * half)
  else if t.kind = kindLpm then rowEntries true t.units 64 r
  else if t.kind = kindPin then rowEntries false t.units 64 r
  else rowEntries false t.units (2 * t.versionWidth) r

/-- Does a change of an entry touch what slot `n` may still use. -/
def EntryView.touched (v : EntryView) (old new n : Nat) : Bool :=
  if v.keyed then natBit old n != natBit new n || (natBit old n && old / 4 != new / 4)
  else natBits old (v.width / 2 * n) (v.width / 2) != natBits new (v.width / 2 * n) (v.width / 2)

/-- The slots that a write must leave alone: those active or not yet retired; the bank player may write the slot that it loads. -/
def State.guarded (s : State) (player : Bool) : List Nat := if s.shadowOpen || player then [s.active] else [0, 1]

/-- Give an SRAM row its value. -/
def State.setRow (s : State) (sl g row v : Nat) : State :=
  let k := sramKey sl g row
  { s with tab := { s.tab with sram := s.tab.sram.set k v, undo := (k, s.tab.sram.get k) :: s.tab.undo } }

/-- Give a ternary entry its value. -/
def State.setTern (s : State) (sl g a : Nat) (v : TernEntry) : State :=
  let k := ternKey sl g a
  { s with tab := { s.tab with tern := s.tab.tern.set k v, undoTern := (k, s.tab.tern.get k) :: s.tab.undoTern } }

/-- Would a write of an SRAM row be refused. -/
def State.rowRefused (s : State) (player : Bool) (sl g row v : Nat) : Bool :=
  match (s.slot s.shadow).unitOwner sl g (row / 1024) with
  | none => false
  | some t =>
    let r := 1024 * t.units.idxOf (row / 1024) + row % 1024
    let s' := s.setRow sl g row v
    (t.entriesAt r).any (fun e =>
      let old := (s.tblEntry sl g e.units e.width e.entry).getD 0
      let new := (s'.tblEntry sl g e.units e.width e.entry).getD 0
      (s.guarded player).any (e.touched old new))

/-- Would a write of a ternary entry be refused. -/
def State.ternRefused (s : State) (player : Bool) (sl g a : Nat) (v : TernEntry) : Bool :=
  match (s.slot s.shadow).blockOwner sl g (a / 128) with
  | none => false
  | some _ =>
    let x := s.tab.tern.get (ternKey sl g a)
    (s.guarded player).any (fun n => natBit x.p n != natBit v.p n || (natBit x.p n && (x.key != v.key || x.mask != v.mask)))

/-- A refused write counts, with RESULT 1. -/
def State.wrRefused (s : State) (sl : Nat) : State × Nat := (s.count C_STG_WR_REFUSED 1 sl, 1)

/-- The number whose 32-bit words, least significant first, are given. -/
def natOfWords (ws : List Word) : Nat := ws.foldr (fun w a => w.toNat + 2 ^ 32 * a) 0

/-- The `n` 32-bit words of a number, least significant first. -/
def wordsOf (n v : Nat) : List Word := (List.range n).map (fun i => BitVec.ofNat 32 (v / 2 ^ (32 * i)))

/-- One slice's part of a table-port write that names a valid space, stage and address: the state and RESULT. -/
def State.tblWrite (s : State) (player : Bool) (sl g space a : Nat) (d : List Word) : State × Nat :=
  if space = 0 then
    let v := natOfWords (d.take 4)
    if s.rowRefused player sl g a v then s.wrRefused sl else (s.setRow sl g a v, 0)
  else if space = 1 then
    let v : TernEntry := { key := natOfWords (d.take 5), mask := natOfWords ((d.drop 5).take 5), p := (d.getD 10 0).toNat % 4 }
    if s.ternRefused player sl g a v then s.wrRefused sl
    else (s.setTern sl g a v, 0)
  else if !(s.shadowOpen || player) then s.wrRefused sl
  else (s.updShadow (fun x => { x with keymap := x.keymap.set (keymapKey sl g a) (d.getD 0 0 &&& 0xFFFE0000) }), 0)

/-- What a table-port read of a valid address returns. -/
def State.tblRead (s : State) (sl g space a : Nat) : List Word :=
  if space = 0 then wordsOf 4 (s.tab.sram.get (sramKey sl g a))
  else if space = 1 then
    let x := s.tab.tern.get (ternKey sl g a)
    wordsOf 5 x.key ++ wordsOf 5 x.mask ++ wordsOf 1 x.p
  else [(s.slot s.shadow).keymap.get (keymapKey sl g a)]

/-- How many addresses a space of the table port has. -/
def tblLimit (space : Nat) : Nat := if space = 0 then 32768 else if space = 1 then 2048 else 256

/-- A write over the slices that it reaches, with the greatest RESULT. -/
def writeOver (sls : List Nat) (f : State → Nat → State × Nat) (s : State) : State × Nat :=
  sls.foldl (fun (st : State × Nat) x => let r := f st.1 x; (r.1, max st.2 r.2)) (s, 0)

/-- The access of a table port: the state, RESULT, and the words read. -/
def State.tblAccess (s : State) (sl : Nat) (a : Access) : State × Nat × List Word :=
  if 2 < a.space ∨ 17 < a.stage then (s, 3, [])
  else if tblLimit a.space ≤ a.addr then (s, 2, [])
  else if a.read then (s, 0, s.tblRead sl a.stage a.space a.addr)
  else
    let r := writeOver (targets a.bcast sl) (fun s x => s.tblWrite a.player x a.stage a.space a.addr a.data) s
    (r.1, r.2, [])

/-! ### The action port (R163, R178, R179, R189) -/

/-- A meter's configuration written: both buckets full, and PIR no less than CIR. -/
def meterOf (d : List Word) (nt : Nat) : Meter :=
  let c0 := d.getD 0 0 &&& 0xC03FFFFF
  let c1 := d.getD 1 0 &&& 0x003FFFFF
  let m : Meter := { cfg0 := c0, cfg1 := if c1.toNat < wordBits c0 0 22 then BitVec.ofNat 32 (wordBits c0 0 22) else c1,
                     cfg2 := d.getD 2 0 &&& 0x00FFFFFF, cfg3 := d.getD 3 0 &&& 0x00FFFFFF }
  { m with c := (m.cbs * m.token : Nat), p := (m.pbs * m.token : Nat), last := nt }

/-- One slice's part of an action-port write that names a valid space, stage and address. -/
def State.actWrite (s : State) (player : Bool) (sl g space a : Nat) (d : List Word) : State × Nat :=
  if space = 0 then
    if !(s.shadowOpen || player) then s.wrRefused sl
    else (s.updShadow (fun x => { x with act := x.act.set (actKey sl g a) (d.getD 0 0) }), 0)
  else if space = 1 then ({ s with tab := { s.tab with counts := s.tab.counts.set (actKey sl g a) (s.tab.countsNew.get (actKey sl g a)) } }, 0)
  else if space = 2 then (s.setMeter (actKey sl g a) (meterOf d s.nt), 0)
  else ({ s with tab := { s.tab with drops := s.tab.drops.set (256 * sl + a) (s.tab.dropsNew.get (256 * sl + a)) } }, 0)

/-- What an action-port read of a valid address returns; the levels of a meter are those after a refill. -/
def State.actRead (s : State) (sl g space a : Nat) (active : Bool) : State × List Word :=
  if space = 0 then (s, [(s.slot (if active then s.active else s.shadow)).act.get (actKey sl g a)])
  else if space = 1 then
    let e := s.tab.counts.get (actKey sl g a)
    (s, wordsOf 2 e.frames ++ wordsOf 2 e.bytes)
  else if space = 2 then
    let m := s.tab.meters.get (actKey sl g a)
    (s, [m.cfg0, m.cfg1, m.cfg2, m.cfg3])
  else if space = 3 then
    let m := (s.tab.meters.get (actKey sl g a)).refill s.nt
    let s := if m.en then s.setMeter (actKey sl g a) m else s
    (s, [BitVec.ofNat 32 (unsigned 32 (m.c / (m.token : Nat))), BitVec.ofNat 32 (unsigned 32 (m.p / (m.token : Nat)))])
  else (s, wordsOf 2 (s.tab.drops.get (256 * sl + a)))

/-- How many addresses a space of the action port has. -/
def actLimit (space : Nat) : Nat := if space ≤ 1 then 8192 else if space ≤ 3 then 2048 else 256

/-- The access of an action port. -/
def State.actAccess (s : State) (sl : Nat) (a : Access) : State × Nat × List Word :=
  if 4 < a.space ∨ (a.space < 4 ∧ 17 < a.stage) ∨ (a.space = 3 ∧ !a.read) then (s, 3, [])
  else if actLimit a.space ≤ a.addr then (s, 2, [])
  else if a.read then
    let r := s.actRead sl a.stage a.space a.addr a.active
    (r.1, 0, r.2)
  else
    let r := writeOver (targets a.bcast sl) (fun s x => s.actWrite a.player x a.stage a.space a.addr a.data) s
    (r.1, r.2, [])

/-! ### GO and completion (R157, R189) -/

/-- GO of a table port: latch the access as CTL, ADDR and the DATA registers stand, or collide. -/
def State.tblGo (s : State) (sl : Nat) (player : Bool := false) : State :=
  if s.on STG_ACC_STAT_BUSY sl then s.flag STG_ACC_STAT_COLLIDE sl
  else
    let a : Access := { go := s.cc, read := s.on STG_ACC_CTL_READ sl, bcast := s.on STG_ACC_CTL_BCAST sl,
                        space := s.f STG_ACC_CTL_SPACE sl, stage := s.f STG_ACC_CTL_STAGE sl, addr := s.f STG_ACC_ADDR_ADDR sl,
                        data := (List.range 12).map (fun i => s.rget STG_ACC_DATA sl i), player := player }
    State.setF { s with tab := { s.tab with acc := s.tab.acc.set sl a } } STG_ACC_STAT_BUSY 1 sl

/-- GO of an action port. -/
def State.actGo (s : State) (sl : Nat) (player : Bool := false) : State :=
  if s.on STG_ACT_STAT_BUSY sl then s.flag STG_ACT_STAT_COLLIDE sl
  else
    let a : Access := { go := s.cc, read := s.on STG_ACT_CTL_READ sl, bcast := s.on STG_ACT_CTL_BCAST sl, active := s.on STG_ACT_CTL_ACTIVE sl,
                        space := s.f STG_ACT_CTL_SPACE sl, stage := s.f STG_ACT_CTL_STAGE sl, addr := s.f STG_ACT_ADDR_ADDR sl,
                        data := (List.range 4).map (fun i => s.rget STG_ACT_DATA sl i), player := player }
    State.setF { s with tab := { s.tab with actAcc := s.tab.actAcc.set sl a } } STG_ACT_STAT_BUSY 1 sl

/-- Put the words that an access of the table port has read into the DATA registers. -/
def State.tblData (s : State) (sl : Nat) (ws : List Word) : State :=
  (List.range ws.length).foldl (fun s i => s.rset STG_ACC_DATA (ws.getD i 0) sl i) s

/-- The same for the action port. -/
def State.actData (s : State) (sl : Nat) (ws : List Word) : State :=
  (List.range ws.length).foldl (fun s i => s.rset STG_ACT_DATA (ws.getD i 0) sl i) s

/-- The access of a table port lands: RESULT and DONE are set, and BUSY stays 1 up to the cc's end (R157). -/
def State.tblLand (s : State) (sl : Nat) : State :=
  let a := s.tab.acc.get sl
  let r := s.tblAccess sl a
  let s := { r.1 with tab := { r.1.tab with acc := r.1.tab.acc.set sl { a with done := true, data := r.2.2 } } }
  ((s.tblData sl r.2.2).setF STG_ACC_STAT_RESULT r.2.1 sl).flag STG_ACC_STAT_DONE sl

/-- The access of an action port lands. -/
def State.actLand (s : State) (sl : Nat) : State :=
  let a := s.tab.actAcc.get sl
  let r := s.actAccess sl a
  let s := { r.1 with tab := { r.1.tab with actAcc := r.1.tab.actAcc.set sl { a with done := true, data := r.2.2 } } }
  ((s.actData sl r.2.2).setF STG_ACT_STAT_RESULT r.2.1 sl).flag STG_ACT_STAT_DONE sl

/-- A table port whose access has landed is free again; what it read stands in the DATA registers, after any write made to them in that cc. -/
def State.tblFree (s : State) (sl : Nat) : State :=
  let a := s.tab.acc.get sl
  s.when a.done fun s => (State.setF { s with tab := { s.tab with acc := s.tab.acc.set sl {} } } STG_ACC_STAT_BUSY 0 sl).tblData sl a.data

/-- The same for an action port. -/
def State.actFree (s : State) (sl : Nat) : State :=
  let a := s.tab.actAcc.get sl
  s.when a.done fun s => (State.setF { s with tab := { s.tab with actAcc := s.tab.actAcc.set sl {} } } STG_ACT_STAT_BUSY 0 sl).actData sl a.data

/-- An access of the table port run to its end, for a writer that waits for it (R209, R384). -/
def State.tblDone (s : State) (sl : Nat) : State := (s.tblLand sl).tblFree sl

/-- The same for the action port. -/
def State.actDone (s : State) (sl : Nat) : State := (s.actLand sl).actFree sl

/-- Has the access of a port that shows BUSY come to its cc n + 4. -/
def State.accessDue (s : State) (busy : Bool) (a : Access) : Bool := busy && !a.done && a.go + 4 ≤ s.cc

/-- TABLE_ACCESS_DONE (R157, R189): four cc after GO the access of the table port, or of the action port, lands. -/
def execTableAccessDone (sl : Fin 32) (action : Bool) (s : State) : Host.Outcome State Fault Refusal :=
  .next (if action then s.when (s.accessDue (s.on STG_ACT_STAT_BUSY sl) (s.tab.actAcc.get sl)) fun s => s.actLand sl
    else s.when (s.accessDue (s.on STG_ACC_STAT_BUSY sl) (s.tab.acc.get sl)) fun s => s.tblLand sl)

/-- A GO written to STG_ACC_CTL with its other fields. -/
def State.tblCmd (s : State) (sl : Nat) (bcast read : Bool) (space g : Nat) : State :=
  ((((s.setF STG_ACC_CTL_BCAST bcast.toNat sl).setF STG_ACC_CTL_READ read.toNat sl).setF STG_ACC_CTL_SPACE space sl).setF
    STG_ACC_CTL_STAGE g sl).tblGo sl

/-- A GO written to STG_ACT_CTL with its other fields. -/
def State.actCmd (s : State) (sl : Nat) (bcast read active : Bool) (space g : Nat) : State :=
  (((((s.setF STG_ACT_CTL_BCAST bcast.toNat sl).setF STG_ACT_CTL_READ read.toNat sl).setF STG_ACT_CTL_ACTIVE active.toNat sl).setF
    STG_ACT_CTL_SPACE space sl).setF STG_ACT_CTL_STAGE g sl).actGo sl

/-- TABLE_SRAM_WRITE (R157). -/
def execTableSramWrite (sl : Fin 32) (bcast : Bool) (g : Fin 32) (s : State) : Host.Outcome State Fault Refusal :=
  .next (s.tblCmd sl bcast false 0 g)

/-- TABLE_SRAM_READ (R157). -/
def execTableSramRead (sl g : Fin 32) (s : State) : Host.Outcome State Fault Refusal := .next (s.tblCmd sl false true 0 g)

/-- TERNARY_WRITE (R157). -/
def execTernaryWrite (sl : Fin 32) (bcast : Bool) (g : Fin 32) (s : State) : Host.Outcome State Fault Refusal :=
  .next (s.tblCmd sl bcast false 1 g)

/-- TERNARY_READ (R157). -/
def execTernaryRead (sl g : Fin 32) (s : State) : Host.Outcome State Fault Refusal := .next (s.tblCmd sl false true 1 g)

/-- KEYMAP_WRITE (R155). -/
def execKeymapWrite (sl : Fin 32) (bcast : Bool) (g : Fin 32) (s : State) : Host.Outcome State Fault Refusal :=
  .next (s.tblCmd sl bcast false 2 g)

/-- KEYMAP_READ (R155). -/
def execKeymapRead (sl g : Fin 32) (s : State) : Host.Outcome State Fault Refusal := .next (s.tblCmd sl false true 2 g)

/-- ACT_BUNDLE_WRITE (R189, SPACE 0). -/
def execActBundleWrite (sl : Fin 32) (bcast : Bool) (g : Fin 32) (s : State) : Host.Outcome State Fault Refusal :=
  .next (s.actCmd sl bcast false false 0 g)

/-- ACT_BUNDLE_READ (R189, SPACE 0). -/
def execActBundleRead (sl g : Fin 32) (active : Bool) (s : State) : Host.Outcome State Fault Refusal :=
  .next (s.actCmd sl false true active 0 g)

/-- ACT_COUNTER_READ (R189, SPACE 1). -/
def execActCounterRead (sl g : Fin 32) (s : State) : Host.Outcome State Fault Refusal := .next (s.actCmd sl false true false 1 g)

/-- ACT_COUNTER_CLEAR (R189, SPACE 1). -/
def execActCounterClear (sl : Fin 32) (bcast : Bool) (g : Fin 32) (s : State) : Host.Outcome State Fault Refusal :=
  .next (s.actCmd sl bcast false false 1 g)

/-- ACT_METER_CFG_WRITE (R189, SPACE 2). -/
def execActMeterCfgWrite (sl : Fin 32) (bcast : Bool) (g : Fin 32) (s : State) : Host.Outcome State Fault Refusal :=
  .next (s.actCmd sl bcast false false 2 g)

/-- ACT_METER_CFG_READ (R189, SPACE 2). -/
def execActMeterCfgRead (sl g : Fin 32) (s : State) : Host.Outcome State Fault Refusal := .next (s.actCmd sl false true false 2 g)

/-- ACT_METER_TOKENS_READ (R189, SPACE 3). -/
def execActMeterTokensRead (sl g : Fin 32) (s : State) : Host.Outcome State Fault Refusal := .next (s.actCmd sl false true false 3 g)

/-- ACT_METER_TOKENS_WRITE (R189, SPACE 3): ends with RESULT 3. -/
def execActMeterTokensWrite (sl : Fin 32) (bcast : Bool) (g : Fin 32) (s : State) : Host.Outcome State Fault Refusal :=
  .next (s.actCmd sl bcast false false 3 g)

/-- ACT_DROP_REASON_READ (R189, SPACE 4): STAGE is ignored and keeps its value. -/
def execActDropReasonRead (sl : Fin 32) (s : State) : Host.Outcome State Fault Refusal :=
  .next (s.actCmd sl false true false 4 (s.f STG_ACT_CTL_STAGE sl))

/-- ACT_DROP_REASON_CLEAR (R189, SPACE 4). -/
def execActDropReasonClear (sl : Fin 32) (bcast : Bool) (s : State) : Host.Outcome State Fault Refusal :=
  .next (s.actCmd sl bcast false false 4 (s.f STG_ACT_CTL_STAGE sl))

/-! ### The re-pin engine (R159) -/

/-- The PIN tables that STG_REPIN_CTL names in a slice, by the shadow's table configuration. -/
def State.pinTables (s : State) (sl : Nat) : List Slot :=
  ((List.range 4).filter (natBit (s.f STG_REPIN_CTL_EN))).filterMap (fun t =>
    let x := (s.slot s.shadow).tblSlot sl (s.f STG_REPIN_CTL_STAGE) t
    if x.on && x.kind == kindPin then some x else none)

/-- The port that a PIN version names, and is it valid. -/
def pinPort (v : Nat) : Nat := natBits v 12 9
def pinValid (v : Nat) : Bool := natBit v 31

/-- Put a pair into a list that ascends by MEMBER and then PORT, once. -/
def addPair (x : Nat) : List Nat → List Nat
  | [] => [x]
  | y :: t => if x < y then x :: y :: t else if x = y then y :: t else y :: addPair x t

/-- The survivors of a group: the distinct (MEMBER, PORT) pairs of valid versions on other ports, each as MEMBER x 512 + PORT. -/
def survivors (p : Nat) (vs : List Nat) : List Nat :=
  vs.foldl (fun a v => if pinValid v && pinPort v != p then addPair (v % 4096 * 512 + pinPort v) a else a) []

/-- Give the version for slot `n` of PIN bucket `e` its value. -/
def State.setPin (s : State) (sl g n : Nat) (units : List Nat) (e v : Nat) : State :=
  let row := 1024 * units.getD (e / 2048) 0 + e / 2 % 1024
  let old := s.tab.sram.get (sramKey sl g row)
  let sh := 64 * (e % 2) + 32 * n
  s.setRow sl g row (old - natBits old sh 32 * 2 ^ sh + v * 2 ^ sh)

/-- Re-pin one group of 4,096 buckets: the state, and whether it had no survivor. -/
def State.repinGroup (s : State) (sl g n p : Nat) (units : List Nat) (j : Nat) : State × Bool :=
  let vs := (List.range 4096).map (fun b => (s.pinVersion sl g n units (4096 * j + b)).getD 0)
  let live := survivors p vs
  let hit := vs.any (fun v => pinValid v && pinPort v == p)
  if live = [] then (s, hit)
  else
    let r := (List.range 4096).foldl (fun (st : State × Nat) b =>
      let v := vs.getD b 0
      if pinValid v && pinPort v == p then
        let w := live.getD (st.2 % live.length) 0
        (st.1.setPin sl g n units (4096 * j + b) (2 ^ 31 + w % 512 * 4096 + w / 512), st.2 + 1)
      else st) (s, 0)
    (r.1, false)

/-- Re-pin every group of every named table of a slice. -/
def State.repinSlice (s : State) (p sl : Nat) : State × Bool :=
  (s.pinTables sl).foldl (fun (st : State × Bool) t =>
    (List.range (t.units.length / 2)).foldl (fun (st : State × Bool) j =>
      let r := st.1.repinGroup sl (s.f STG_REPIN_CTL_STAGE) s.shadow p t.units j
      (r.1, st.2 || r.2)) st) (s, false)

/-- The greatest number of groups in a named table. -/
def State.repinGroups (s : State) : Nat :=
  (List.range 32).foldl (fun a sl => (s.pinTables sl).foldl (fun a t => max a (t.units.length / 2)) a) 0

/-- REPIN_START (R159): the oldest waiting port's re-pin begins once the shadow slot is OPEN. -/
def execRepinStart (p : Fin 512) (s : State) : Host.Outcome State Fault Refusal :=
  .next (s.when (s.tab.repinPort.isNone && s.tab.repinWait.head? == some p.val && s.shadowOpen) fun s =>
    let n := s.repinGroups
    let r := (List.range 32).foldl (fun (st : State × Bool) sl => let r := st.1.repinSlice p sl; (r.1, st.2 || r.2)) (s, false)
    { r.1 with tab := { r.1.tab with repinWait := s.tab.repinWait.tail, repinPort := some p, repinNone := r.2
                                     repinEnd := s.cc + 2048 * n } })

/-- REPIN_DONE (R159). -/
def execRepinDone (s : State) : Host.Outcome State Fault Refusal :=
  .next (match s.tab.repinPort with
    | none => s
    | some p => s.when (s.tab.repinEnd ≤ s.cc) fun s =>
      let none' := s.tab.repinNone
      let s := { s with tab := { s.tab with repinPort := none, repinNone := false } }
      let s := (s.setF STG_REPIN_STAT_PORT p).flag STG_REPIN_STAT_DONE
      let s := if none' then s.flag STG_REPIN_STAT_NO_SURVIVOR else s
      let s := if s.tab.repinWait = [] then s.setF STG_REPIN_STAT_ACTIVE 0 else s
      s.irq 7)

end Sys2Proof.Machine
end

