-- ==== Sys2Proof/Machine/Catalog.lean ====
section
/-! DEFINITION. Finding the register that a chip address names, and storing a written word in its fields (R17 to R19, R437,
R438). -/

namespace Sys2Proof.Machine

/-- A place in the catalogue: a register, its fields and its subscripts. -/
structure Place where
  reg : Reg
  fields : List Fld
  i : Nat := 0
  j : Nat := 0
  k : Nat := 0

/-- The subscript that a distance selects in a dimension of stride `s` and count `n`. -/
def dimIndex (d s n : Nat) : Nat := if s = 0 then 0 else min (d / s) (n - 1)

/-- The subscripts with which a register lies at address `a`. -/
def Reg.find (r : Reg) (a : Nat) : Option (Nat × Nat × Nat) :=
  if a < r.base then none
  else
    let d := a - r.base
    let i := dimIndex d r.s0 r.n0
    let d := d - r.s0 * i
    let j := dimIndex d r.s1 r.n1
    let d := d - r.s1 * j
    let k := dimIndex d r.s2 r.n2
    if d = r.s2 * k then some (i, j, k) else none

/-- The register at a chip address. -/
def placeOf (a : Nat) : Option Place :=
  if 0x5400000 ≤ a then none
  else (blockRegs a).findSome? (fun e => (e.1.find a).map (fun x => { reg := e.1, fields := e.2, i := x.1, j := x.2.1, k := x.2.2 }))

/-- The 48-bit counter one of whose registers lies at a chip address: the address of its _LO register, and whether `a` is its
_HI register. -/
def counterAt (a : Nat) : Option (Nat × Bool) :=
  if 0x5400000 ≤ a then none
  else (blockCnts a).findSome? (fun c =>
    let at_ (x : Nat) : Bool := if x < c.lo then false else
      let d := x - c.lo
      let i := dimIndex d c.s0 c.n0
      let j := dimIndex (d - c.s0 * i) c.s1 c.n1
      d == c.s0 * i + c.s1 * j
    if at_ a then some (a, false) else if 4 ≤ a && at_ (a - 4) then some (a - 4, true) else none)

/-- The value that a field stores for a written value: the limits that the field's text gives. -/
def Fld.stored (x : Fld) (v : Nat) : Nat :=
  match x.norm.find? (fun e => e.1 ≤ v && v ≤ e.2.1) with
  | some e => e.2.2
  | none => v

/-- A word with the RW fields of a written word stored in it; other fields and reserved bits keep their values (R18, R19). -/
def storeFields (old v : Word) (fs : List Fld) : Word :=
  fs.foldl (fun w x => if x.acc = .rw then wordPut w x.lsb x.w (x.stored (wordBits v x.lsb x.w)) else w) old

/-- Store a configuration register in generation slot `n`; WIDTH of the AUX ports ignores writes (R111), and a reserved RATE
leaves the octet's rate unchanged and sets CFG_ERR (R91). -/
def State.cfgStore (s : State) (n : Nat) (p : Place) (v : Word) : State :=
  let g := s.slot n
  let old := g.rget p.reg p.i p.j p.k
  let new := storeFields old v p.fields
  if p.reg.base = MAC_PORT_CFG.base ∧ 512 ≤ p.i then
    s.setSlot n (g.rset p.reg (wordPut new MAC_PORT_CFG_WIDTH.lsb MAC_PORT_CFG_WIDTH.w 1) p.i)
  else if p.reg.act = .octCfg ∧ 5 ≤ wordBits v LANE_OCT_CFG_RATE.lsb LANE_OCT_CFG_RATE.w then
    (s.setSlot n (g.rset p.reg (wordPut new LANE_OCT_CFG_RATE.lsb LANE_OCT_CFG_RATE.w (wordBits old LANE_OCT_CFG_RATE.lsb LANE_OCT_CFG_RATE.w))
      p.i p.j p.k)).flag LANE_OCT_STAT_CFG_ERR p.i
  else s.setSlot n (g.rset p.reg new p.i p.j p.k)

end Sys2Proof.Machine
end

