-- ==== Sys2Proof/Machine/Time.lean ====
section
/-! DEFINITION. The time engine (R269 to R290): snapshots, jumps, the servo, the egress stamp queues, timed outputs and edge
inputs. -/

namespace Sys2Proof.Machine

/-- Change the time engine's own state. -/
def State.setTime (s : State) (f : TimeState → TimeState) : State := { s with time := f s.time }

/-- Write an NT to TIME_NOW-like registers HI, MID, LO and FRAC. -/
def State.setNt4 (s : State) (hi mid lo frac : Fld) (t : Nat) (i : Nat := 0) : State :=
  (s.setNt3 hi mid lo t i).setF frac (ntFrac t) i

/-- Read an NT from HI, MID, LO and FRAC fields. -/
def State.getNt4 (s : State) (hi mid lo frac : Fld) (i : Nat := 0) : Nat :=
  ntOf (s.f hi i * 2 ^ 32 + s.f mid i) (s.f lo i) (s.f frac i)

/-- A read of TIME_NOW_HI snapshots NT (R270). -/
def State.ntSnapshot (s : State) : State :=
  s.setNt4 TIME_NOW_HI_SEC_HI TIME_NOW_MID_SEC_LO TIME_NOW_LO_NS TIME_NOW_FRAC_FRAC s.nt

/-- NT_SNAPSHOT_READ (R270). -/
def execNtSnapshotRead (s : State) : Host.Outcome State Fault Refusal := .next s.ntSnapshot

/-! ### Jumps (R271, R285, R289) -/

/-- A timed output's own state. -/
def State.tout (s : State) (k : Nat) : Tout := s.time.tout.get k

/-- Change a timed output's own state. -/
def State.setTout (s : State) (k : Nat) (f : Tout → Tout) : State :=
  s.setTime (fun x => { x with tout := x.tout.upd k f })

/-- The NT of a timed output's next leading edge. -/
def Tout.edge (x : Tout) : Nat := x.start + x.next * x.period

/-- The configuration that an output's registers give, its first leading edge at or after `least` (R288, R289). -/
def State.toutConfig (s : State) (k least : Nat) : Tout :=
  let per := (s.f TIME_TOUT_PER_PER_NS k * 65536 + s.f TIME_TOUT_WF_PER_FRAC k) * 2 ^ 24
  let start := s.getNt4 TIME_TOUT_START_HI_SEC_HI TIME_TOUT_START_MID_SEC_LO TIME_TOUT_START_LO_NS TIME_TOUT_START_FRAC_FRAC k
  let mode := s.f TIME_TOUT_CTL_MODE k
  { mode := mode, start := start, period := per, qual := s.on TIME_TOUT_CTL_QUAL k, pol := s.on TIME_TOUT_CTL_POL k
    width := max (4 * nsUnit) (min (s.f TIME_TOUT_WF_WIDTH k * nsUnit) (per - 4 * nsUnit))
    next := if mode = 2 && start < least then ceilDiv (least - start) per else 0 }

/-- Leading edges of an output in `mode` from its next one on that a jump to `t` passes: a one-shot's is LATE (R289). -/
def State.skipFrom (s : State) (t k : Nat) (x : Tout) : State :=
  if x.mode = 1 then (s.count C_TIME_SKIP 1).flag TIME_TOUT_STAT_LATE k else s.count C_TIME_SKIP (ceilDiv (t - x.edge) (max x.period 1))

/-- Leading edges that a forward jump to `t` passes are not produced (R289): those of a running output, or of the configuration of an ARM that waits
for the end of its pulse. -/
def State.skipEdges (s : State) (t k : Nat) : State :=
  let x := s.tout k
  match x.rearm with
  | some a =>
    let y := s.toutConfig k (max (a + 100 * nsUnit) s.nt)
    s.when (y.mode != 0 && y.edge < t && (y.mode == 2 || max (a + 100 * nsUnit) s.nt ≤ y.start)) fun s => s.skipFrom t k y
  | none =>
    s.when (s.on TIME_TOUT_STAT_RUN k && x.edge < t && (x.mode == 2 || x.next == 0)) fun s =>
      let s := s.skipFrom t k x
      if x.mode = 1 then s.setF TIME_TOUT_STAT_RUN 0 k
      else s.setTout k (fun x => { x with next := x.next + ceilDiv (t - x.edge) (max x.period 1) })

/-- NT takes a new value by a jump: forward it passes edges, backward every meter takes the NT after it as its last refill
(R179). -/
def State.applyJump (s : State) (t : Nat) : State :=
  let s := s.flag TIME_STAT_STEPPED
  let s := if s.nt < t then (List.range 8).foldl (fun s k => s.skipEdges t k) s
    else { s with tab := { s.tab with meters := s.tab.meters.map (fun e => (e.1, { e.2.refill s.nt with last := t })) } }
  State.noteEpoch { s with nt := t % ntWrap }

/-- Is a jump of a size in units of 2^-40 ns refused; a refusal is recorded, and an allowed jump uses up an armed override (R271). -/
def State.judgeJump (s : State) (size : Nat) : State × Bool :=
  if s.f TIME_JUMP_JUMP_MAX * nsUnit < size && !s.on TIME_STAT_JUMP_OVR then ((s.flag TIME_STAT_JUMP_REF).raise 7 1 1, false)
  else (s.setF TIME_STAT_JUMP_OVR 0, true)

/-- TIME_CMD.SET (R271). -/
def State.timeSet (s : State) : State :=
  let t := s.getNt4 TIME_SET_HI_SEC_HI TIME_SET_MID_SEC_LO TIME_SET_LO_NS TIME_SET_FRAC_FRAC
  let r := s.judgeJump ((t : Int) - s.nt).natAbs
  if r.2 then r.1.applyJump t else r.1

/-- SET (R271). -/
def execSet (s : State) : Host.Outcome State Fault Refusal := .next s.timeSet

/-- JUMP_OVR (R271). -/
def State.jumpOvrCmd (s : State) : State :=
  s.setF TIME_STAT_JUMP_OVR 1

/-- JUMP_OVR. -/
def execJumpOvr (s : State) : Host.Outcome State Fault Refusal := .next (s.jumpOvrCmd)

/-! ### The servo (R281 to R283) -/

def servoFree : Nat := 0
def servoAcquire : Nat := 1
def servoLocked : Nat := 2
def servoHoldover : Nat := 3

/-- Change the servo's state; both counts are cleared. -/
def State.servoTo (s : State) (st cause : Nat) : State :=
  ((s.setF TIME_STAT_STATE st).setF TIME_STAT_CAUSE cause).setTime
    (fun x => { x with lockCount := 0, unlockCount := 0, freeAfterHold := false })

/-- The servo enters ACQUIRE, where the sample timeout runs from now. -/
def State.servoAcquires (s : State) : State := (s.servoTo servoAcquire 0).setTime (fun x => { x with lastSampleNt := s.nt })

/-- Give adj a value in 1/256 ppb. -/
def State.setAdj (s : State) (a : Int) : State := s.setF TIME_FREQ_ADJ (unsigned 32 a)

/-- The servo enters HOLDOVER: adj is frozen at the integrator's value. -/
def State.servoHold (s : State) (cause : Nat) : State :=
  ((s.servoTo servoHoldover cause).setAdj s.time.integ).setTime (fun x => { x with holdFrom := s.nt })

/-- TIME_CMD.RUN (R281). -/
def State.servoRun (s : State) : State :=
  let st := s.f TIME_STAT_STATE
  if st = servoFree ∨ (st = servoHoldover ∧ s.f TIME_STAT_CAUSE ≠ 2) then s.servoAcquires else s

/-- TIME_CMD.HOLD (R281). -/
def State.servoHoldCmd (s : State) : State :=
  if s.f TIME_STAT_STATE = servoAcquire ∨ s.f TIME_STAT_STATE = servoLocked then s.servoHold 3 else s

/-- TIME_CMD.FREE (R281). -/
def State.servoFreeCmd (s : State) : State := if s.f TIME_STAT_STATE = servoFree then s else s.servoTo servoFree 0

/-- TIME_CMD.REQUAL (R281): the path average is cleared, and a holdover by path or software ends. -/
def State.servoRequal (s : State) : State :=
  let s := s.setTime (fun x => { x with pdAvg := none })
  if s.f TIME_STAT_STATE = servoHoldover ∧ 2 ≤ s.f TIME_STAT_CAUSE then s.servoAcquires else s

/-- RUN (R281). -/
def execRun (s : State) : Host.Outcome State Fault Refusal := .next s.servoRun

/-- HOLD (R281). -/
def execHold (s : State) : Host.Outcome State Fault Refusal := .next s.servoHoldCmd

/-- FREE (R281). -/
def execFree (s : State) : Host.Outcome State Fault Refusal := .next s.servoFreeCmd

/-- REQUAL (R281). -/
def execRequal (s : State) : Host.Outcome State Fault Refusal := .next s.servoRequal

/-- A sample is taken unless it comes fewer than 4 cc after the last accepted one (R282). -/
def State.takeSample (s : State) (theta : Int) (pd : Option Nat) : State :=
  let ok := match s.time.lastSampleCc with
    | none => true
    | some c => c + 4 ≤ s.cc
  if ok then s.setTime (fun x =>
    { x with sample := some { due := s.cc + 4, theta := theta, pd := pd }, lastSampleCc := some s.cc, lastSampleNt := s.nt })
  else s.flag TIME_STAT_SAMPLE_LOST

/-- TIME_CMD.SAMPLE (R282): θ of TIME_OFS, and pd of TIME_PD with PD_VALID; ignored while 1PPS_IN supplies the samples. -/
def State.cmdSample (s : State) (pdValid : Bool) : State :=
  if s.on TIME_CFG_SRC then s
  else s.takeSample (signed 48 (s.f TIME_OFS_HI_OFS_HI * 2 ^ 32 + s.f TIME_OFS_LO_OFS_LO))
    (if pdValid then some (s.f TIME_PD_PD) else none)

/-- SAMPLE (R282). -/
def execSample (pdValid : Bool) (s : State) : Host.Outcome State Fault Refusal := .next (s.cmdSample pdValid)

/-- The FREQ_MAX limit in 1/256 ppb. -/
def State.freqMax (s : State) : Int := (s.f TIME_CFG_FREQ_MAX * 256 : Nat)

/-- Hold a value within plus or minus FREQ_MAX. -/
def State.clampFreq (s : State) (a : Int) : Int := max (-s.freqMax) (min a s.freqMax)

/-- The path check (R283): the state and whether the sample goes on. -/
def State.pathCheck (s : State) (pd : Nat) : State × Bool :=
  match s.time.pdAvg with
  | none => (s.setTime (fun x => { x with pdAvg := some ((pd : Int), 0) }), true)
  | some (a, k) =>
    let d : Int := (pd : Int) * 16 ^ k - a
    if (s.f TIME_STEP_PATH_STEP_MAX * 256 * 16 ^ k : Nat) < d.natAbs then
      (((s.servoHold 2).flag TIME_STAT_PATH_STEP).raise 7 1 4, false)
    else (s.setTime (fun x => { x with pdAvg := some (15 * a + (pd : Int) * 16 ^ k, k + 1) }), true)

/-- Count a sample for lock or for loss of lock (R281). -/
def State.countForLock (s : State) (theta : Nat) : State :=
  let lc := if theta ≤ s.f TIME_LOCK_LOCK_THR * 65536 then s.time.lockCount + 1 else 0
  let uc := if s.f TIME_LOCK_UNLOCK_THR * 65536 < theta then s.time.unlockCount + 1 else 0
  let s := s.setTime (fun x => { x with lockCount := lc, unlockCount := uc })
  if s.f TIME_STAT_STATE = servoAcquire ∧ s.f TIME_LOCK_LOCK_CNT ≤ lc then s.servoTo servoLocked 0
  else if s.f TIME_STAT_STATE = servoLocked ∧ 3 ≤ uc then s.servoAcquires.raise 7 0 2 else s

/-- The PI update (R283): integ and adj, each rounded to the nearest 1/256 ppb, ties to even, and then clamped. -/
def State.piUpdate (s : State) (theta : Int) : State :=
  let i := s.clampFreq (roundEven (s.time.integ * 65536 - (s.f TIME_GAIN_KI : Int) * theta) 65536)
  let a := s.clampFreq (roundEven (i * 65536 - (s.f TIME_GAIN_KP : Int) * theta) 65536)
  (s.setTime (fun x => { x with integ := i })).setAdj a

/-- A jump that the servo asks for (R283): lock counts cleared, NT moved in the next cc when R271 allows it. -/
def State.servoJump (s : State) (theta : Int) : State :=
  let s := s.setTime (fun x => { x with lockCount := 0, unlockCount := 0 })
  let r := s.judgeJump (theta.natAbs * 2 ^ 24)
  if r.2 then r.1.setTime (fun x => { x with jump := some (-theta * 2 ^ 24) }) else r.1

/-- One sample processed (R283). -/
def State.processSample (s : State) (x : Sample) : State :=
  let st := s.f TIME_STAT_STATE
  if st = servoFree ∨ (st = servoHoldover ∧ s.f TIME_STAT_CAUSE ≠ 1) then s
  else
    let s := if st = servoHoldover then s.servoAcquires else s
    let r := match x.pd with
      | some pd => s.pathCheck pd
      | none => (s, true)
    if !r.2 then r.1
    else if r.1.f TIME_STEP_STEP_THR * 65536 < x.theta.natAbs then r.1.servoJump x.theta
    else (r.1.piUpdate x.theta).countForLock x.theta.natAbs

/-- SAMPLE_PROCESS (R282, R283). -/
def execSampleProcess (s : State) : Host.Outcome State Fault Refusal :=
  .next (match s.time.sample with
    | none => s
    | some x => s.when (x.due ≤ s.cc) fun s => (s.setTime (fun t => { t with sample := none })).processSample x)

/-- SAMPLE_TIMEOUT (R281): no sample for SAMPLE_TMO. -/
def execSampleTimeout (s : State) : Host.Outcome State Fault Refusal :=
  .next (s.when ((s.f TIME_STAT_STATE == servoAcquire || s.f TIME_STAT_STATE == servoLocked) &&
      s.time.lastSampleNt + s.f TIME_TMO_SAMPLE_TMO * 1000000 * nsUnit ≤ s.nt) fun s => (s.servoHold 1).raise 7 1 3)

/-- HOLD_MAX_EXPIRY (R281). -/
def execHoldMaxExpiry (s : State) : Host.Outcome State Fault Refusal :=
  .next (s.when (s.f TIME_STAT_STATE == servoHoldover && s.time.holdFrom + s.f TIME_TMO_HOLD_MAX * secUnit ≤ s.nt) fun s =>
    ((s.servoTo servoFree 0).setTime (fun x => { x with freeAfterHold := true })).raise 7 2 5)

/-! ### Egress stamp queues (R278 to R280) -/

/-- A stamp queue: 0 to 31 for the slices, 32 for AUX. -/
def State.tsq (s : State) (q : Nat) : StampQueue := s.time.tsq.get q

/-- Change a stamp queue, with its LEVEL. -/
def State.setTsq (s : State) (q : Nat) (x : StampQueue) : State :=
  (s.setTime (fun t => { t with tsq := t.tsq.set q x })).setF TIME_TSQ_STAT_LEVEL x.entries.length q

/-- A stamp is stored, or discarded when the queue is full; QSEQ rises either way. -/
def State.tsqPush (s : State) (q msgType port seqId t domain tag : Nat) : State :=
  let seq := s.f TIME_TSQ_STAT_NEXT_QSEQ q
  let x := s.tsq q
  let s := s.setF TIME_TSQ_STAT_NEXT_QSEQ (seq + 1) q
  if 512 ≤ x.entries.length then
    ((s.setTsq q { x with gap := true }).count C_TIME_TSQ_OVF 1 q).ev 0x060 q
  else
    let w0 := 2 ^ 31 + (if x.gap then 2 ^ 30 else 0) + seq * 2 ^ 14 + msgType % 16 * 2 ^ 10 + port
    let w1 := seqId % 65536 * 65536 + ntSec t / 2 ^ 32
    let w4 := ntFrac t * 65536 + domain % 256 * 256 + tag % 256
    let e := [w0, w1, ntSec t % 2 ^ 32, ntNsField t, w4].map (BitVec.ofNat 32)
    (s.setTsq q { entries := x.entries ++ [e], gap := false }).irq 11

/-- A read of TIME_TSQ_W0 removes the oldest entry, which W0 to W4 then hold (R279). -/
def State.tsqPop (s : State) (q : Nat) : State :=
  let x := s.tsq q
  let e := x.entries.headD []
  let s := s.setTsq q { x with entries := x.entries.tail }
  ((((s.rset TIME_TSQ_W0 (e.getD 0 0) q).rset TIME_TSQ_W1 (e.getD 1 0) q).rset TIME_TSQ_W2 (e.getD 2 0) q).rset
    TIME_TSQ_W3 (e.getD 3 0) q).rset TIME_TSQ_W4 (e.getD 4 0) q

/-- TSQ_POP (R279). -/
def execTsqPop (q : Fin 33) (s : State) : Host.Outcome State Fault Refusal := .next (s.tsqPop q)

/-- TIME_TSQ_CLR (R292). -/
def State.timeTsqClrCmd (s : State) (q : Nat) : State :=
  s.cclr C_TIME_TSQ_OVF q

/-- TIME_TSQ_CLR. -/
def execTimeTsqClr (q : Fin 33) (s : State) : Host.Outcome State Fault Refusal := .next (s.timeTsqClrCmd q.val)

/-- TIME_CNT_CLR (R292). -/
def State.timeCntClrCmd (s : State) : State :=
  s.cclr C_TIME_SKIP

/-- TIME_CNT_CLR. -/
def execTimeCntClr (s : State) : Host.Outcome State Fault Refusal := .next (s.timeCntClrCmd)

/-! ### Timed outputs (R287 to R289) -/

/-- Load an output's configuration, no pulse of which may begin before `least`: a one-shot that would is LATE, and a periodic output starts with a later
edge (R289). -/
def State.toutLoad (s : State) (k least : Nat) : State :=
  let x := s.toutConfig k least
  let s := (s.setTout k (fun _ => x)).setF TIME_TOUT_STAT_SUPPRESS 0 k
  if x.mode = 0 then s.setF TIME_TOUT_STAT_RUN 0 k
  else if x.mode = 1 && x.start < least then (s.setF TIME_TOUT_STAT_RUN 0 k).flag TIME_TOUT_STAT_LATE k
  else s.setF TIME_TOUT_STAT_RUN 1 k

/-- ARM (R289): a running pulse completes first. -/
def State.toutArm (s : State) (k : Nat) : State :=
  match (s.tout k).pulseEnd with
  | some _ => s.setTout k (fun x => { x with rearm := some s.nt, stopping := false })
  | none => s.toutLoad k (s.nt + 100 * nsUnit)

/-- STOP (R289): idle at the end of the current pulse. -/
def State.toutStop (s : State) (k : Nat) : State :=
  match (s.tout k).pulseEnd with
  | some _ => s.setTout k (fun x => { x with stopping := true, rearm := none })
  | none => s.setF TIME_TOUT_STAT_RUN 0 k

/-- TOUT_ARM (R289). -/
def execToutArm (n : Fin 8) (s : State) : Host.Outcome State Fault Refusal := .next (s.toutArm n)

/-- TOUT_STOP (R289). -/
def execToutStop (n : Fin 8) (s : State) : Host.Outcome State Fault Refusal := .next (s.toutStop n)

/-- The trailing edge of a pulse: idle level, then a waiting ARM or STOP, or the end of a one-shot.  DEDUCED (log 131): a waiting ARM loads the
registers as they stand now, judged by its own NT; an edge of it that fell during the pulse would be late, and is not produced. -/
def State.toutTrail (s : State) (k : Nat) : State :=
  let x := s.tout k
  let s := s.setTout k (fun x => { x with pulseEnd := none, stopping := false, rearm := none })
  match x.rearm with
  | some t => s.toutLoad k (max (t + 100 * nsUnit) s.nt)
  | none => if x.stopping || x.mode == 1 then s.setF TIME_TOUT_STAT_RUN 0 k else s

/-- The leading edge of a pulse, or its suppression by QUAL. -/
def State.toutLead (s : State) (k : Nat) : State :=
  let x := s.tout k
  if x.qual && s.f TIME_STAT_STATE != servoLocked then
    let s := (s.setTout k (fun x => { x with next := x.next + 1 })).setF TIME_TOUT_STAT_SUPPRESS 1 k
    if x.mode = 1 then (s.setF TIME_TOUT_STAT_RUN 0 k).flag TIME_TOUT_STAT_LATE k else s
  else
    (s.setTout k (fun x => { x with next := x.next + 1, pulseEnd := some (x.edge + x.width) })).setF TIME_TOUT_STAT_SUPPRESS 0 k

/-- TOUT_EDGE (R288, R289): the edge that is due. -/
def execToutEdge (n : Fin 8) (s : State) : Host.Outcome State Fault Refusal :=
  .next (match (s.tout n).pulseEnd with
    | some e => s.when (e ≤ s.nt) fun s => s.toutTrail n
    | none => s.when (s.on TIME_TOUT_STAT_RUN n && (s.tout n).edge ≤ s.nt) fun s => s.toutLead n)

/-- The level of an output's ball: active while a pulse runs, inverted by POL. -/
def State.toutLevel (s : State) (k : Nat) : Bool := xor (s.tout k).pulseEnd.isSome (s.tout k).pol

/-- The safe state returns every output to idle (R287). -/
def State.toutSafe (s : State) : State :=
  (List.range 8).foldl (fun s k =>
    ((s.setTout k (fun x => { x with pulseEnd := none, stopping := false, rearm := none })).setF TIME_TOUT_STAT_RUN 0 k).flag
      TIME_TOUT_STAT_HELD k) s

/-! ### Edge inputs (R282, R290) -/

/-- CCLK time in units of 1/196,608 ns, `sub` in 1/65,536 ns after the cc edge. -/
def State.fineTime (s : State) (sub : Nat) : Nat := s.cc * 131072 + sub * 3 + 1

/-- An edge at an input: not recorded within 20 ns of a recorded edge, discarded when the FIFO of 16 is full. -/
def State.tinEdge (s : State) (n : Nat) (rise : Bool) (sub : Nat) : State :=
  let e := s.f TIME_TIN_CTL_EDGE n
  if !(if rise then natBit e 0 else natBit e 1) then s
  else
    let t := s.fineTime sub
    let last := s.time.tinLast.get n
    let q := s.time.tin.get n
    if last ≠ 0 ∧ t ≤ last + 20 * 196608 then s.countF TIME_TIN_STAT_LOST n
    else if 16 ≤ q.length then (s.countF TIME_TIN_STAT_LOST n).flag TIME_TIN_STAT_OVF n
    else
      let s := s.setTime (fun x => { x with tin := x.tin.set n (q ++ [{ rise := rise, nt := s.nt + sub * 2 ^ 24 }])
                                            tinLast := x.tinLast.set n t })
      let s := s.setF TIME_TIN_STAT_LEVEL (q.length + 1) n
      if s.on TIME_TIN_CTL_IRQ_EN n then s.irq 5 else s

/-- TIN_EDGE (R290); `sub` is how far into the cc the edge falls, in 1/65,536 ns. -/
def execTinEdge (n : Fin 4) (rise : Bool) (sub : Fin 43691) (s : State) : Host.Outcome State Fault Refusal :=
  .next (s.tinEdge n rise sub)

/-- PPS_EDGE (R282, R290): a rising edge is also a sample while SRC is 1, its offset from the nearest whole second. -/
def execPpsEdge (rise : Bool) (sub : Fin 43691) (s : State) : Host.Outcome State Fault Refusal :=
  .next (let s := s.tinEdge 4 rise sub
    s.when (rise && s.on TIME_CFG_SRC) fun s =>
      let t : Int := (nt16 (s.nt + sub * 2 ^ 24) : Nat)
      let sec : Nat := 1000000000 * 65536
      s.takeSample (t - roundEven t sec * sec) none)

/-- A read of EV_SEC_HI removes the oldest entry, which the four registers then hold (R290). -/
def State.tinPop (s : State) (n : Nat) : State :=
  let q := s.time.tin.get n
  let s := s.setTime (fun x => { x with tin := x.tin.set n q.tail })
  let s := s.setF TIME_TIN_STAT_LEVEL (q.length - 1) n
  match q with
  | [] => (((s.rset TIME_TIN_EV_SEC_HI 0 n).rset TIME_TIN_EV_SEC_LO 0 n).rset TIME_TIN_EV_NS 0 n).rset TIME_TIN_EV_FRAC 0 n
  | e :: _ =>
    let hi := 2 ^ 31 + (if e.rise then 2 ^ 30 else 0) + ntSec e.nt / 2 ^ 32 % 65536
    (((s.rset TIME_TIN_EV_SEC_HI (BitVec.ofNat 32 hi) n).rset TIME_TIN_EV_SEC_LO (BitVec.ofNat 32 (ntSec e.nt)) n).rset
      TIME_TIN_EV_NS (BitVec.ofNat 32 (ntNsField e.nt)) n).rset TIME_TIN_EV_FRAC (BitVec.ofNat 32 (ntFrac e.nt)) n

/-- TIN_EVENT_READ (R290). -/
def execTinEventRead (n : Fin 5) (s : State) : Host.Outcome State Fault Refusal := .next (s.tinPop n)

/-- TIN_LOST_CLR (R290). -/
def State.tinLostClrCmd (s : State) (n : Nat) : State :=
  s.clrF TIME_TIN_STAT_LOST n

/-- TIN_LOST_CLR. -/
def execTinLostClr (n : Fin 5) (s : State) : Host.Outcome State Fault Refusal := .next (s.tinLostClrCmd n.val)

end Sys2Proof.Machine
end

