-- ==== Sys2Proof/Machine/Checks.lean ====
section
/-! DEFINITION. The commit checks (R95, R112, R128, R141, R148, R171, R245): what each finds invalid in the generation being
committed, and the ACTIVE slot's part that then stands in its place (R200). -/

namespace Sys2Proof.Machine

/-! ### Keeping the ACTIVE slot's part -/

/-- A table with the keys of [lo, lo + n) taken from another table. -/
def Tab.copyRange {α : Type} [Inhabited α] [DecidableEq α] (t src : Tab α) (lo n : Nat) : Tab α :=
  (src.keep (fun k _ => lo ≤ k && k < lo + n)).foldl (fun t e => t.set e.1 e.2) (t.clearRange lo n)

/-- A configuration register of the shadow takes the ACTIVE slot's value. -/
def State.keepReg (s : State) (r : Reg) (i : Nat := 0) (j : Nat := 0) (k : Nat := 0) : State :=
  s.updShadow (fun g => g.rset r ((s.slot s.active).rget r i j k) i j k)

/-- A commit check fails: CONFIG at level 1 with its code (R460). -/
def State.checkFails (s : State) (code info : Nat) : State := s.raise 8 1 code info

/-! ### Trunk groups and ports (R94, R95, R112, R128) -/

/-- Is an enabled group slot invalid (R112).  DESIGN CHOICE (log 130): the shared-lane check compares the entries as written, also where another
slot's is invalid and it keeps its previous one. -/
def State.grpBad (s : State) (n sl g : Nat) : Bool :=
  let m := s.cf n TRK_GRP_CFG_LANE_MASK sl g
  let k := ones 16 m
  let rates := (s.groupLanes n sl g).map (s.laneRate n)
  k < 2 || (List.range 8).any (fun h => h != g && s.cf n TRK_GRP_CFG_EN sl h == 1 && (s.cf n TRK_GRP_CFG_LANE_MASK sl h &&& m) != 0) ||
  rates.any (· != rates.headD 0) || s.cf n TRK_GRP_CFG_MIN_ACT sl g == 0 || k < s.cf n TRK_GRP_CFG_MIN_ACT sl g

/-- The group slots that R112 finds invalid, as 8 s + g. -/
def State.badGroups (s : State) (n : Nat) : List Nat :=
  (List.range 256).filter (fun x => s.cf n TRK_GRP_CFG_EN (x / 8) (x % 8) == 1 && s.grpBad n (x / 8) (x % 8))

/-- An invalid group slot keeps its previous entry; INFO is the slice. -/
def State.dropGroup (s : State) (x : Nat) : State :=
  let s := (s.flag TRK_GRP_STAT_GRP_ERR (x / 8) (x % 8)).checkFails 2 (x / 8)
  (s.keepReg TRK_GRP_CFG (x / 8) (x % 8)).keepReg TRK_GRP_ID (x / 8) (x % 8)

/-- Is lane `l` named by an enabled group. -/
def State.laneTrunked (s : State) (n l : Nat) : Bool :=
  (List.range 8).any (fun g => s.cf n TRK_GRP_CFG_EN (l / 16) g == 1 && natBit (s.cf n TRK_GRP_CFG_LANE_MASK (l / 16) g) (l % 16))

/-- Is a port entry invalid whatever the other ports are (R95): alignment, trunk members, a trunk entry without its group, a reserved
WIDTH. -/
def State.portBad (s : State) (n p : Nat) : Bool :=
  let w := s.width n p
  if w = 7 then (s.groupAt n (p / 16) (p % 16)).isNone
  else
    let k := widthLanes w
    k == 0 || p % k != 0 || ((List.range k).map (p + ·)).any (s.laneTrunked n)

/-- The ports that R95 finds invalid: in ascending order, each valid entry takes its lanes. -/
def State.badPorts (s : State) (n : Nat) : List Nat :=
  ((List.range 512).foldl (fun (st : List Nat × List Nat) p =>
    if s.cf n MAC_PORT_CFG_EN p = 0 ∨ s.cf n MAC_PORT_CFG_WIDTH p = 0 then st
    else
      let ls := s.lanesOf n p
      if s.portBad n p || ls.any st.2.contains then (st.1 ++ [p], st.2) else (st.1, st.2 ++ ls)) ([], [])).1

/-- An invalid port entry keeps its previous one; INFO is the port. -/
def State.dropPort (s : State) (p : Nat) : State :=
  ((s.flag MAC_PORT_STAT_MAP_ERR p).checkFails 1 p).keepReg MAC_PORT_CFG p

/-- The group that a Flue port's entry in slot `n` names, as 8 s + g. -/
def State.fspGroup (s : State) (n k : Nat) : Nat := 8 * s.cf n TRK_FSP_CFG_SLICE k + s.cf n TRK_FSP_CFG_GROUP k

/-- The Flue ports whose entries R128 finds invalid, in ascending order: a group that a lower port binds, by its new entry or by the one it keeps, is
not free. -/
def State.badFsps (s : State) (n : Nat) : List Nat :=
  ((List.range 4).foldl (fun (st : List Nat × List Nat) k =>
    if s.cf n TRK_FSP_CFG_EN k = 0 then st
    else
      let x := s.fspGroup n k
      if s.cf n TRK_GRP_CFG_EN (x / 8) (x % 8) = 0 ∨ (s.groupLanes n (x / 8) (x % 8)).length ≤ s.cf n TRK_FSP_CFG_MEMBER k ∨ st.2.contains x then
        (st.1 ++ [k], if s.caOn TRK_FSP_CFG_EN k then st.2 ++ [s.fspGroup s.active k] else st.2)
      else (st.1, st.2 ++ [x])) ([], [])).1

/-! ### Parser programs (R141) -/

/-- Is a slice's parser program invalid. -/
def GenSlot.progBad (g : GenSlot) (sl : Nat) : Bool :=
  (List.range 256).any (fun x => (List.range 6).any (fun i =>
    let w := g.progWord sl (8 * x + 2 + i)
    wordBits w 31 1 == 1 && 384 < wordBits w 22 9 + wordBits w 8 6 + 1)) ||
  (List.range 1024).any (fun e =>
    let w := g.progWord sl (0x800 + 3 * e + 2)
    wordBits w 31 1 == 1 && 1 ≤ wordBits w 11 4 && wordBits w 11 4 ≤ 7)

/-- The slice keeps its previous program; INFO is the slice. -/
def State.keepProg (s : State) (sl : Nat) : State :=
  (s.checkFails 4 sl).updShadow (fun g => { g with prog := g.prog.copyRange (s.slot s.active).prog (0x2000 * sl) 0x2000 })

/-! ### Stage tables (R148, R149) -/

/-- Is one enabled table slot invalid by itself (R148).  An empty key map is not longer than a kind allows; its index is 0. -/
def GenSlot.slotBad (x : GenSlot) (sl g : Nat) (t : Slot) : Bool :=
  let es := x.keymapEntries sl g t.keymap
  let n := keymapLen es
  keymapPast es ||
  (if t.kind = kindExact then t.keyBytes == 0 || 32 < t.keyBytes || t.keyBytes < n || t.units.length % 2 == 1
   else if t.kind = kindTernary ∨ t.kind = kindLpm then 20 < n || (t.kind == kindTernary && t.dWords != 0 && t.units.isEmpty)
   else 4 < n)

/-- Is a stage's table configuration invalid (R148). -/
def GenSlot.stageBad (x : GenSlot) (sl g : Nat) : Bool :=
  let all := (List.range 4).map (x.tblSlot sl g)
  let ts := all.filter (·.on)
  all.any (fun t => 5 ≤ t.kind) || ts.any (x.slotBad sl g) || 2 < (ts.filter (fun t => t.kind == kindTernary || t.kind == kindLpm)).length ||
  (List.range 32).any (fun u => 1 < (ts.filter (fun t => t.units.contains u)).length) ||
  (List.range 16).any (fun b => 1 < (ts.filter (fun t => t.blocks.contains b)).length)

/-- A stage keeps its table-slot registers and key maps; INFO is the slice. -/
def State.keepStage (s : State) (sl g : Nat) : State :=
  let s := s.checkFails 5 sl
  let s := (List.range 4).foldl (fun s t =>
    (((s.keepReg STG_TBL_CFG sl g t).keepReg STG_TBL_UNITS sl g t).keepReg STG_TBL_DEF sl g t).keepReg STG_TBL_SEED sl g t) s
  s.updShadow (fun x => { x with keymap := x.keymap.copyRange (s.slot s.active).keymap (keymapKey sl g 0) 256 })

/-! ### Bundles (R166, R167, R169, R171, R172, R182, R186) -/

/-- How an opcode uses SA. -/
inductive SaUse where
  | none | operand | record | keymap
deriving DecidableEq, Repr

/-- The fields that an opcode uses (R172): the allowed W codes, the bytes of the destination operand (0: 2^W), whether DST, SB are used,
how SA is, the X or IMM bits used, whether the form is I, and whether IMM is an operand. -/
structure OpShape where
  w : List Nat := [0]
  dst : Bool := false
  dstLen : Nat := 0
  sa : SaUse := .none
  sb : Bool := false
  formI : Bool := false
  low : Nat := 0
  immOperand : Bool := false

/-- The shape of each opcode; none for a reserved one. -/
def opShape (opc : Nat) : Option OpShape :=
  let any := [0, 1, 2, 3]
  if opc = 0x00 ∨ opc = 0x21 ∨ opc = 0x22 ∨ opc = 0x24 then some {}
  else if opc = 0x01 then some { w := any, dst := true, sa := .operand }
  else if opc = 0x02 then some { w := any, dst := true, formI := true, immOperand := true }
  else if opc = 0x03 then some { w := [3], dst := true, formI := true, immOperand := true }
  else if opc ≤ 0x09 then some { w := any, dst := true, sa := .operand, sb := true }
  else if opc ≤ 0x0B then some { w := any, dst := true, sa := .operand, low := 0x3F }
  else if opc ≤ 0x11 then some { w := any, dst := true, sa := .operand, formI := true, immOperand := true }
  else if opc = 0x12 then some { w := any, sa := .operand, sb := true }
  else if opc = 0x13 then some { w := any, sa := .operand, formI := true, immOperand := true }
  else if opc = 0x14 then some { w := [2], dst := true, sa := .keymap, formI := true, low := 0xFFFFFFFF }
  else if opc = 0x15 then some { w := [1], dst := true, sa := .record, sb := true, low := 0x3F }
  else if opc = 0x16 then some { w := [1, 2, 3], dst := true, dstLen := 2, sa := .operand, sb := true }
  else if opc = 0x17 then some { sa := .record, low := 0x7FF }
  else if opc = 0x18 then some { low := 0xFFF }
  else if opc = 0x19 ∨ opc = 0x1A then some { w := any, sa := .operand, low := 0x1FFF }
  else if opc = 0x1B then some { w := any, sa := .operand, low := 0xF }
  else if opc = 0x1C then some { formI := true, low := 0xF01FF }
  else if opc = 0x1D then some { formI := true, low := 0xF }
  else if opc = 0x1E ∨ opc = 0x23 then some { w := any, sa := .operand }
  else if opc = 0x1F ∨ opc = 0x20 then some { formI := true, low := 0xFF }
  else none

/-- Is an operand specifier valid for an operand of `b` bytes (R167). -/
def specOk (spec b : Nat) : Bool :=
  if spec < 512 then spec + b ≤ 512
  else
    let n := spec - 512
    n < 8 || (0x10 ≤ n && n ≤ 0x16)

/-- Does a record range touch F or M. -/
def inFM (o : Nat) : Bool := o < 0x1C0

/-- The operands in the record that an instruction names: first byte of each. -/
def recordRefs (x : OpShape) (w : Nat) : List Nat :=
  (if x.dst then [actDst w] else []) ++
  (if x.sa = .record ∨ (x.sa = .operand ∧ actSa w < 512) then [actSa w % 512] else []) ++
  (if x.sb ∧ actSb w < 512 then [actSb w] else [])

/-- Bytes of the record range that SA names when it is a record place: CSUM's words, or what PUSH inserts. -/
def saLen (w : Nat) : Nat := if actOpc w = 0x15 then 2 * (actX w % 32 + 1) else if actOpc w = 0x17 then actX w % 64 + 1 else actBytes w

/-- The lowest-numbered case of R171 that an instruction breaks by itself, in stage `g`. -/
def GenSlot.instrBad (x : GenSlot) (sl g w : Nat) : Option Nat :=
  let opc := actOpc w
  match opShape opc with
  | none => some 1
  | some o =>
    let b := actBytes w
    let km := x.keymapEntries sl g (actSa w % 16)
    let low := if o.formI then actImm w else actX w
    let dl := if o.dstLen = 0 then b else o.dstLen
    let egress := 12 ≤ g
    if 25 ≤ actPred w then some 1
    else if (o.sa = .operand && !specOk (actSa w) b) || (o.sa = .record && (512 ≤ actSa w || 512 < actSa w + saLen w)) ||
        (o.sb && !specOk (actSb w) (if opc = 0x15 then 2 else b)) || (o.dst && 512 < actDst w + dl) ||
        (o.sa = .keymap && keymapPast km) then some 2
    else if o.dst && actDst w < 0x1D2 && 0x180 < actDst w + dl then some 3
    else if (!o.dst && (if opc = 0x12 ∨ opc = 0x13 then 64 ≤ actDst w else actDst w != 0)) ||
        (o.sa = .none && actSa w != 0) || (o.sa = .keymap && 16 ≤ actSa w) || (!o.sb && !o.formI && actSb w != 0) ||
        (!o.formI && o.low = 0 && actX w != 0) || (!o.immOperand && o.formI && o.low = 0 && actImm w != 0) then some 4
    else if !o.w.contains (actW w) then some 5
    else if o.sa = .keymap && 64 < keymapLen km then some 6
    else if egress && ((0x1B ≤ opc && opc ≤ 0x1F) || (0x21 ≤ opc && opc ≤ 0x23) ||
        (g < 15 && ((opc = 0x17 || opc = 0x18) || (recordRefs o w).any inFM || (o.sa = .keymap && km.any (fun e => inFM e.1))))) then some 7
    else if (o.immOperand && 2 ^ (8 * b) ≤ actImm w) || (!o.immOperand && o.low != 0 && (low &&& o.low) != low) ||
        (opc = 0x1B && 12 ≤ actX w % 16) || (opc = 0x1C && 12 ≤ natBits (actImm w) 16 4) || (opc = 0x1D && 12 ≤ actImm w) ||
        (opc = 0x20 && 0xF0 ≤ actImm w) then some 8
    else none

/-- How many instructions of a bundle have one of some opcodes. -/
def countOpc (ws : List Nat) (l : List Nat) : Nat := (ws.filter (fun w => l.contains (actOpc w))).length

/-- Does the instruction that ends a list of slots break a resource limit (R182). -/
def overLimit (ws : List Nat) : Bool :=
  let o := actOpc (ws.getLastD 0)
  (o == 0x14 && 1 < countOpc ws [0x14]) || (o == 0x1A && 1 < countOpc ws [0x1A]) || (o == 0x19 && 2 < countOpc ws [0x19]) ||
  ((o == 0x15 || o == 0x16) && 2 < countOpc ws [0x15, 0x16]) || ((o == 0x17 || o == 0x18) && 2 < countOpc ws [0x17, 0x18])

/-- The first fault of a bundle: its instruction slot and the case of R171. -/
def GenSlot.bundleBad (x : GenSlot) (sl g b : Nat) : Option (Nat × Nat) :=
  let ws := (List.range 4).map (x.actInstr sl g b)
  (List.range 4).findSome? (fun k =>
    match x.instrBad sl g (ws.getD k 0) with
    | some c => some (k, if overLimit (ws.take (k + 1)) then min c 6 else c)
    | none => if overLimit (ws.take (k + 1)) then some (k, 6) else none)

/-- The first fault of a stage's bundles: the bundle, the slot and the case. -/
def GenSlot.actBad (x : GenSlot) (sl g : Nat) : Option (Nat × Nat × Nat) :=
  (List.range 1024).findSome? (fun b => (x.bundleBad sl g b).map (fun e => (b, e.1, e.2)))

/-- A stage keeps its action program and STG_ACT_SEL, with the first fault recorded; INFO is the slice. -/
def State.keepAct (s : State) (sl g : Nat) (e : Nat × Nat × Nat) : State :=
  let s := (s.flag STG_ACT_BAD_BAD sl g).checkFails 6 sl
  let s := ((s.setF STG_ACT_BAD_BUNDLE e.1 sl g).setF STG_ACT_BAD_ISLOT e.2.1 sl g).setF STG_ACT_BAD_CODE e.2.2 sl g
  (s.keepReg STG_ACT_SEL sl g).updShadow (fun x => { x with act := x.act.copyRange (s.slot s.active).act (actKey sl g 0) 8192 })

/-! ### Reservations (R245) -/

/-- Cells reserved by a generation with BUF = 1. -/
def State.reserved (s : State) (n : Nat) : Nat :=
  (List.range 512).foldl (fun a p =>
    if s.cf n MAC_PORT_CFG_EN p = 0 then a
    else
      let lims := (List.range 12).foldl (fun a q => a + s.cf n TM_Q_LIMIT_LIMIT p q) 0
      a + lims + ones 8 (s.cf n TM_ING_CFG_LL p) * (s.cf n TM_ING_THR_THR p + s.cf n TM_ING_HDRM_HEADROOM p))
    (s.cf n TM_PART_CFG_HOB_RSV)

/-- The generation keeps BUF, every limit and threshold, and HOB_RSV. -/
def State.keepLimits (s : State) : State :=
  let s := (s.flag TM_CHIP_STAT_CFG_ERR).checkFails 11 0
  let old := s.slot s.active
  let s := s.updShadow (fun g => g.rset CHIP_MODE_CFG
    (wordPut (g.rget CHIP_MODE_CFG) CHIP_MODE_CFG_BUF.lsb 1 (old.f CHIP_MODE_CFG_BUF)))
  let s := (s.keepReg TM_PART_CFG)
  (List.range 512).foldl (fun s p =>
    let s := ((s.keepReg TM_ING_CFG p).keepReg TM_ING_THR p).keepReg TM_ING_HDRM p
    (List.range 12).foldl (fun s q => s.keepReg TM_Q_LIMIT p q) s) s

/-! ### All checks -/

/-- Steps 2 and 3 of R200 over the shadow: groups before the ports and Flue ports that name them, tables before the bundles
that hash their key maps. -/
def State.runChecks (s : State) : State :=
  let n := s.shadow
  let s := (s.badGroups n).foldl State.dropGroup s
  let s := (s.badPorts n).foldl State.dropPort s
  let s := (s.badFsps n).foldl (fun s k => (s.checkFails 3 0).keepReg TRK_FSP_CFG k) s
  let s := (List.range 32).foldl (fun s sl => if (s.slot n).progBad sl then s.keepProg sl else s) s
  let s := (List.range 576).foldl (fun s x => if (s.slot n).stageBad (x / 18) (x % 18) then s.keepStage (x / 18) (x % 18) else s) s
  let s := (List.range 576).foldl (fun s x =>
    match (s.slot n).actBad (x / 18) (x % 18) with
    | some e => s.keepAct (x / 18) (x % 18) e
    | none => s) s
  if s.cf n CHIP_MODE_CFG_BUF = 1 && 2097152 < s.reserved n then s.keepLimits else s

/-! ### The digest (R348) -/

/-- The 32 words of the digest as bytes. -/
def GenSlot.digestBytes (g : GenSlot) : List Byte :=
  let w (r : Reg) (i : Nat := 0) : List Byte := natBytes 4 (g.rget r i).toNat
  w CHIP_METER ++ w CHIP_MODE_CFG ++ w DOM_ID ++ w DOM_HELLO ++ w TM_CHIP_CFG ++
    (List.range 16).foldl (fun a i => a ++ w DOM_DCFG i) [] ++ List.replicate 44 0

/-- The 64-bit digest: CRC-32C in the high half, and in the low half the same from the initial value 0x5A5A_5A5A. -/
def GenSlot.digest (g : GenSlot) : Nat :=
  let b := g.digestBytes
  crc32c b * 2 ^ 32 + ((b.foldl crc32cByte 0x5A5A5A5A) ^^^ 0xFFFFFFFF)

end Sys2Proof.Machine
end

