-- ==== Sys2Proof/Machine/Generations.lean ====
section
/-! DEFINITION. Generations (R190 to R213) and the eight modes (R47 to R66): configuration banks, commits, retirement, draining
commits and the clock axis. -/

namespace Sys2Proof.Machine

/-! ### Configuration banks (R209 to R211) -/

/-- Chip address of bank b in configuration RAM (R437). -/
def bankBase (b : Nat) : Nat := if b = 0 then 0x101000000 else 0x102000000

/-- A field of a bank's header. -/
def State.bankField (s : State) (b o n : Nat) : Nat := beNat (s.load (bankBase b + o) n)

/-- The 32-bit words of a byte string. -/
def wordsOfBytes : List Byte → List Nat
  | a :: b :: c :: d :: t => beNat [a, b, c, d] :: wordsOfBytes t
  | _ => []

/-- The writes that a body's records make, in order; none when the scan finds it malformed (R209, R210). -/
def scanRecords : Nat → List Nat → Option (List (Nat × Nat))
  | 0, _ => none
  | fuel + 1, w0 :: w1 :: w2 :: rest =>
    let op := natBits w0 28 4
    let n := natBits w0 0 24
    let a := w1 % 65536 * 2 ^ 32 + w2
    if op = 0 then (if n = 0 ∧ a = 0 ∧ rest = [] then some [] else none)
    else if op = 1 then
      if rest.length < n then none
      else (scanRecords fuel (rest.drop n)).map (fun t => (List.range n).map (fun i => (a + 4 * i, rest.getD i 0)) ++ t)
    else if op = 2 then
      match rest with
      | [] => none
      | v :: rest => (scanRecords fuel rest).map (fun t => (List.range n).map (fun i => (a + 4 * i, v)) ++ t)
    else if op = 3 then
      if rest.length < n then none
      else (scanRecords fuel (rest.drop n)).map (fun t => (rest.take n).map (fun v => (a, v)) ++ t)
    else none
  | _ + 1, _ => none

/-- May a bank write the register at an address: configuration registers, PRS_PROG_ADDR and PRS_PROG_DATA, and the registers of the
table ports, among them the multicast port (R267), and the action ports (R210). -/
def bankMayWrite (a : Nat) : Bool :=
  match placeOf a with
  | none => false
  | some p => p.reg.cfg || [PRS_PROG_ADDR, PRS_PROG_DATA, STG_ACC_CTL, STG_ACC_ADDR, STG_ACC_STAT, STG_ACC_DATA, STG_CNT_CTL,
      STG_ACT_CTL, STG_ACT_ADDR, STG_ACT_STAT, STG_ACT_DATA, STG_ACT_CNT_CTL,
      TM_MC_CTL, TM_MC_STAT, TM_MC_FLAGS, TM_MC_DATA].any (fun r => r.base == p.reg.base)

/-- A bank in configuration RAM verified (R210): the writes of its records and FULL, or none when it is not valid. -/
def State.bankImage (s : State) (b : Nat) : Option (List (Nat × Nat) × Bool) :=
  let len := s.bankField b 12 4
  if s.bankField b 0 4 ≠ 0x4E484346 ∨ s.bankField b 4 2 ≠ 1 ∨ len % 4 ≠ 0 ∨ 16777180 < len then none
  else if crc32c (s.load (bankBase b) (32 + len)) ≠ s.bankField b (32 + len) 4 then none
  else
    match scanRecords (len / 4 + 1) (wordsOfBytes (s.load (bankBase b + 32) len)) with
    | none => none
    | some ws => if ws.all (fun w => bankMayWrite w.1) then some (ws, natBit (s.bankField b 20 4) 0) else none

/-- Check a bank: VALIDb and GEN_BANKb_SEQ show the result. -/
def State.checkBank (s : State) (b : Nat) : State :=
  let v := (s.bankImage b).isSome
  let s := s.setF GEN_BANK_SEQ_SEQ (s.bankField b 8 4) b
  if b = 0 then s.setF GEN_BANK_STAT_VALID0 v.toNat else s.setF GEN_BANK_STAT_VALID1 v.toNat

/-- Is number a newer than b (R192). -/
def newer (a b : Nat) : Bool := 1 ≤ (a + 2 ^ 32 - b) % 2 ^ 32 && (a + 2 ^ 32 - b) % 2 ^ 32 ≤ 2 ^ 31 - 1

/-- Do two sequence numbers tie (R211). -/
def seqTie (a b : Nat) : Bool := a == b || (a + 2 ^ 32 - b) % 2 ^ 32 == 2 ^ 31

/-- The selection between two banks by validity and SEQ (R211): the bank, and whether it was a tie. -/
def selectBank (v0 v1 : Bool) (q0 q1 : Nat) : Option Nat × Bool :=
  if v0 && v1 then (if seqTie q0 q1 then (some 0, true) else (some (if newer q1 q0 then 1 else 0), false))
  else if v0 then (some 0, false) else if v1 then (some 1, false) else (none, false)

/-- The bank that a commit of source SRC 1 to 3 loads, after its check. -/
def State.pickBank (s : State) (src : Nat) : State × Option Nat :=
  if src = 1 ∨ src = 2 then
    let s := s.checkBank (src - 1)
    (s, if (s.bankImage (src - 1)).isSome then some (src - 1) else none)
  else
    let s := (s.checkBank 0).checkBank 1
    let r := selectBank (s.bankImage 0).isSome (s.bankImage 1).isSome (s.bankField 0 8 4) (s.bankField 1 8 4)
    (s.setF GEN_BANK_STAT_TIE r.2.toNat, r.1)

/-! ### The player (R209) and the reset of the shadow (R491) -/

/-- The player writes one word: a port access that it starts has landed before the next word. -/
def State.playWord (s : State) (w : Nat × Nat) : State :=
  let v := BitVec.ofNat 32 w.2
  match placeOf w.1 with
  | none => s
  | some p =>
    if p.reg.cfg then s.cfgStore s.shadow p v
    else if p.reg.base = PRS_PROG_DATA.base then s.prsWrite p.i v true
    else
      let s := s.rset p.reg (storeFields (s.rget p.reg p.i p.j p.k) v p.fields) p.i p.j p.k
      if p.reg.base = STG_ACC_CTL.base ∧ wordBits v 31 1 = 1 then
        let busy := s.on STG_ACC_STAT_BUSY p.i
        let s := s.tblGo p.i true
        if busy then s else s.tblDone p.i
      else if p.reg.base = STG_ACT_CTL.base ∧ wordBits v 31 1 = 1 then
        let busy := s.on STG_ACT_STAT_BUSY p.i
        let s := s.actGo p.i true
        if busy then s else s.actDone p.i
      else if p.reg.base = TM_MC_CTL.base ∧ wordBits v 31 1 = 1 then
        let busy := s.on TM_MC_STAT_BUSY
        let s := s.mcGo (s.on TM_MC_CTL_READ) (s.on TM_MC_CTL_ACTIVE) (s.f TM_MC_CTL_GROUP) true
        if busy then s else s.mcDone
      else if p.reg.base = STG_CNT_CTL.base ∧ wordBits v 0 1 = 1 then s.stgCntClear p.i
      else if p.reg.base = STG_ACT_CNT_CTL.base ∧ wordBits v 0 1 = 1 then s.cclr C_STG_ACT_RANGE p.i
      else (p.fields.filter (fun x => x.acc = .w1c)).foldl (fun s x =>
        if wordBits v x.lsb 1 = 1 then s.w1c x (p.reg.addr p.i p.j p.k) 0 else s) s

/-- Give entry `e` of `w` bits of a table a new value. -/
def State.setEntry (s : State) (sl g : Nat) (units : List Nat) (w e v : Nat) : State :=
  let row (r : Nat) : Nat := 1024 * units.getD (r / 1024) 0 + r % 1024
  if w ≤ 128 then
    let r := e / entriesPerRow w
    let sh := w * (e % entriesPerRow w)
    let old := s.tblRow sl g units r
    s.setRow sl g (row r) (old - natBits old sh w * 2 ^ sh + v % 2 ^ w * 2 ^ sh)
  else
    let k := entrySpan w
    let old := s.tblRows sl g units (e * k) k
    let new := old - old % 2 ^ w + v % 2 ^ w
    (List.range k).foldl (fun s i => s.setRow sl g (row (e * k + i)) (natBits new (128 * i) 128)) s

/-- An entry with its part for slot `n` (a presence bit, or a version) cleared or, with `copy`, taken from the other slot's part. -/
def entryFor (keyed copy : Bool) (w n e : Nat) : Nat :=
  let k := if keyed then 1 else w / 2
  let e' := e - natBits e (k * n) k * 2 ^ (k * n)
  if copy then e' + natBits e (k * (1 - n)) k * 2 ^ (k * n) else e'

/-- The entries of the ACTIVE generation in one stored SRAM row, prepared for slot `n`; a row that the ACTIVE generation does not use
is zeroed unless `copy`. -/
def State.prepareRow (s : State) (n : Nat) (copy : Bool) (key : Nat) : State :=
  let sl := key / 32768 / 18
  let g := key / 32768 % 18
  let row := key % 32768
  match (s.slot s.active).unitOwner sl g (row / 1024) with
  | none => if copy then s else s.setRow sl g row 0
  | some t =>
    (t.entriesAt (1024 * t.units.idxOf (row / 1024) + row % 1024)).foldl (fun s v =>
      match s.tblEntry sl g v.units v.width v.entry with
      | none => s
      | some e => s.setEntry sl g v.units v.width v.entry (entryFor v.keyed copy v.width n e)) s

/-- The same for one stored ternary entry. -/
def State.prepareTern (s : State) (n : Nat) (copy : Bool) (key : Nat) : State :=
  let sl := key / 2048 / 18
  let g := key / 2048 % 18
  let x := s.tab.tern.get key
  let v : TernEntry := match (s.slot s.active).blockOwner sl g (key % 2048 / 128) with
    | none => if copy then x else {}
    | some _ => { x with p := entryFor true copy 2 n x.p }
  s.setTern sl g (key % 2048) v

/-- Prepare all table memory for slot `n`: emptied for it, or as the ACTIVE slot sees it. -/
def State.prepareTables (s : State) (n : Nat) (copy : Bool) : State :=
  let s := (s.tab.sram.map (·.1)).foldl (fun s k => s.prepareRow n copy k) s
  (s.tab.tern.map (·.1)).foldl (fun s k => s.prepareTern n copy k) s

/-- A FULL bank resets the shadow (R491). -/
def State.fullReset (s : State) : State := (s.setSlot s.shadow {}).prepareTables s.shadow false

/-- Load a verified bank: reset with FULL, then the first `n` words. -/
def State.playBank (s : State) (img : List (Nat × Nat) × Bool) (n : Nat) : State :=
  (img.1.take n).foldl State.playWord (if img.2 then s.fullReset else s)

/-! ### Commit requests (R199 to R208) -/

/-- Is a number allowed for a commit (R192). -/
def State.numberOk (s : State) (n : Nat) (anynum : Bool) : Bool :=
  if !s.gen.committed then n != 0
  else if anynum then n != s.f GEN_ACTIVE_NUM
  else newer n (s.f GEN_ACTIVE_NUM)

/-- Is the commit NT of a request reached or passed. -/
def State.reached (s : State) (r : CommitReq) : Bool := !r.now && r.tc * nsUnit ≤ s.nt

/-- A commit is missed (R203). -/
def State.missed (s : State) : State := ((s.setF GEN_STAT_RESULT 2).flag GEN_STAT_MISSED).raise 8 1 8

/-- A request enters CHECK. -/
def State.enterCheck (s : State) (r : CommitReq) : State :=
  State.setF { s with gen := { s.gen with req := some r } } GEN_STAT_CSTATE 4

/-- Is a request the start-up commit (R452): its source is a bank, and no bank has taken effect since reset. -/
def State.startUp (s : State) (r : CommitReq) : Bool := r.src != 0 && s.f GEN_BANK_STAT_BOOT_BANK == 2

/-- A commit of a number that R192 does not allow. -/
def State.badNumber (s : State) : State := (s.setF GEN_STAT_RESULT 3).raise 8 1 7

/-- GEN_CMT_CTL.GO (R199, R203, R207); the start-up commit's number is its bank's. -/
def State.commitGo (s : State) (r : CommitReq) : State :=
  let st := s.f GEN_STAT_CSTATE
  if st = 4 ∨ st = 5 ∨ s.gen.held.isSome then s.flag GEN_STAT_REFUSED
  else if !s.startUp r && !s.numberOk r.num r.anynum then s.badNumber
  else if s.reached r then s.missed
  else if st = 3 then s.enterCheck r
  else State.setF { s with gen := { s.gen with held := some r } } GEN_STAT_STALLED 1

/-- GO with SRC, NOW and ANYNUM written in one word. -/
def State.commitCmd (s : State) (src : Nat) (now anynum : Bool) : State :=
  let s := ((s.setF GEN_CMT_CTL_SRC src).setF GEN_CMT_CTL_NOW now.toNat).setF GEN_CMT_CTL_ANYNUM anynum.toNat
  s.commitGo { num := s.f GEN_CMT_NUM_NUM, tc := s.getNs3 GEN_CMT_AT_HI_SEC_HI GEN_CMT_AT_MID_SEC_LO GEN_CMT_AT_LO_NS,
               src := src, now := now, anynum := anynum }

/-- COMMIT_REQUEST (R199). -/
def execCommitRequest (src : Fin 4) (now anynum : Bool) (s : State) : Host.Outcome State Fault Refusal :=
  .next (s.commitCmd src now anynum)

/-- GEN_CMT_CTL.CANCEL (R205): without effect when nothing runs, and in the cc in which the commit NT is reached. -/
def State.commitCancel (s : State) : State :=
  match s.gen.held with
  | some r =>
    if s.reached r then s
    else State.setF (State.setF { s with gen := { s.gen with held := none } } GEN_STAT_STALLED 0) GEN_STAT_RESULT 5
  | none =>
    match s.gen.req with
    | some r =>
      if s.reached r then s
      else State.setF (State.setF { s with gen := { s.gen with req := none } } GEN_STAT_CSTATE 3) GEN_STAT_RESULT 5
    | none => s

/-- COMMIT_CANCEL (R205). -/
def execCommitCancel (s : State) : Host.Outcome State Fault Refusal := .next s.commitCancel

/-- CHECK ends well: ARMED, with the digest of what was checked. -/
def State.armed (s : State) : State :=
  let s := s.runChecks
  let s := { s with gen := { s.gen with newDigest := (s.slot s.shadow).digest, checkEnd := s.cc } }
  s.setF GEN_STAT_CSTATE 5

/-- CHECK finds no valid bank (R210). -/
def State.badBank (s : State) : State :=
  State.raise (State.setF (State.setF { s with gen := { s.gen with req := none } } GEN_STAT_CSTATE 3) GEN_STAT_RESULT 4) 8 1 9

/-- A valid bank is played and checked; the start-up commit takes the bank's GEN_NUM, without regard to ANYNUM, and a
GEN_NUM of 0, or after a commit has taken effect one that is not newer than the active number (R192), ends it (R452). -/
def State.checkBankSource (s : State) (r : CommitReq) (b : Nat) (img : List (Nat × Nat) × Bool) : State :=
  let num := if s.startUp r then s.bankField b 16 4 else r.num
  if s.startUp r && (num == 0 || !s.numberOk num false) then
    State.badNumber (State.setF { s with gen := { s.gen with req := none } } GEN_STAT_CSTATE 3)
  else
    let s := { s with gen := { s.gen with req := some { r with num := num, bank := b } } }
    (s.playBank img img.1.length).armed

/-- The work of CHECK (R200). -/
def State.doCheck (s : State) (r : CommitReq) : State :=
  if r.src = 0 then s.armed
  else
    let (s, b) := s.pickBank r.src
    match b with
    | none => s.badBank
    | some b =>
      match s.bankImage b with
      | none => s.badBank
      | some img => s.checkBankSource r b img

/-- CHECK_COMPLETE (R200, R201); a CHECK whose commit NT has been reached is missed instead (R203). -/
def execCheckComplete (s : State) : Host.Outcome State Fault Refusal :=
  .next (match s.gen.req with
    | none => s
    | some r => s.when (s.f GEN_STAT_CSTATE == 4 && !s.reached r) fun s => s.doCheck r)

/-- What a bank load had written when its commit was missed: a free number of its words. -/
def State.partLoad (s : State) (r : CommitReq) : State :=
  if r.src = 0 then s
  else
    let (s, b) := s.pickBank r.src
    match b.bind s.bankImage with
    | none => s
    | some img =>
      let v := s.freeVal
      if v % 2 = 0 then s.fresh else s.fresh.playBank img (v / 2)

/-- COMMIT_MISSED (R203): the commit NT is reached while the request is in CHECK or STALLED. -/
def execCommitMissed (s : State) : Host.Outcome State Fault Refusal :=
  .next (match s.gen.held, s.gen.req with
    | some r, _ => s.when (s.reached r) fun s =>
        (State.setF { s with gen := { s.gen with held := none } } GEN_STAT_STALLED 0).missed
    | none, some r => s.when (s.reached r && s.f GEN_STAT_CSTATE == 4) fun s =>
        (State.setF { s.partLoad r with gen := { (s.partLoad r).gen with req := none } } GEN_STAT_CSTATE 3).missed
    | none, none => s)

/-! ### A commit takes effect (R202, R96, R106, R351, R58 to R61) -/

/-- Does a generation slot enable a port: EN with a WIDTH.  DESIGN CHOICE (log 118): an entry with EN = 1 and WIDTH 0, no port (R94), which the checks
of R95 pass over, does not enable it. -/
def State.portEn (s : State) (n p : Nat) : Bool := s.cf n MAC_PORT_CFG_EN p == 1 && s.width n p != 0

/-- The state of a port after a commit (R96, R106): EN = 0 disables it, EN = 1 brings it from DISABLED to DOWN, and a changed WIDTH takes it
there from any state. -/
def State.portCommitState (s : State) (p : Nat) (en changed : Bool) : State :=
  if !en then (if s.f MAC_PORT_STAT_STATE p = 0 then s else s.portTo p 0)
  else if s.f MAC_PORT_STAT_STATE p = 0 then (if s.auxAsleep p then s else s.setF MAC_PORT_STAT_STATE 1 p)
  else if changed then s.portTo p 1
  else s

/-- A port after a commit (R96, R106).  The lanes of a changed width, which are those that the port has under an entry that enables it, go to OFF
and on to WAIT_SIG. -/
def State.portCommit (s : State) (old p : Nat) : State :=
  let was := s.portEn old p
  let en := s.portEn s.active p
  let changed := (was || en) && s.width old p != s.width s.active p
  let s := s.portCommitState p en changed
  if changed then
    let ls := (if was then s.lanesOf old p else []) ++ (if en then s.portLanes p else [])
    ls.dedup.foldl (fun s l => (s.laneOffCause l 0).startLane l) s
  else s

/-- A domain link after a commit that changes its EN (R351): EDGE, or DOWN and then as a port that enters UP. -/
def State.domCommit (s : State) (old p : Nat) : State :=
  let en := s.ca DOM_PORT_CFG_EN p
  if s.cf old DOM_PORT_CFG_EN p = en then s
  else if en = 0 then ((s.setF DOM_PORT_STAT_STATE 3 p).setF DOM_PORT_STAT_CAUSE 0 p).setF DOM_PORT_STAT_AGREE_CNT 0 p
  else if s.macUp p then ((s.setF DOM_PORT_STAT_STATE 0 p).domUp p).tmPortDown p
  else (s.setF DOM_PORT_STAT_STATE 0 p).setF DOM_PORT_STAT_AGREE_CNT 0 p

/-- The queues that a draining commit holds (R59), by 12 p + q. -/
def heldQueues (lat buf : Bool) : List Nat :=
  if buf then List.range 6144
  else if lat then (List.range 512).foldl (fun a p => a ++ [12 * p + 10, 12 * p + 11]) [] else []

/-- A draining commit begins (R60); `t` is t_c. -/
def State.drainStart (s : State) (old t : Nat) : State :=
  let lat := s.cf old CHIP_MODE_CFG_LAT != s.ca CHIP_MODE_CFG_LAT
  let buf := s.cf old CHIP_MODE_CFG_BUF != s.ca CHIP_MODE_CFG_BUF
  if lat || buf then
    State.setF { s with tm := { s.tm with
      held := heldQueues lat buf, drainFrom := t, flushed := false, heldEmpty := false
      drainTx := t + s.ca CHIP_MODE_CFG_DRAIN_TX * 1000 * nsUnit } } CHIP_MODE_STAT_DRAIN_ACTIVE 1
  else s

/-- CHIP_MODE.MODE shows bits 2 and 0 of the ACTIVE generation. -/
def State.modeShow (s : State) : State :=
  s.setF CHIP_MODE_MODE (4 * s.ca CHIP_MODE_CFG_LAT + natBits (s.f CHIP_MODE_MODE) 1 1 * 2 + s.ca CHIP_MODE_CFG_BUF)

/-- The registers of GEN_ after the switch of slots. -/
def State.switchSlots (s : State) (r : CommitReq) (t : Nat) : State :=
  let new := s.shadow
  let s := { s with gen := { s.gen with req := none, committed := true, ts := t, swept := false } }
  let s := ((s.setF GEN_STAT_ACTIVE_SLOT new).setF GEN_ACTIVE_NUM r.num).setF GEN_SLOT_NUM_NUM r.num new
  let s := ((s.setF GEN_STAT_CSTATE 0).setF GEN_STAT_RESULT 1).flag GEN_STAT_DONE
  ((s.setF GEN_DIGEST_LO_DIGEST s.gen.newDigest).setF GEN_DIGEST_HI_DIGEST (s.gen.newDigest / 2 ^ 32)).irq 6

/-- The commit takes effect at NT `t` (R202) with every effect that a chapter ties to the commit NT. -/
def State.commitEffect (s : State) (r : CommitReq) (t : Nat) : State :=
  let old := s.active
  let s := if s.startUp r then s.setF GEN_BANK_STAT_BOOT_BANK r.bank else s
  let s := s.switchSlots r t
  let s := s.laneCommit old
  let s := (List.range 32).foldl (fun s sl => s.trkCommit old sl) s
  let s := (List.range 514).foldl (fun s p => s.portCommit old p) s
  let s := (List.range 512).foldl (fun s p => s.domCommit old p) s
  let s := (s.drainStart old t).modeShow
  if s.meteredMode then (List.range 512).foldl State.lpiWake s else s

/-- COMMIT_TAKE_EFFECT (R202): the first cc with NT at or past t_c, or with NOW the first after CHECK. -/
def execCommitTakeEffect (s : State) : Host.Outcome State Fault Refusal :=
  .next (match s.gen.req with
    | none => s
    | some r => s.when (s.f GEN_STAT_CSTATE == 5 && (if r.now then decide (s.gen.checkEnd < s.cc) else s.reached r)) fun s =>
        s.commitEffect r (if r.now then s.nt else r.tc * nsUnit))

/-! ### Retirement (R198, R206) -/

/-- A frame that waits in the return lane, or at a Hob engine (R315), is dropped by the sweep. -/
def State.sweepFrame (s : State) (f : Nat) : State :=
  let x := s.frame f
  let s := match x.block with
    | some a => s.release a x.tag (sliceOf x.inPort) x.epoch
    | none => s
  ((s.setFrame f { x with stage := .done, block := none }).infl x.slot (-1)).count C_GEN_STALE_DROP

/-- A copy that a flush of this cc has taken counts once, by the sweep (R264). -/
def State.flushedToStale (s : State) (g : Nat × Nat × Bool) : State :=
  let s := (s.uncount C_TM_Q_FLUSH (g.1 / 12) (g.1 % 12)).unev 0x023 (sliceOf (g.1 / 12))
  (if g.2.2 then s.uncountF CHIP_MODE_FLUSH_COUNT else s).count C_GEN_STALE_DROP

/-- The sweep at t_s + MAX_AGE (R198). -/
def State.sweep (s : State) : State :=
  let n := s.shadow
  let s := (s.tm.flushGone.filter (fun g => g.2.1 == n)).foldl State.flushedToStale s
  let cs := (s.fwd.copies.filter (fun e => e.2.slot == n && (e.2.state == .queued || e.2.state == .residue))).map (·.1)
  let fs := (s.fwd.frames.filter (fun e => e.2.slot == n && (e.2.stage == .returning || e.2.stage == .hob))).map (·.1)
  let s := cs.foldl State.staleDrop s
  let s := fs.foldl State.sweepFrame s
  { s with gen := { s.gen with swept := true }, hob := { s.hob with intake := s.hob.intake.filter (fun i => !fs.contains i.frame) } }

/-- STALE_SWEEP (R198). -/
def execStaleSweep (s : State) : Host.Outcome State Fault Refusal :=
  .next (s.when (s.f GEN_STAT_CSTATE == 0 && !s.gen.swept && s.gen.ts + s.f GEN_AGE_MAX_AGE * 1000 * nsUnit ≤ s.nt) State.sweep)

/-- Is a drain running (R60). -/
def State.draining (s : State) : Bool := s.on CHIP_MODE_STAT_DRAIN_ACTIVE

/-- The word that GEN_STAT reads: DRAIN_WAIT while a drain alone holds retirement (R206). -/
def State.genStatWord (s : State) : Word :=
  wordPut (s.rget GEN_STAT) GEN_STAT_DRAIN_WAIT.lsb 1
    (s.f GEN_STAT_CSTATE == 0 && s.f GEN_SLOT_INFL_COUNT s.shadow == 0 && s.draining).toNat

/-- RETIRE_SYNC_START (R206). -/
def execRetireSyncStart (s : State) : Host.Outcome State Fault Refusal :=
  .next (s.when (s.f GEN_STAT_CSTATE == 0 && s.f GEN_SLOT_INFL_COUNT s.shadow == 0 && !s.draining) fun s =>
    State.setF (State.setF { s with gen := { s.gen with syncStart := s.cc } } GEN_STAT_CSTATE 1) GEN_SLOT_NUM_NUM 0 s.shadow)

/-- SYNC_COMPLETE (R206, R207): the slot holds a copy of the ACTIVE slot and is OPEN; a held request enters CHECK at once. -/
def execSyncComplete (s : State) : Host.Outcome State Fault Refusal :=
  .next (s.when (s.f GEN_STAT_CSTATE == 1 && s.gen.syncStart + 32768 ≤ s.cc) fun s =>
    let s := ((s.setSlot s.shadow (s.slot s.active)).prepareTables s.shadow true).setF GEN_STAT_CSTATE 3
    match s.gen.held with
    | none => s
    | some r => (State.setF { s with gen := { s.gen with held := none } } GEN_STAT_STALLED 0).enterCheck r)

/-- GEN_CNT_CLR (R213). -/
def State.genCntClrCmd (s : State) : State :=
  s.cclrs [C_GEN_STALE_DROP, C_GEN_WR_REFUSED]

/-- GEN_CNT_CLR. -/
def execGenCntClr (s : State) : Host.Outcome State Fault Refusal := .next (s.genCntClrCmd)

/-! ### Drains (R60 to R62) -/

/-- The epoch number, truncated to 64 bits (R53). -/
def State.epoch (s : State) : Nat := s.nt / usUnit % 2 ^ 64

/-- Flush one copy of a held queue. -/
def State.drainCopy (s : State) (c : Nat) : State := (s.flushCopy true c).countF CHIP_MODE_FLUSH_COUNT

/-- The copies in held queues. -/
def State.heldCopies (s : State) : List Nat :=
  (s.fwd.copies.filter (fun e => e.2.state == .queued && s.queueHeld e.2.port e.2.queue)).map (·.1)

/-- Step 4 of R60: every frame still in a held queue is flushed. -/
def State.drainFlush (s : State) : State :=
  let s := s.heldCopies.foldl State.drainCopy s
  { s with tm := { s.tm with flushed := true } }

/-- DRAIN_FLUSH (R60). -/
def execDrainFlush (s : State) : Host.Outcome State Fault Refusal :=
  .next (s.when (s.draining && !s.tm.flushed && s.tm.drainTx ≤ s.nt) State.drainFlush)

/-- Are all held queues empty, and no port of theirs flushing (R60, R62). -/
def State.heldAreEmpty (s : State) : Bool :=
  s.tm.held.all (fun k => s.tm.queues.get k == [] && s.f TM_PORT_STAT_FLUSHING (k / 12) == 0)

/-- DRAIN_END (R60, R61): the first epoch boundary later than t_c whose cc began with every held queue empty. -/
def execDrainEnd (s : State) : Host.Outcome State Fault Refusal :=
  .next (s.when (s.draining && s.time.epochCc == s.cc && s.tm.drainFrom < s.time.epochSeen * usUnit && s.tm.heldEmpty) fun s =>
    let us := (s.time.epochSeen * usUnit - s.tm.drainFrom) / usUnit
    let s := { s with tm := { s.tm with held := [], drainFrom := 0, drainTx := 0, flushed := false, heldEmpty := false } }
    ((s.setF CHIP_MODE_STAT_DRAIN_ACTIVE 0).setF CHIP_MODE_STAT_LAST_DRAIN_US us).flag CHIP_MODE_STAT_DRAIN_DONE)

/-! ### The clock axis (R53 to R56) -/

/-- A write of CHIP_MODE_CLK (R54, R55). -/
def State.clockWrite (s : State) (v : Word) : State :=
  let s := s.rset CHIP_MODE_CLK (storeFields (s.rget CHIP_MODE_CLK) v [CHIP_MODE_CLK_USE_AT, CHIP_MODE_CLK_DAMPER_FIX, CHIP_MODE_CLK_FIXED])
  let useAt := s.on CHIP_MODE_CLK_USE_AT
  let target := s.f CHIP_MODE_AT_HI_EPOCH_HI * 2 ^ 32 + s.f CHIP_MODE_AT_LO_EPOCH_LO
  let e := s.epoch
  let s := if useAt && target ≤ e then s.flag CHIP_MODE_STAT_AT_PAST else s
  State.setF { s with clk := some { fixed := s.on CHIP_MODE_CLK_FIXED, damper := s.f CHIP_MODE_CLK_DAMPER_FIX,
                                    epoch := if useAt then max target (e + 1) else e + 1 } } CHIP_MODE_STAT_CLK_PENDING 1

/-- CHIP_MODE_CLK_WRITE (R54). -/
def execChipModeClkWrite (v : Word) (s : State) : Host.Outcome State Fault Refusal := .next (s.clockWrite v)

/-- Fixed-frequency mode in force. -/
def State.fixedClock (s : State) : Bool := natBit (s.f CHIP_MODE_MODE) 1

/-- CHIP_METER_CLR (R45). -/
def State.chipMeterClrCmd (s : State) : State :=
  (((s.rset CHIP_METER_WORST 0).clrF CHIP_METER_LATE_COUNT).clrF CHIP_METER_DROP_COUNT).worst (s.cntNew.get (CHIP_METER_WORST.addr 0 0 0))

/-- CHIP_METER_CLR. -/
def execChipMeterClr (s : State) : Host.Outcome State Fault Refusal := .next (s.chipMeterClrCmd)

/-- CHIP_MODE_CLR (R66). -/
def State.chipModeClrCmd (s : State) : State :=
  (s.clrF CHIP_MODE_DRAIN_DROP_COUNT).clrF CHIP_MODE_FLUSH_COUNT

/-- CHIP_MODE_CLR. -/
def execChipModeClr (s : State) : Host.Outcome State Fault Refusal := .next (s.chipModeClrCmd)

end Sys2Proof.Machine
end

