-- ==== Sys2Proof/Machine/HobMath.lean ====
section
/-! DEFINITION. The arithmetic of the Hob engines (R294 to R296): exact conversion of every wire type to fp32, the six operations, and
the conversions out of fp32. -/

namespace Sys2Proof.Machine

/-! ### Operating points (R328, R481) -/

/-- E_k in thousandths. -/
def pointScale (k : Nat) : Nat := [1000, 1040, 1085, 1127, 1174].getD k 1000

/-- Cycles of HCLK in one epoch of 1 µs. -/
def pointHc (k : Nat) : Nat := 1500 + 125 * k

/-- The HOB_VID code of a point. -/
def pointVid (k : Nat) : Nat := [40, 47, 54, 62, 70].getD k 40

/-- The operating point in force. -/
def State.point (s : State) : Nat := s.f PWR_BELLOWS_POINT

/-- A floating-point format: exponent bits, mantissa bits, and whether it has infinities (E4M3 has none). -/
structure FFmt where
  e : Nat
  m : Nat
  inf : Bool := true

/-- The formats of the data types; fp32 for the others. -/
def fmtOf (dtype : Nat) : FFmt :=
  if dtype = 2 then { e := 8, m := 7 }
  else if dtype = 3 then { e := 5, m := 10 }
  else if dtype = 4 ∨ dtype = 6 then { e := 4, m := 3, inf := false }
  else if dtype = 5 ∨ dtype = 7 then { e := 5, m := 2 }
  else { e := 8, m := 23 }

/-- A decoded value: the sign with an exact magnitude mag * 2^exp, an infinity, or a NaN. -/
inductive FVal where
  | fin (neg : Bool) (mag : Nat) (exp : Int)
  | inf (neg : Bool)
  | nan

/-- The exponent of the least normal value. -/
def FFmt.emin (f : FFmt) : Int := 2 - (2 ^ (f.e - 1) : Nat)

/-- Bits without sign of an infinity, or of the value after the largest. -/
def FFmt.infBits (f : FFmt) : Nat := (2 ^ f.e - 1) * 2 ^ f.m

/-- The value of a bit pattern. -/
def FFmt.decode (f : FFmt) (b : Nat) : FVal :=
  let neg := natBit b (f.e + f.m)
  let ex := natBits b f.m f.e
  let man := natBits b 0 f.m
  if f.inf && ex == 2 ^ f.e - 1 then (if man = 0 then .inf neg else .nan)
  else if !f.inf && ex == 2 ^ f.e - 1 && man == 2 ^ f.m - 1 then .nan
  else if ex = 0 then .fin neg man (f.emin - f.m)
  else .fin neg (2 ^ f.m + man) (f.emin - f.m + (ex - 1 : Nat))

/-- mag / 2^k rounded to the nearest integer, ties to even. -/
def shiftRound (mag k : Nat) : Nat :=
  let q := mag / 2 ^ k
  let r := 2 * (mag % 2 ^ k)
  if r < 2 ^ k then q else if r = 2 ^ k then q + q % 2 else q + 1

/-- The bit pattern without sign nearest to mag * 2^exp (R295): ties to even, subnormals kept. -/
def FFmt.round (f : FFmt) (mag : Nat) (exp : Int) : Nat :=
  if mag = 0 then 0
  else
    let u : Int := (Nat.log2 mag : Nat) + exp
    let low := f.emin - f.m
    let q := max (u - f.m) low
    let r := if q ≤ exp then mag * 2 ^ (exp - q).toNat else shiftRound mag (q - exp).toNat
    r + (q - low).toNat * 2 ^ f.m

/-- A NaN of a type: one of its NaN patterns, which one the spec does not say; fp32 and E4M3 follow the spec. -/
def nanOf (dtype : Nat) : Nat :=
  let f := fmtOf dtype
  let v := Config.nanBits dtype
  if dtype = 1 then 0x7FC00000
  else if !f.inf then (if v % 2 = 0 then 0x7F else 0xFF)
  else f.infBits + 1 + v / 2 % (2 ^ f.m - 1) + v % 2 * 2 ^ (f.e + f.m)

/-- A value as a bit pattern of a type (R295): overflow gives infinity, or plus or minus 448 in E4M3. -/
def FVal.encode (v : FVal) (dtype : Nat) : Nat :=
  let f := fmtOf dtype
  let sign (neg : Bool) : Nat := if neg then 2 ^ (f.e + f.m) else 0
  match v with
  | .nan => nanOf dtype
  | .inf neg => sign neg + (if f.inf then f.infBits else f.infBits + 2 ^ f.m - 2)
  | .fin neg mag exp =>
    let b := f.round mag exp
    sign neg + (if f.inf then min b f.infBits else min b (f.infBits + 2 ^ f.m - 2))

/-- fp32 of a bit pattern. -/
def f32 (b : Nat) : FVal := (fmtOf 1).decode b

/-- The sum of two fp32 values (R295). -/
def f32Add (a b : Nat) : Nat :=
  match f32 a, f32 b with
  | .nan, _ => 0x7FC00000
  | _, .nan => 0x7FC00000
  | .inf x, .inf y => if x = y then (FVal.inf x).encode 1 else 0x7FC00000
  | .inf x, _ => (FVal.inf x).encode 1
  | _, .inf y => (FVal.inf y).encode 1
  | .fin x m e, .fin y n g =>
    let lo := min e g
    let p : Int := (m * 2 ^ (e - lo).toNat : Nat)
    let q : Int := (n * 2 ^ (g - lo).toNat : Nat)
    let t := (if x then -p else p) + (if y then -q else q)
    if t = 0 then (FVal.fin (x && y) 0 0).encode 1
    else (FVal.fin (decide (t < 0)) t.natAbs lo).encode 1

/-- The order of fp32 patterns that are not NaN, with -0 below +0. -/
def f32Key (b : Nat) : Int := if natBit b 31 then -(b % 2 ^ 31 : Nat) - 1 else (b % 2 ^ 31 : Nat)

/-- Is a pattern an fp32 NaN. -/
def f32Nan (b : Nat) : Bool := 0x7F800000 < b % 2 ^ 31

/-- The lesser or greater of two fp32 values. -/
def f32Pick (greater : Bool) (a b : Nat) : Nat :=
  if f32Nan a || f32Nan b then 0x7FC00000
  else if (f32Key a ≤ f32Key b) = greater then b else a

/-- ⊕ of two accumulator lanes (R295). -/
def hobOp (dtype op a b : Nat) : Nat :=
  if dtype = 0 then
    match op with
    | 0 => (a + b) % 2 ^ 32
    | 1 => if signed 32 a ≤ signed 32 b then a else b
    | 2 => if signed 32 a ≤ signed 32 b then b else a
    | 3 => a &&& b
    | 4 => a ||| b
    | _ => a ^^^ b
  else
    match op with
    | 0 => f32Add a b
    | 1 => f32Pick false a b
    | _ => f32Pick true a b

/-- Bytes of an element. -/
def elemSize (dtype : Nat) : Nat := if dtype ≤ 1 then 4 else if dtype ≤ 3 then 2 else 1

/-- Is a type block-scaled. -/
def blockScaled (dtype : Nat) : Bool := dtype == 6 || dtype == 7

/-- Bytes of a payload of `n` elements, before padding and after (R300). -/
def rawLen (dtype n : Nat) : Nat := n * elemSize dtype + (if blockScaled dtype then n / 32 else 0)
def payloadLen (dtype n : Nat) : Nat := ceilDiv (rawLen dtype n) 4 * 4

/-- Element `i` of a block-scaled payload of `n` elements: element × 2^(s - 127), where 0xFF in s marks NaN (R296). -/
def scaledVal (dtype s b : Nat) : Nat :=
  if s = 0xFF then 0x7FC00000
  else
    match (fmtOf dtype).decode b with
    | .nan => 0x7FC00000
    | .inf neg => (FVal.inf neg).encode 1
    | .fin neg mag exp =>
      let v := (FVal.fin neg mag (exp + s - 127)).encode 1
      if v % 2 ^ 31 = 0x7F800000 then Config.scaleOver s b % 2 ^ 32 else v

/-- Element `i` of a payload of `n` elements widened to an accumulator lane. -/
def widen (wtype n i : Nat) (p : List Byte) : Nat :=
  if wtype = 0 then fieldAt p (4 * i) 4
  else if wtype = 1 then
    let b := fieldAt p (4 * i) 4
    if f32Nan b then 0x7FC00000 else b
  else if blockScaled wtype then scaledVal wtype (fieldAt p (i / 32) 1) (fieldAt p (n / 32 + i) 1)
  else ((fmtOf wtype).decode (fieldAt p (elemSize wtype * i) (elemSize wtype))).encode 1

/-- The floor of log2 of a magnitude; an infinity is above every finite value. -/
def FVal.log2 : FVal → Int
  | .fin _ mag exp => (Nat.log2 mag : Nat) + exp
  | _ => 1000

/-- Is a value zero. -/
def FVal.isZero : FVal → Bool
  | .fin _ mag _ => mag == 0
  | _ => false

/-- Scale a value by 2^k. -/
def FVal.scale (v : FVal) (k : Int) : FVal :=
  match v with
  | .fin neg mag exp => .fin neg mag (exp + k)
  | v => v

/-- An output block (R296): its scale byte and its elements. -/
def quantBlock (dtype : Nat) (vs : List Nat) : Nat × List Nat :=
  if vs.any f32Nan then (0xFF, vs.map (fun _ => 0))
  else
    let xs := (vs.map f32).filter (fun v => !v.isZero)
    let emax : Int := if dtype = 6 then 8 else 15
    let s : Int := match xs with
      | [] => 127
      | x :: t => max 0 (min (t.foldl (fun a v => max a v.log2) x.log2 - emax + 127) 254)
    (s.toNat, vs.map (fun v => ((f32 v).scale (127 - s)).encode dtype))

/-- A list cut into pieces of `k`. -/
def cutInto (k : Nat) : Nat → List Nat → List (List Nat)
  | 0, _ => []
  | _, [] => []
  | n + 1, l => l.take k :: cutInto k n (l.drop k)

/-- Accumulator lanes converted to bytes of a type by CVT (R294). -/
def cvtBytes (dtype : Nat) (acc : List Nat) : List Byte :=
  acc.foldl (fun a v => a ++ natBytes (elemSize dtype) (if dtype = 0 then v else (f32 v).encode dtype)) []

/-- Scale bytes and element bytes of lanes by BSQ. -/
def bsqBytes (dtype : Nat) (acc : List Nat) : List Byte × List Byte :=
  let bs := (cutInto 32 (acc.length / 32 + 1) acc).map (quantBlock dtype)
  (bs.map (fun b => BitVec.ofNat 8 b.1), (bs.foldl (fun a b => a ++ b.2) []).map (BitVec.ofNat 8))

/-- A 16 × 16 tile of bf16 patterns transposed and block-scaled by BSXT: 8 scale bytes, then 256 elements (R308). -/
def bsxtBytes (dtype : Nat) (tile : List Nat) : List Byte :=
  let t := (List.range 256).map (fun i => tile.getD (16 * (i % 16) + i / 16) 0)
  let r := bsqBytes dtype (t.map (fun b => ((fmtOf 2).decode b).encode 1))
  r.1 ++ r.2

/-- Zero bytes up to a multiple of 4. -/
def pad4 (b : List Byte) : List Byte := b ++ List.replicate (ceilDiv b.length 4 * 4 - b.length) 0

end Sys2Proof.Machine
end

