-- ==== Sys2Proof/Machine/Emit.lean ====
section
/-! DEFINITION. Copies at the crossing (R60, R241 to R249, R263), and frames that the chip enqueues itself (R196): those of Stoker and of
the Hob engines. -/

namespace Sys2Proof.Machine

/-- A copy is refused admission and dropped at the crossing (R247). -/
def State.admitDrop (s : State) (x : Copy) : State :=
  ((s.count C_TM_Q_ADMIT_DROP 1 x.port x.queue).ev 0x022 (sliceOf x.port) (tagCls x.tag)).hdrmOvf x

/-- May a copy for a port and queue cross: the port is UP for the traffic manager, and no drain holds the queue. -/
def State.crosses (s : State) (p q : Nat) : Bool := s.portUp p && !s.queueHeld p q

/-- Bytes of a frame as the cells of its block hold them: C and 192 bytes in the first cell, 256 in each further one (R146, R224). -/
def cellsOf (c bytes : List Byte) : List (List Byte) :=
  bytesAt c 0 64 ++ bytes.take 192 |> fun first => first :: chunks (bytes.drop 192) (bytes.length / 256 + 1)
where
  /-- A byte string cut into pieces of 256 bytes. -/
  chunks : List Byte → Nat → List (List Byte)
    | _, 0 => []
    | [], _ => []
    | l, n + 1 => l.take 256 :: chunks (l.drop 256) n

/-- Put the cells of a block into writer `w`'s queue, from cell number `i` on. -/
def State.writeCells (s : State) (w : Nat) (cells : List Nat) : Nat → List (List Byte) → State
  | _, [] => s
  | i, d :: t => State.writeCells (s.writeCell w (cells.getD i 0) d) w cells (i + 1) t

/-! ### The cells of a frame (R146, R217, R233) -/

/-- Cells of a frame's block that are complete: all of them once the frame has ended, else those that its bytes fill. -/
def Frame.fullCells (x : Frame) : Nat :=
  if x.fate = .open then (64 + x.bytes.length) / 256 else ceilDiv (64 + x.bytes.length) 256

/-- Put a frame's complete cells that are not with its writer queue yet there, as far as the queue has room (R217). -/
def State.pushCells (s : State) (f : Nat) : State :=
  let x := s.frame f
  match x.block with
  | none => s
  | some a =>
    let cells := (s.fwd.blocks.get a).cells
    let n := min (min x.fullCells cells.length - x.written) (256 - (s.fwd.writers.get x.writer).length)
    let ds := ((cellsOf (regionC x.record) x.bytes).drop x.written).take n
    (s.writeCells x.writer cells x.written ds).setFrame f { x with written := x.written + ds.length }

/-- A frame's cells are written into its block from the first on: its first enqueue, or that of a later pass (R225). -/
def State.writeFrame (s : State) (f : Nat) : State := (s.setFrame f { s.frame f with written := 0 }).pushCells f

/-- Cells charged for a block granted for `n` bytes (R241). -/
def State.chargeFor (s : State) (a n : Nat) : Nat :=
  if s.f POOL_STAT_STATE = poolBlock then (s.fwd.blocks.get a).cells.length else poolCells (poolFor n)

/-- The region C of a frame that the chip originates: T0, the generation, IN_PORT (the egress port for a frame of Stoker, R398, else 0),
and its place in EG_PORT and QUEUE. -/
def originC (t0 gen inPort port queue : Nat) : List Byte :=
  let c := freshC t0 gen inPort
  putBytes (putBytes c (cEgPort - cT0) (natBytes 2 (0x8000 + port))) (cQueue - cT0) (natBytes 1 queue)

/-- How an originated frame fares at the crossing: enqueued; refused admission; dropped because its port or queue is closed; refused for a full
writer queue. -/
inductive Crossing where
  | enqueued | refused | closed | full
deriving DecidableEq, Repr

/-- Enqueue a whole frame in block `a` as a frame of R196, lossy under R242; `w` is the writer of its cells.  A frame that does not
cross, or is refused, releases its block; the caller counts a refused admission. -/
def State.originate (s : State) (bytes : List Byte) (port queue a w : Nat) (fromStk : Bool) : State × Crossing :=
  let b := s.fwd.blocks.get a
  let rel := fun (s : State) => s.release a b.tag (w % 64) s.fwd.epoch
  let f := s.fwd.nextFrame
  let region := originC s.nt (s.f GEN_ACTIVE_NUM) (if fromStk then port else 0) port queue
  let x : Copy := { frame := f, port := port, queue := queue, gen := s.f GEN_ACTIVE_NUM, slot := s.active, region := region
                    block := some a, tag := b.tag, epoch := s.fwd.epoch
                    charge := s.chargeFor a (64 + bytes.length), t0cc := s.cc, len := bytes.length, lenKnown := true, ended := true
                    fromStk := fromStk, out := bytes }
  let y : Frame := { stage := .done, fate := .good, gen := x.gen, slot := x.slot, t0cc := s.cc, bytes := bytes, len := bytes.length
                     record := List.replicate cT0 0 ++ region, block := some a, epoch := s.fwd.epoch, tag := b.tag, writer := w }
  if !s.crosses port queue then (rel (s.crossDrop port queue (tagCls b.tag)), .closed)
  else if !s.writerRoom w then (rel (s.count C_BUF_WQ_DROP), .full)
  else if !s.admits x then (rel s, .refused)
  else
    let c := s.fwd.nextCopy
    let s := { s with fwd := { s.fwd with nextCopy := c + 1, nextFrame := f + 1 } }
    let s := ((s.setFrame f y).pushCells f).tidyFrame f
    ((s.infl s.active 1).enqueueCopy c x, .enqueued)

/-! ### Read-ahead (R41, R100) -/

/-- Cells of a copy that can be read: those of its bytes that are with a writer queue or written. -/
def State.readable (s : State) (x : Copy) : Nat :=
  match x.block with
  | none => 0
  | some a =>
    let n := (s.fwd.blocks.get a).cells.length
    let n := if x.ended then min n (ceilDiv (64 + x.len) 256) else n
    let y := s.frame x.frame
    if y.block = some a && y.epoch == x.epoch then min n y.written else n

/-- Where cell `k` of a copy begins in the frame as sent. -/
def Copy.cellPos (x : Copy) (k : Nat) : Nat := if k = 0 then 0 else x.out.length + 256 * (k - 1)

/-- The cc in which cell `k` of a copy that is being sent starts to transmit. -/
def State.cellAt (s : State) (x : Copy) (k : Nat) : Nat :=
  let r := s.portRate x.port false
  x.start + (if r = 0 ∨ k = 0 then 0 else 1200 * (x.cellPos k + 8) / r)

/-- Cells of a copy that have started to transmit by this cc. -/
def State.cellsBegun (s : State) (x : Copy) : Nat :=
  if x.state = .sending then ((List.range 64).takeWhile (fun k => s.cellAt x k ≤ s.cc)).length else 0

/-- The reads that the egress MAC asks for in this cc: after the first cell the next ones up to 8 + k (R100), and cell i + 8 + k when cell i
starts to transmit (R41). -/
def State.askMore (s : State) (c : Nat) : State :=
  let x := s.copy c
  if (x.state = .dequeued || x.state = .piped || x.state = .sending) && x.got.get 0 != [] then
    let want := min (s.readable x) (8 + x.kct + s.cellsBegun x)
    let s := (List.range (want - x.asked)).foldl (fun s i => s.askCell c (x.asked + i)) s
    s.setCopy c { x with asked := max x.asked want }
  else s

end Sys2Proof.Machine
end

