-- ==== Sys2Proof/Machine/HobFrames.lean ====
section
/-! DEFINITION. The contexts of the Hob engines with their descriptors and neighbour entries, and the frames that they emit (R297, R299, R302, R306,
R316, R317, R320). -/

namespace Sys2Proof.Machine

/-! ### Contexts and their descriptors (R297, R320) -/

/-- A context. -/
def State.hctx (s : State) (x : Nat) : HobCtx := s.hob.ctx.get x

/-- Give a context its new state. -/
def State.setHctx (s : State) (x : Nat) (c : HobCtx) : State := { s with hob := { s.hob with ctx := s.hob.ctx.set x c } }

/-- Bits of a descriptor word. -/
def HobCtx.d (c : HobCtx) (w lsb n : Nat) : Nat := wordBits (c.desc.getD w 0) lsb n

/-- The fields of a descriptor (R320). -/
def HobCtx.root (c : HobCtx) : Bool := c.d 0 31 1 == 1
def HobCtx.accWire (c : HobCtx) : Bool := c.d 0 30 1 == 1
def HobCtx.outXpose (c : HobCtx) : Bool := c.d 0 29 1 == 1
def HobCtx.dtype (c : HobCtx) : Nat := c.d 0 20 4
def HobCtx.op (c : HobCtx) : Nat := c.d 0 16 4
def HobCtx.window (c : HobCtx) : Nat := c.d 0 12 4 + 1
def HobCtx.stepElems (c : HobCtx) : Nat := c.d 0 0 12
def HobCtx.collId (c : HobCtx) : Nat := c.d 1 0 32
def HobCtx.firstStep (c : HobCtx) : Nat := c.d 2 0 32
def HobCtx.nsteps (c : HobCtx) : Nat := c.d 3 0 32
def HobCtx.expMap (c : HobCtx) : Nat := c.d 4 0 32 + c.d 5 0 32 * 2 ^ 32
def HobCtx.downMap (c : HobCtx) : Nat := c.d 6 0 32 + c.d 7 0 32 * 2 ^ 32
def HobCtx.myChild (c : HobCtx) : Nat := c.d 8 26 6
def HobCtx.nbrBase (c : HobCtx) : Nat := c.d 8 0 14
def HobCtx.stepTmo (c : HobCtx) : Nat := c.d 9 16 16
def HobCtx.phase (c : HobCtx) : Nat := c.d 9 0 6
def HobCtx.lastElems (c : HobCtx) : Nat := c.d 10 17 12
def HobCtx.expectEp (c : HobCtx) : Nat := c.d 10 0 17
def HobCtx.jobTag (c : HobCtx) : Nat := c.d 11 0 32

/-- The set bits of a 64-bit map, ascending. -/
def bits64 (m : Nat) : List Nat := (List.range 64).filter (natBit m)

/-- The children of EXP_MAP in ascending order. -/
def HobCtx.children (c : HobCtx) : List Nat := bits64 c.expMap

/-- Elements of a step (R302). -/
def HobCtx.elemsOf (c : HobCtx) (num : Nat) : Nat :=
  if (num + 2 ^ 32 - c.firstStep) % 2 ^ 32 + 1 = c.nsteps ∧ c.lastElems ≠ 0 then c.lastElems else c.stepElems

/-- The step with a number. -/
def HobCtx.stepOf (c : HobCtx) (num : Nat) : Option HobStep := c.steps.find? (fun t => t.num == num)

/-- Replace a step. -/
def HobCtx.putStep (c : HobCtx) (t : HobStep) : HobCtx := { c with steps := c.steps.map (fun u => if u.num = t.num then t else u) }

/-- Open a step, keeping the steps in ascending order of their distance from FIRST_STEP. -/
def HobCtx.openStep (c : HobCtx) (t : HobStep) : HobCtx :=
  let d := fun (u : HobStep) => (u.num + 2 ^ 32 - c.firstStep) % 2 ^ 32
  { c with steps := c.steps.filter (fun u => d u < d t) ++ t :: c.steps.filter (fun u => d t < d u)
           out := c.out ++ [{ kind := 4, step := t.num }] }

/-- The PACE last received from a neighbour: 32 until one is (R316). -/
def HobCtx.paceOf (c : HobCtx) (n : Nat) : Nat := if c.pace.get n = 0 then 32 else c.pace.get n

/-- PACE_out (R316). -/
def State.paceOut (s : State) (x : Nat) : Nat :=
  let c := s.hctx x
  ((bits64 (c.expMap ||| c.downMap)).map (fun i => c.paceOf (i + 1))).foldl min (min (s.f HOB_ENG_STAT_DAMPER (x % 32)) (c.paceOf 0))

/-- W_eff (R317). -/
def State.weff (s : State) (x : Nat) : Nat := max 1 ((s.hctx x).window * s.paceOut x / 32)

/-- Is the home engine of a context halted by the safe state (R314). -/
def State.hobHalted (s : State) (x : Nat) : Bool := s.on HOB_ENG_STAT_HALTED (x % 32)

/-- Missing children of NEXT: those of EXP_MAP not yet accepted. -/
def HobCtx.missingNow (c : HobCtx) : Nat :=
  match c.stepOf c.next with
  | some t => c.expMap &&& (c.expMap ^^^ t.bitmap)
  | none => c.expMap

/-- A neighbour entry (R306): its word 0 fields and its template bytes. -/
def State.nbrWord (s : State) (e w : Nat) : Word := (s.hob.nbr.get e).getD w 0
def State.nbrPort (s : State) (e : Nat) : Nat := wordBits (s.nbrWord e 0) 20 9
def State.nbrQueue (s : State) (e : Nat) : Nat := wordBits (s.nbrWord e 0) 16 4
def State.nbrTemplate (s : State) (e : Nat) : List Byte :=
  (((List.range 30).foldl (fun a i => a ++ natBytes 4 (s.nbrWord e (i + 1)).toNat) []).take (wordBits (s.nbrWord e 0) 0 7))

/-! ### Emitted frames (R299, R306) -/

/-- The big-endian 16-bit words of a byte string, an odd last byte being padded with 0. -/
def inetWords : List Byte → List Nat
  | [] => []
  | [x] => [x.toNat * 256]
  | x :: y :: t => (x.toNat * 256 + y.toNat) :: inetWords t

/-- The Internet checksum over bytes. -/
def inetSum (bs : List Byte) : Nat := 65535 - onesSum (inetWords bs)

/-- The Hob header of a frame (R299). -/
def hobHeader (c : HobCtx) (pace chip child : Nat) (o : HobOut) : List Byte :=
  natBytes 4 (2 ^ 28 + o.kind * 2 ^ 24 + c.dtype * 2 ^ 20 + o.wtype * 2 ^ 16 + c.op * 2 ^ 12 + pace * 64 + child) ++
  natBytes 4 c.collId ++ natBytes 4 o.step ++ natBytes 4 (chip * 65536 + o.epc / 2 % 65536) ++
  natBytes 4 (o.epc % 2 * 2 ^ 31 + o.cause * 2 ^ 28 + o.elems * 2 ^ 16) ++ natBytes 4 0 ++ natBytes 4 c.jobTag ++
  natBytes 4 (if o.payload = [] then 0 else crc32c o.payload)

/-- Fill the lengths and checksums of a template whose UDP payload follows (R306). -/
def fillTemplate (v6 cs0 : Bool) (tpl body : List Byte) : List Byte :=
  let udp := tpl.length - 8
  let ulen := 8 + body.length
  let t := putBytes tpl (udp + 4) (natBytes 2 ulen)
  let t := putBytes t (udp + 6) [0, 0]
  let sum := fun (addr : List Byte) =>
    let c := inetSum (addr ++ natBytes 4 ulen ++ natBytes 4 17 ++ t.drop udp ++ body)
    if c = 0 then 65535 else c
  if v6 then
    let ip := udp - 40
    let t := putBytes t (ip + 4) (natBytes 2 ulen)
    putBytes t (udp + 6) (natBytes 2 (sum (bytesAt t (ip + 8) 32)))
  else
    let ip := udp - 20
    let t := putBytes (putBytes t (ip + 2) (natBytes 2 (20 + ulen))) (ip + 10) [0, 0]
    let t := putBytes t (ip + 10) (natBytes 2 (inetSum (bytesAt t ip 20)))
    putBytes t (udp + 6) (natBytes 2 (if cs0 then 0 else sum (bytesAt t (ip + 12) 8)))

/-- A frame of a context, with four bytes for the FCS. -/
def State.hobFrame (s : State) (x : Nat) (o : HobOut) : List Byte :=
  let c := s.hctx x
  let e := c.nbrBase + o.to_
  let child := if o.to_ = 0 then c.myChild else o.to_ - 1
  let body := hobHeader c (s.paceOut x) (s.ca DOM_CHIP_CHIP_ID) child o ++ o.payload
  fillTemplate (wordBits (s.nbrWord e 0) 30 1 == 1) (wordBits (s.nbrWord e 0) 29 1 == 1) (s.nbrTemplate e) body ++ body ++ [0, 0, 0, 0]

/-- Bytes for which an entry of the list asks for a block. -/
def State.hobNeed (s : State) (x : Nat) (o : HobOut) : Nat :=
  if o.kind = 4 then max 1 (4 * (s.hctx x).stepElems) else 64 + (s.hobFrame x o).length

/-- Is there room in the engine's writer queue for a frame of `n` bytes (R217, R310). -/
def State.hobRoom (s : State) (x n : Nat) : Bool := (s.fwd.writers.get (32 + x % 32)).length + ceilDiv n 256 ≤ 256

end Sys2Proof.Machine
end

