-- ==== Sys2Proof/Machine/Requests.lean ====
section
/-! DEFINITION. Who asks the pool manager for a block in a cc, for how many bytes and in which order (R30, R183, R224 to R227): frames at their
enqueue, Hob engines, and the slices for their postcards. -/

namespace Sys2Proof.Machine

/-! ### Disposition (R183) -/

/-- Where the disposition sends a frame. -/
inductive Dest where
  | drop (reason : Nat)
  | recirc
  | hob (ctx : Nat)
  | mcast (group queue : Nat)
  | unicast (port queue : Nat)
deriving DecidableEq

/-- The first case of R183 that applies, after a drop by the chip. -/
def Frame.dest (x : Frame) : Dest :=
  let d := fieldAt x.record cDisp 1
  let q := fieldAt x.record cQueue 1 % 16
  match x.drop with
  | some r => .drop r
  | none =>
    if natBit d 0 then .drop (fieldAt x.record cDropReason 1)
    else if natBit d 1 then .recirc
    else if natBit d 4 then .hob (fieldAt x.record cHobCtx 2 % 4096)
    else if 12 ≤ q then .drop 0xF1
    else if natBit d 2 then .mcast (fieldAt x.record cMcGroup 2) q
    else if natBit (fieldAt x.record cEgPort 2) 15 then .unicast (fieldAt x.record cEgPort 2 % 512) q
    else .drop 0xF0

/-- The mirror session of a frame, when it makes a copy (R184). -/
def State.mirrorOf (s : State) (x : Frame) : Option Nat :=
  let m := fieldAt x.record cMirror 1
  if natBit (fieldAt x.record cDisp 1) 3 && s.cf x.slot STG_MIR_SESS_EN m == 1 then some m else none

/-- Does a frame make a punt copy (R184). -/
def Frame.punts (x : Frame) : Bool := natBit (fieldAt x.record cDisp 1) 6

/-! ### Where the copies of a frame go (R240, R249) -/

/-- The queue of a multicast copy at an egress port (R240): Q8 to Q11 stay, and a class below enters Q8, or Q9 where MCQ9 says so. -/
def State.mcQueue (s : State) (slot p q : Nat) : Nat := if 8 ≤ q then q else if natBit (s.cf slot TM_PORT_CFG_MCQ9 p) q then 9 else 8

/-- The ports and queues for which a frame makes copies, its mirror copy last. -/
def State.copyTargets (s : State) (x : Frame) (d : Dest) : List (Nat × Nat) :=
  (match d with
    | .mcast g q =>
      let grp := (s.slot x.slot).mc.get g
      ((List.range 512).filter (fun p => natBit grp.map p && !(grp.prune && p == x.inPort))).map (fun p => (p, s.mcQueue x.slot p q))
    | .unicast p q => [(p, q)]
    | _ => []) ++
  (match s.mirrorOf x with
    | some k => [(s.cf x.slot STG_MIR_SESS_PORT k, s.cf x.slot STG_MIR_SESS_QUEUE k)]
    | none => [])

/-- Does a frame wait at its enqueue for its end (R28, R30): threshold step 63, or a copy for a port faster than its own.  DESIGN CHOICE (log 115): a
frame with a store-and-forward copy waits for its end with all its copies, since none that fails its FCS check may reach a queue. -/
def State.waitsForEnd (s : State) (x : Frame) (d : Dest) : Bool :=
  x.kct == 63 || (match d with
    | .recirc => false
    | d => (s.copyTargets x d).any (fun t => s.portRate x.inPort true < s.portRate t.1 false))

/-- Does a frame at its enqueue need a block: it goes on, or copies of it are made.  A frame whose copies all meet closed ports or held queues takes
none (R60; log 116). -/
def State.needsBlock (s : State) (x : Frame) (d : Dest) : Bool :=
  let ts := s.copyTargets x d
  match d with
  | .recirc => true
  | .hob _ => true
  | .drop _ => ts.any (fun t => s.crosses t.1 t.2) || x.punts
  | _ => ts == [] || ts.any (fun t => s.crosses t.1 t.2) || x.punts

/-- Bytes of the block request (R224). -/
def State.requestBytes (s : State) (x : Frame) : Nat :=
  (if x.fate = .open then 64 + s.maxLen x.slot x.inPort + pushedBytes x.edits else 64 + editedLen x.edits x.bytes.length) +
  (if natBit (fieldAt x.record cDisp 1) 1 then 512 else 0)

/-! ### The requests that stand in a cc (R227, R246) -/

/-- Has a frame's last byte crossed in this cc, its end being still to be judged. -/
def Frame.endDue (x : Frame) : Bool := x.fate == .open && x.wire.length ≤ x.len

/-- Is a frame of the pipeline due at its enqueue (R25, R30, R31). -/
def State.enqueueDue (s : State) (x : Frame) : Bool :=
  x.stage == .ingress && !x.control && !x.hello && x.inPort < 512 && x.t0cc + 30 * (1 + x.pass) ≤ s.cc && !x.endDue &&
  (x.fate != .open || !s.waitsForEnd x x.dest)

/-- Is a frame due at a larger pool (R226). -/
def State.fallbackDue (s : State) (x : Frame) : Bool := x.stage == .asking && x.askCc ≤ s.cc

/-- The place of frame `f` among the requests of a cc. -/
def Frame.standing (x : Frame) (f : Nat) : Standing := { req := sliceOf x.inPort % 32, pos := x.pos % 4, num := f }

/-- The place of a context's request. -/
def hobStanding (x : Nat) : Standing := { req := 32 + x % 32, pos := 0, num := x }

/-- The place of a postcard's request. -/
def Postcard.standing (x : Postcard) : Standing := { req := x.slice % 32, pos := postcardPos, num := 0 }

/-- The place of the request of core `k`'s SEND, made for slice `sl` (R398). -/
def sendStanding (k sl : Nat) : Standing := { req := sl % 32, pos := sendPos, num := k }

/-- May a context make its first request in this cc: it is not waiting for a later one, and the engine's writer queue has room for a frame. -/
def State.hobReady (s : State) (x : Nat) (o : HobOut) : Bool := o.tryAt ≤ s.cc && (o.kind == 4 || s.hobRoom x (s.hobNeed x o))

/-- The requests that stand in this cc. -/
def State.standing (s : State) : List Standing :=
  (s.fwd.frames.filter (fun e => s.enqueueDue e.2 || s.fallbackDue e.2)).map (fun e => e.2.standing e.1) ++
  (s.hob.ctx.filter (fun e => match e.2.out with | [] => false | o :: _ => s.hobReady e.1 o)).map (fun e => hobStanding e.1) ++
  (match s.tlm.out with | [] => [] | x :: _ => if x.tryAt ≤ s.cc then [x.standing] else []) ++
  ((List.range 4).filter (fun k => let w := s.stk.sending.get k; w.1 != 0 && w.2.1 ≤ s.cc)).map (fun k => sendStanding k (s.stk.sending.get k).2.2)

/-- Is it the turn of a request: none of those that stand in this cc stands before it (R227, R246). -/
def State.turn (s : State) (r : Standing) : Bool := s.standing.all (fun o => !s.standsBefore o r)

/-! ### Postcards (R362) -/

/-- Whole words as big-endian bytes. -/
def wordsBytes (ws : List Nat) : List Byte := ws.foldl (fun a w => a ++ natBytes 4 w) []

/-- A postcard's frame with four bytes for the FCS (R362). -/
def State.postcardFrame (s : State) (x : Postcard) : List Byte :=
  let tpl := ((List.range 30).foldl (fun a i => a ++ natBytes 4 (s.rget TLM_COLL x.coll i).toNat) []).take (s.f TLM_COLL0_HLEN x.coll)
  let body := wordsBytes [2 ^ 28 + x.type * 2 ^ 24 + x.count * 2 ^ 16 + s.ca DOM_CHIP_CHIP_ID, s.ca DOM_ID_DOMAIN_ID,
    s.tlm.pseq.get (4 * x.slice + x.coll), x.epoch] ++ x.body
  fillTemplate (s.f TLM_COLL0_IPV6 x.coll == 1) (s.f TLM_COLL0_UDPCS0 x.coll == 1) tpl body ++ body ++ [0, 0, 0, 0]

end Sys2Proof.Machine
end

