-- ==== Sys2Proof/Machine/Hob.lean ====
section
/-! DEFINITION. The Hob engines: intake, steps, the engine operations, emitted frames, aborts and the context port (R293 to R321), and
the pool manager's REBUILD, which aborts every collective (R235). -/

namespace Sys2Proof.Machine

/-! ### Emitted frames and block requests (R306, R309, R310) -/

/-- Take a frame's granted block and enqueue it (R306); a refusal at the queue is HOB_EMIT_DROP. -/
def State.hobEmit (s : State) (x a : Nat) (o : HobOut) : State :=
  let e := (s.hctx x).nbrBase + o.to_
  let p := s.nbrPort e
  let q := s.nbrQueue e
  let s := s.setTag a (sliceTag (tagClass q) (sliceOf p))
  match s.originate (s.hobFrame x o) p q a (32 + x % 32) false with
  | (s, .refused) => s.count C_HOB_EMIT_DROP
  | (s, _) => s

/-- Make the first request of a context (R309, R310), each retry after a refusal being counted, but not its steps to larger pools; answers
whether the next may be made in this cc. -/
def State.hobAsk (s : State) (x : Nat) (cells : List Nat) (o : HobOut) (rest : List HobOut) : State × Bool :=
  let n := s.hobNeed x o
  let want := poolFor n
  let put := fun (s : State) (l : List HobOut) => s.setHctx x { s.hctx x with out := l }
  match (if o.refused && o.pool.isNone then s.count C_HOB_POOL_WAIT else s).request want (o.pool.getD want) n (hobTag (x % 32)) cells with
  | (s, .granted) =>
    let a := cells.headD 0
    let s := put s rest
    if o.kind = 4 then
      let c := s.hctx x
      match c.stepOf o.step with
      | some t => (s.setHctx x (c.putStep { t with acc := some (a, s.fwd.epoch) }), true)
      | none => (s.release a (hobTag (x % 32)) (32 + x % 32) s.fwd.epoch, true)
    else (s.hobEmit x a o, true)
  | (s, .fallback) => (put s ({ o with pool := some (o.pool.getD want + 1), tryAt := s.cc + 1 } :: rest), false)
  | (s, .refused) => (put s ({ o with pool := none, tryAt := s.cc + 64, refused := true } :: rest), false)
  | (_, .noOccasion) => (s, false)

/-- Make the requests of a context in order, with the blocks that the pool manager hands out, until one is not granted, the writer queue has no
room, or another request of the cc stands before it (R227). -/
def State.hobPump (s : State) (x : Nat) : List (List Nat) → State
  | [] => s
  | cells :: more =>
    match (s.hctx x).out with
    | [] => s
    | o :: rest =>
      if !s.hobReady x o || !s.turn (hobStanding x) then s
      else
        match s.hobAsk x cells o rest with
        | (s, true) => s.hobPump x more
        | (s, false) => s

/-! ### Completion (R304, R312) -/

/-- Release contributions, each with the tag under which the engine received it. -/
def State.freeOps (s : State) (x : Nat) (os : List HobOperand) : State :=
  os.foldl (fun s o => s.release o.block o.tag (32 + x % 32) o.epoch) s

/-- Release a step's blocks: its accumulator block and the contributions not yet released. -/
def State.freeStep (s : State) (x : Nat) (t : HobStep) : State :=
  let s := s.freeOps x (t.ops.filter (fun o => !o.freed))
  match t.acc with
  | some (a, ep) => s.release a (hobTag (x % 32)) (32 + x % 32) ep
  | none => s

/-- NEXT moves past every complete step. -/
def HobCtx.advance (c : HobCtx) : Nat → HobCtx
  | 0 => c
  | n + 1 =>
    match c.stepOf c.next with
    | some t => if t.phase = .retained then HobCtx.advance { c with next := (c.next + 1) % 2 ^ 32 } n else c
    | none => c

/-- A step in DOWN whose downward frames are all emitted completes; step - WINDOW is released; the last makes the context DONE. -/
def State.completeStep (s : State) (x : Nat) (t : HobStep) : State :=
  let c := s.hctx x
  let old := (t.num + 2 ^ 32 - c.window) % 2 ^ 32
  let s := match c.steps.find? (fun u => u.num == old && u.phase == .retained) with
    | some u => s.freeStep x u
    | none => s
  let kept := (c.putStep { t with phase := .retained }).steps.filter (fun (u : HobStep) => !(u.num == old && u.phase == .retained))
  let c := { c with steps := kept
                    done := c.done + 1 }
  let s := ((s.setHctx x (c.advance 32)).count C_HOB_STEPS).ev 0x042 (x % 32)
  if (s.hctx x).done = c.nsteps then
    let s := s.setHctx x { s.hctx x with st := 2 }
    let s := (s.flag HOB_EVT_CTX_DONE).setF HOB_EVT_LAST_CTX x
    (s.setF HOB_ENG_STAT_ACTIVE (s.f HOB_ENG_STAT_ACTIVE (x % 32) - 1) (x % 32)).irq 8
  else s

/-- Complete the steps in DOWN for which nothing waits any more. -/
def State.hobSettle (s : State) (x : Nat) : State :=
  ((s.hctx x).steps.filter (fun t => t.phase == .down)).foldl (fun s t =>
    let c := s.hctx x
    if c.st = 1 && !c.out.any (fun o => o.step == t.num && o.kind != 0) then
      match c.stepOf t.num with
      | some t => s.completeStep x t
      | none => s
    else s) s

/-- Make requests and settle what they complete. -/
def State.hobRun (s : State) (x : Nat) (blocks : List (List Nat)) : State := (s.hobPump x blocks).hobSettle x

/-! ### Abort (R313, R314) -/

/-- ABORT frames to the parent and the children of the maps, but for neighbour `but`. -/
def HobCtx.abortFrames (c : HobCtx) (cause : Nat) (but : Option Nat) : List HobOut :=
  (((if c.root then [] else [0]) ++ (bits64 (c.expMap ||| c.downMap)).map (· + 1)).filter (fun n => but ≠ some n)).map
    (fun n => { kind := 3, to_ := n, step := c.next, wtype := c.dtype, cause := cause })

/-- The lowest set bit of a map, 0 when it is empty. -/
def lowBit (m : Nat) : Nat := (bits64 m).headD 0

/-- A context aborts with a cause; `but` is the neighbour whose ABORT caused it. -/
def State.hobAbort (s : State) (x cause : Nat) (but : Option Nat := none) : State :=
  let c := s.hctx x
  let sends := cause ≤ 4 || cause == 7
  let s := if cause = 5 || cause = 6 then s else c.steps.foldl (fun s t => s.freeStep x t) s
  let s := s.setHctx x { c with st := 3, cause := cause, missing := c.missingNow
                                steps := if cause = 6 then c.steps else []
                                out := if sends then c.abortFrames cause but else [] }
  let s := { s with fwd := { s.fwd with reads := s.fwd.reads.filter (fun r => !(32 ≤ r.reader && r.ctx == x)) } }
  let s := ((s.setF HOB_ABORT_INFO_CAUSE cause).setF HOB_ABORT_INFO_CHILD (lowBit c.missingNow)).setF HOB_ABORT_INFO_CTX x
  let s := ((s.flag HOB_EVT_ABORTED).setF HOB_EVT_LAST_CTX x).count C_HOB_ABORTS
  let s := (s.setF HOB_ENG_STAT_ACTIVE (s.f HOB_ENG_STAT_ACTIVE (x % 32) - 1) (x % 32)).irq 8
  if cause = 1 || cause = 4 || cause = 7 then s.raise 12 1 cause x else if cause = 2 then s.raise 12 0 2 x else s

/-- The ACTIVE contexts. -/
def State.hobActive (s : State) : List Nat := (s.hob.ctx.filter (fun e => e.2.st == 1)).map (·.1)

/-! ### Frames at the engine (R301 to R303) -/

/-- The offset of the UDP payload of a Hob frame and its UDP length (R299): Ethernet with optional tags, IPv4 or IPv6, UDP. -/
def hobLocate (b : List Byte) : Option (Nat × Nat) :=
  let t := skipTags b 4 12
  let ip := t + 2
  let udp := fun (o : Nat) => if fieldAt b (o + 2) 2 = 45232 then some (o + 8, fieldAt b (o + 4) 2) else none
  if fieldAt b t 2 = 0x0800 ∧ fieldAt b (ip + 9) 1 = 17 ∧ 0x45 ≤ fieldAt b ip 1 ∧ fieldAt b ip 1 < 0x50 then
    udp (ip + 4 * (fieldAt b ip 1 % 16))
  else if fieldAt b t 2 = 0x86DD ∧ fieldAt b (ip + 6) 1 = 17 then udp (ip + 40)
  else none
where
  /-- The offset of the Ethertype behind the VLAN tags. -/
  skipTags (b : List Byte) : Nat → Nat → Nat
    | 0, o => o
    | n + 1, o => if fieldAt b o 2 = 0x8100 ∨ fieldAt b o 2 = 0x88A8 then skipTags b n (o + 4) else o

/-- A received Hob header (R299). -/
structure HobHdr where
  off : Nat
  ulen : Nat
  w : List Nat

/-- Read the header of a frame. -/
def hobRead (b : List Byte) : Option HobHdr :=
  (hobLocate b).map (fun x => { off := x.1, ulen := x.2, w := (List.range 8).map (fun i => fieldAt b (x.1 + 4 * i) 4) })

def HobHdr.bits (h : HobHdr) (i lsb n : Nat) : Nat := natBits (h.w.getD i 0) lsb n
def HobHdr.type (h : HobHdr) : Nat := h.bits 0 24 4
def HobHdr.wtype (h : HobHdr) : Nat := h.bits 0 16 4
def HobHdr.pace (h : HobHdr) : Nat := h.bits 0 6 6
def HobHdr.child (h : HobHdr) : Nat := h.bits 0 0 6
def HobHdr.step (h : HobHdr) : Nat := h.bits 2 0 32
def HobHdr.epc (h : HobHdr) : Nat := h.bits 3 0 16 * 2 + h.bits 4 31 1
def HobHdr.elems (h : HobHdr) : Nat := h.bits 4 16 12

/-- The payload of a frame with header `h`. -/
def HobHdr.payload (h : HobHdr) (b : List Byte) : List Byte := bytesAt b (h.off + 32) (payloadLen h.wtype h.elems)

/-- R302: does a header fit its context.  ACK and ABORT carry no payload, so their ELEMS is 0. -/
def HobHdr.fits (h : HobHdr) (c : HobCtx) : Bool :=
  h.bits 0 28 4 == 1 && h.type < 4 && h.bits 0 20 4 == c.dtype && h.bits 0 12 4 == c.op && h.bits 1 0 32 == c.collId &&
  (h.wtype == c.dtype || (h.type == 0 && h.wtype == 1 && c.dtype != 0 && h.bits 3 16 16 != 0xFFFF)) &&
  (h.type != 0 || natBit c.expMap h.child) && (h.type == 0 || h.type == 3 || !c.root) &&
  h.elems == (if h.type ≤ 1 then c.elemsOf h.step else 0) && h.ulen == 40 + payloadLen h.wtype h.elems

/-- Take a frame off intake: it is handed to the engine (R197), and is forgotten. -/
def State.hobTake (s : State) (i : HobIntake) : State :=
  let x := s.frame i.frame
  let s := { s with hob := { s.hob with intake := s.hob.intake.filter (· ≠ i) } }
  (s.infl x.slot (-1)).setFrame i.frame {}

/-- Release the block of a frame that the engine drops or has copied. -/
def State.hobRel (s : State) (x : Nat) (f : Frame) : State :=
  match f.block with
  | some a => s.release a f.tag (32 + x % 32) f.epoch
  | none => s

/-- The PACE of a valid header is stored for its sender (R316). -/
def HobCtx.storePace (c : HobCtx) (n pace : Nat) : HobCtx := { c with pace := c.pace.set n (max 1 (min pace 32)) }

/-- Send a complete step's answer again to one child (R303). -/
def HobCtx.answer (c : HobCtx) (t : HobStep) (i : Nat) : HobOut :=
  if natBit c.downMap i then
    { kind := 1, to_ := i + 1, step := t.num, payload := t.payload, epc := t.epc, wtype := c.dtype, elems := c.elemsOf t.num }
  else { kind := 2, to_ := i + 1, step := t.num, epc := t.epc, wtype := c.dtype }

/-- The frame's payload becomes an operand of a step (R309), whose cells the engine asks for (R311). -/
def State.hobOperand (s : State) (x : Nat) (h : HobHdr) (f : Frame) (t : HobStep) : State :=
  let c := s.hctx x
  let a := f.block.getD 0
  let o : HobOperand := { child := h.child, block := a, tag := f.tag, epoch := f.epoch, off := 64 + h.off + 32, len := payloadLen h.wtype h.elems
                          wtype := h.wtype, epc := h.epc }
  let bm := t.bitmap ||| 2 ^ h.child
  let t := { t with bitmap := bm, ops := t.ops ++ [o], phase := if bm = c.expMap then .combine else .collect }
  let s := s.setHctx x (c.putStep t)
  let cells := (s.fwd.blocks.get a).cells
  let idx := (List.range 64).filter (fun i => o.off < 256 * (i + 1) && 256 * i < o.off + o.len)
  { s with fwd := { s.fwd with reads := s.fwd.reads ++ idx.map (fun i =>
      { reader := 32 + x % 32, cell := cells.getD i 0, idx := i, ctx := x, step := t.num, child := h.child }) } }

/-- R303: settle a valid CONTRIB. -/
def State.settleContrib (s : State) (x : Nat) (h : HobHdr) (f : Frame) : State :=
  let c := s.hctx x
  let d := (h.step + 2 ^ 32 - c.next) % 2 ^ 32
  let before := 2 ^ 31 ≤ d
  match c.stepOf h.step with
  | some t =>
    if t.phase = .retained then
      ((s.hobRel x f).setHctx x { c with out := c.out ++ [c.answer t h.child] }).count C_HOB_RESEND
    else if natBit t.bitmap h.child then (s.hobRel x f).count C_HOB_DUP
    else s.hobOperand x h f t
  | none =>
    if before then (s.hobRel x f).count C_HOB_DUP
    else if c.window ≤ d || c.nsteps ≤ (h.step + 2 ^ 32 - c.firstStep) % 2 ^ 32 then (s.hobRel x f).count C_HOB_AHEAD
    else
      let t : HobStep := { num := h.step, entered := s.nt }
      (s.setHctx x (c.openStep t)).hobOperand x h f t

/-- Steps in UP. -/
def HobCtx.upCount (c : HobCtx) : Nat := (c.steps.filter (fun t => t.phase == .up)).length

/-- The CONTRIB of a step. -/
def HobCtx.contrib (c : HobCtx) (t : HobStep) : HobOut :=
  { kind := 0, step := t.num, payload := t.payload, epc := t.epc, wtype := t.wtype, elems := c.elemsOf t.num }

/-- NT between two resends: STEP_TMO / 4 (R305). -/
def HobCtx.resendGap (c : HobCtx) : Nat := c.stepTmo * 1000 * nsUnit / 4

/-- A step enters UP and its CONTRIB is to be emitted. -/
def State.goUp (s : State) (x : Nat) (t : HobStep) : State :=
  let c := s.hctx x
  let c := c.putStep { t with phase := .up, resendAt := s.nt + c.resendGap }
  s.setHctx x { c with out := c.out ++ [c.contrib t] }

/-- HELD steps enter UP in ascending order while the send window allows it (R304, R317). -/
def State.releaseHeld (s : State) (x : Nat) : State :=
  ((s.hctx x).steps.filter (fun t => t.phase == .held)).foldl (fun s t =>
    if (s.hctx x).upCount < s.weff x then s.goUp x t else s) s

/-- A step enters DOWN: RESULT to DOWN_MAP and ACK to the other children of EXP_MAP, in ascending child order (R304, R306). -/
def State.goDown (s : State) (x : Nat) (t : HobStep) : State :=
  let c := s.hctx x
  let t := { t with phase := .down }
  let c := c.putStep t
  (s.setHctx x { c with out := c.out ++ (bits64 (c.expMap ||| c.downMap)).map (c.answer t) }).releaseHeld x

/-- R303, R304: a RESULT or ACK is accepted for a step in UP, or in IDLE at a non-root that awaits no contributions. -/
def State.settleDown (s : State) (x : Nat) (h : HobHdr) (f : Frame) : State :=
  let c := s.hctx x
  let d := (h.step + 2 ^ 32 - c.next) % 2 ^ 32
  let n := payloadLen c.dtype (c.elemsOf h.step)
  let payload := if h.type = 1 then h.payload f.bytes else if c.downMap = 0 then [] else natBytes n s.freeVal
  let s := if h.type = 2 ∧ c.downMap ≠ 0 then s.fresh else s
  let s := s.hobRel x f
  match c.stepOf h.step with
  | some t => if t.phase = .up then s.goDown x { t with payload := payload, epc := h.epc } else s.count C_HOB_DUP
  | none =>
    if c.expMap = 0 && d < c.window && (h.step + 2 ^ 32 - c.firstStep) % 2 ^ 32 < c.nsteps then
      let t : HobStep := { num := h.step, entered := s.nt, payload := payload, epc := h.epc }
      (s.setHctx x (c.openStep t)).goDown x t
    else s.count C_HOB_DUP

/-- The neighbour that sent an ABORT: the parent when it came in on the parent's port with MY_CHILD, else child CHILD. -/
def State.abortSender (s : State) (x : Nat) (h : HobHdr) (f : Frame) : Nat :=
  let c := s.hctx x
  if !c.root && s.nbrPort c.nbrBase == f.inPort && h.child == c.myChild then 0 else h.child + 1

/-- Settle a frame whose header and payload are good. -/
def State.hobAccept (s : State) (x : Nat) (h : HobHdr) (f : Frame) : State :=
  let c := s.hctx x
  let from_ := if h.type = 0 then h.child + 1 else if h.type = 3 then s.abortSender x h f else 0
  let s := s.setHctx x (c.storePace from_ h.pace)
  if h.type = 0 then s.settleContrib x h f
  else if h.type = 3 then (s.hobRel x f).hobAbort x 2 (some from_)
  else s.settleDown x h f

/-- The home engine judges a frame (R302): context, header, payload CRC. -/
def State.hobJudge (s : State) (x : Nat) (f : Frame) : State :=
  let c := s.hctx x
  if c.st ≠ 1 then (s.hobRel x f).count C_HOB_CTX_DROP
  else
    match hobRead f.bytes with
    | none => (s.hobRel x f).count C_HOB_BADHDR
    | some h =>
      let p := h.payload f.bytes
      if !h.fits c then (s.hobRel x f).count C_HOB_BADHDR
      else if f.fate ≠ .good || h.bits 7 0 32 ≠ (if p = [] then 0 else crc32c p) then (s.hobRel x f).count C_HOB_BADCRC
      else s.hobAccept x h f

/-- The TYPE under which a frame in intake is handled; a frame without a header, or with an invalid TYPE, as a CONTRIB. -/
def State.hobType (s : State) (i : HobIntake) : Nat :=
  match hobRead (s.frame i.frame).bytes with
  | some h => if h.type < 4 then h.type else 0
  | none => 0

/-- The deadline of a context (R312), none while no step is open. -/
def HobCtx.deadline (c : HobCtx) : Option Nat :=
  ((c.steps.filter (fun t => t.phase != .retained)).head?).map (fun t => t.entered + c.stepTmo * 1000 * nsUnit)

/-- A context whose deadline has come aborts with cause 1 (R312). -/
def State.deadlineDue (s : State) (x : Nat) : State :=
  match (s.hctx x).deadline with
  | none => s
  | some t => s.when ((s.hctx x).st == 1 && t ≤ s.nt) fun s => s.hobAbort x 1

/-- The oldest frame for a home engine, when it is of a TYPE and has wholly arrived, is judged, behind a deadline of its context in
the same cc (R315); then requests are made. -/
def State.hobIntake (s : State) (eng type : Nat) (blocks : List (List Nat)) : State :=
  match s.hob.intake.find? (fun i => i.ctx % 32 == eng) with
  | none => s
  | some i =>
    if s.hobHalted i.ctx || s.hobType i != type || !(s.frame i.frame).stored then s
    else (((s.hobTake i).deadlineDue i.ctx).hobJudge i.ctx (s.frame i.frame)).hobRun i.ctx blocks

/-- HOB_CONTRIB (R302, R303). -/
def execHobContrib (eng : Fin 32) (cells : List (List Nat)) (s : State) : Host.Outcome State Fault Refusal :=
  .next (s.hobIntake eng 0 cells)

/-- HOB_RESULT (R302 to R304). -/
def execHobResult (eng : Fin 32) (cells : List (List Nat)) (s : State) : Host.Outcome State Fault Refusal :=
  .next (s.hobIntake eng 1 cells)

/-- HOB_ACK (R302 to R304). -/
def execHobAck (eng : Fin 32) (cells : List (List Nat)) (s : State) : Host.Outcome State Fault Refusal :=
  .next (s.hobIntake eng 2 cells)

/-- HOB_ABORT_FRAME (R302, R314). -/
def execHobAbortFrame (eng : Fin 32) (cells : List (List Nat)) (s : State) : Host.Outcome State Fault Refusal :=
  .next (s.hobIntake eng 3 cells)

/-! ### Operands and operations (R294, R307, R311) -/

/-- A cell of an operand has been read: it is staged, or, uncorrectable, aborts the context with cause 4. -/
def State.hobCell (s : State) (r : CellRead) (data : List Byte) (bad : Bool) : State :=
  let c := s.hctx r.ctx
  match c.stepOf r.step with
  | none => s
  | some t =>
    if c.st ≠ 1 then s
    else if bad then s.hobAbort r.ctx 4
    else s.setHctx r.ctx (c.putStep { t with ops := t.ops.map (fun o =>
      if o.child = r.child then { o with got := o.got.set r.idx data } else o) })

/-- Are all cells of an operand staged. -/
def HobOperand.staged (o : HobOperand) : Bool :=
  (List.range 64).all (fun i => !(o.off < 256 * (i + 1) && 256 * i < o.off + o.len) || o.got.get i != [])

/-- The payload of a staged operand. -/
def HobOperand.payload (o : HobOperand) : List Byte :=
  bytesAt ((List.range 64).foldl (fun a i => a ++ bytesAt (o.got.get i) 0 256) []) o.off o.len

/-- The operand of a child, once staged. -/
def HobStep.operand (t : HobStep) (child : Nat) : Option HobOperand := t.ops.find? (fun o => o.child == child && o.staged)

/-- The wire type that a step sends up or down (R308). -/
def HobCtx.outType (c : HobCtx) : Nat := if !c.root && c.accWire && c.dtype != 0 then 1 else c.dtype

/-- Does a step relay its one contribution unchanged (R307): types agree and no transposition is asked for. -/
def HobCtx.relays (c : HobCtx) (t : HobStep) : Bool :=
  c.children.length == 1 && !(c.root && c.outXpose) &&
  (match t.ops.head? with | some o => o.wtype == c.outType | none => false)

/-- Does the node convert its accumulator (R308). -/
def HobCtx.converts (c : HobCtx) (t : HobStep) : Bool := !c.relays t && (c.root || !c.accWire)

/-- Chunks of 64 elements of a step, and tiles of 256. -/
def HobCtx.chunks (c : HobCtx) (t : HobStep) : Nat := ceilDiv (c.elemsOf t.num) 64
def HobCtx.tiles (c : HobCtx) (t : HobStep) : Nat := if c.root && c.outXpose then c.elemsOf t.num / 256 else 0

/-- The lanes of chunk `k` that a contribution gives. -/
def HobCtx.widenChunk (c : HobCtx) (t : HobStep) (o : HobOperand) (k : Nat) : List Nat :=
  let n := c.elemsOf t.num
  ((List.range 64).filter (fun i => 64 * k + i < n)).map (fun i => widen o.wtype n (64 * k + i) o.payload)

/-- Write cells of a step's accumulator block through the engine's writer queue, from cell `k` on (R217, R309). -/
def State.accWrite (s : State) (x : Nat) (t : HobStep) (k : Nat) (data : List (List Byte)) : State :=
  match t.acc with
  | some (a, _) => s.writeCells (32 + x % 32) (s.fwd.blocks.get a).cells k data
  | none => s

/-- Record `m` more contributions combined in chunk `k`, whose lanes go into the accumulator block; one whose last chunk is done is released
(R309).  DESIGN CHOICE (log 123): a chunk's 64 lanes fill its cell in element order, each big-endian. -/
def State.hobTaken (s : State) (x : Nat) (t : HobStep) (k m ready : Nat) (lanes : List Nat) : State :=
  let c := s.hctx x
  let s := s.accWrite x t k [wordsBytes lanes]
  let t := { t with taken := t.taken.set k (t.taken.get k + m), lanes := t.lanes.set k lanes, ready := t.ready.set k ready }
  let least := (List.range (c.chunks t)).foldl (fun a i => min a (t.taken.get i)) 64
  let used := c.children.take least
  let gone := t.ops.filter (fun o => !o.freed && used.contains o.child)
  let s := s.freeOps x gone
  s.setHctx x ((s.hctx x).putStep { t with ops := t.ops.map (fun o => if used.contains o.child then { o with freed := true } else o) })

/-- The hc that start in this cc; HCLK at point k runs (12 + k) / 12 times as fast as CCLK (R328). -/
def State.hcsNow (s : State) : List Nat :=
  let first := (s.hob.hc + 11) / 12
  [first, first + 1].filter (fun h => 12 * h < s.hob.hc + 12 + s.point)

/-- The hc of this cc in which an engine may issue (R293): at most two operations in an hc, and 2 D in any 32 consecutive hc. -/
def State.issueSlot (s : State) (e : Nat) : Option Nat :=
  let l := s.hob.slots.get e
  s.hcsNow.find? (fun h => l.all (· ≤ h) && (l.filter (· == h)).length < 2 &&
    (l.filter (fun i => h < i + 32)).length < 2 * s.f HOB_ENG_STAT_DAMPER e)

/-- Does the Damper alone keep an engine from issuing in an hc of this cc. -/
def State.damperHolds (s : State) (e : Nat) : Bool :=
  let l := s.hob.slots.get e
  (s.issueSlot e).isNone && s.hcsNow.any (fun h => l.all (· ≤ h) && (l.filter (· == h)).length < 2)

/-- Latency of an operation in hc (R294); operations are numbered in the order of its table. -/
def opLatency (op : Nat) : Nat := [6, 6, 6, 4, 4, 8].getD op 0

/-- An operation issues in hc `h`: it is counted with its energy (R323) and as an event (R367). -/
def State.hobIssue (s : State) (x op h : Nat) : State :=
  let e := x % 32
  let w := Config.weight (16 * op + (s.hctx x).dtype)
  State.ev { s with hob := { s.hob with
      issued := s.hob.issued.upd e (· + 1)
      energy := s.hob.energy.upd e (· + w)
      scaled := s.hob.scaled.upd e (· + w * pointScale s.point)
      slots := s.hob.slots.upd e (fun l => (h :: l).take 64) } } 0x040 e

/-- May operations of a context issue on engine `eng`; one that is full of cells to write holds its results (R310). -/
def State.hobMay (s : State) (eng x : Nat) : Bool := x % 32 == eng && (s.hctx x).st == 1 && !s.hobHalted x && s.writerRoom (32 + eng)

/-- An engine requests the issue of an operation: `f h` is what it does when it issues in hc `h`, nothing when none of its kind stands to issue.
Held back by the Damper it counts as a request alone (R293, R326), and as event 0x041 (R367). -/
def State.hobRequest (s : State) (eng x : Nat) (f : Nat → State → State) : State :=
  s.when (s.hobMay eng x) fun s =>
    let t := f ((s.issueSlot eng).getD (s.hcsNow.getLastD 0)) s
    let asked (s : State) : State := { s with hob := { s.hob with requests := s.hob.requests.upd eng (· + 1) } }
    if t.hob.issued.get eng = s.hob.issued.get eng then s
    else if (s.issueSlot eng).isSome then asked t
    else s.when (s.damperHolds eng) fun s => (asked s).ev 0x041 eng

/-- The first step and chunk, in ascending order, at which an operation may issue. -/
def HobCtx.firstIssue (c : HobCtx) (p : HobStep → Nat → Bool) : Option (HobStep × Nat) :=
  (c.steps.filter (fun t => (t.phase == .collect || t.phase == .combine) && t.acc.isSome)).findSome? (fun t =>
    ((List.range (c.chunks t)).find? (p t)).map (fun k => (t, k)))

/-- Issue in hc `h` the operation that takes `m` contributions into a chunk that holds `n` (R307). -/
def State.hobTakeOp (s : State) (x op n m h : Nat) (ok : HobCtx → HobStep → Bool) : State :=
  let c := s.hctx x
  let cs := c.children
  let may := fun (t : HobStep) (k : Nat) =>
    ok c t && t.taken.get k == n && t.ready.get k ≤ h && ((cs.drop n).take m).all (fun i => (t.operand i).isSome) && n + m ≤ cs.length
  match c.firstIssue may with
  | none => s
  | some (t, k) =>
    let ins := ((cs.drop n).take m).filterMap (fun i => (t.operand i).map (fun o => c.widenChunk t o k))
    let lanes := match (if n = 0 then ins else t.lanes.get k :: ins) with
      | [] => []
      | a :: rest => rest.foldl (fun a b => List.zipWith (hobOp c.dtype c.op) a b) a
    (s.hobTaken x t k m (h + opLatency op) lanes).hobIssue x op h

/-- HOB_LD (R294, R307): a single contribution of another type is widened into the accumulator. -/
def execHobLd (eng : Fin 32) (ctx : Fin 4096) (s : State) : Host.Outcome State Fault Refusal :=
  .next (s.hobRequest eng ctx fun h s => s.hobTakeOp ctx 0 0 1 h (fun c t => c.children.length == 1 && !c.relays t))

/-- HOB_CMB2 (R294, R307): the first two contributions are combined. -/
def execHobCmb2 (eng : Fin 32) (ctx : Fin 4096) (s : State) : Host.Outcome State Fault Refusal :=
  .next (s.hobRequest eng ctx fun h s => s.hobTakeOp ctx 1 0 2 h (fun c _ => 2 ≤ c.children.length))

/-- HOB_CMBA (R294, R307): the accumulator of the first chunk that has one is combined with the next contribution. -/
def execHobCmba (eng : Fin 32) (ctx : Fin 4096) (s : State) : Host.Outcome State Fault Refusal :=
  .next (s.hobRequest eng ctx fun h s =>
    let c := s.hctx ctx
    let next := fun (t : HobStep) (k : Nat) =>
      2 ≤ t.taken.get k && t.ready.get k ≤ h &&
        (match c.children[t.taken.get k]? with | some i => (t.operand i).isSome | none => false)
    match c.firstIssue next with
    | none => s
    | some (t, k) => s.hobTakeOp ctx 2 (t.taken.get k) 1 h (fun _ u => u.num == t.num))

/-- Convert the first chunk whose combination is complete. -/
def State.hobConvert (s : State) (x op h : Nat) (ok : HobCtx → Bool) : State :=
  let c := s.hctx x
  let may := fun (t : HobStep) (k : Nat) =>
    ok c && c.converts t && t.phase == .combine && t.taken.get k == c.children.length && t.ready.get k ≤ h && !t.conv.contains k
  match c.firstIssue may with
  | none => s
  | some (t, k) =>
    (s.setHctx x (c.putStep { t with conv := k :: t.conv, ready := t.ready.set k (h + opLatency op) })).hobIssue x op h

/-- HOB_CVT (R294, R308). -/
def execHobCvt (eng : Fin 32) (ctx : Fin 4096) (s : State) : Host.Outcome State Fault Refusal :=
  .next (s.hobRequest eng ctx fun h s => s.hobConvert ctx 3 h (fun c => !blockScaled c.dtype || (c.root && c.outXpose)))

/-- HOB_BSQ (R296, R308). -/
def execHobBsq (eng : Fin 32) (ctx : Fin 4096) (s : State) : Host.Outcome State Fault Refusal :=
  .next (s.hobRequest eng ctx fun h s => s.hobConvert ctx 4 h (fun c => blockScaled c.dtype && !(c.root && c.outXpose)))

/-- HOB_BSXT (R296, R308): the next tile, once its four chunks are converted to bf16. -/
def execHobBsxt (eng : Fin 32) (ctx : Fin 4096) (s : State) : Host.Outcome State Fault Refusal :=
  .next (s.hobRequest eng ctx fun h s =>
    let c := s.hctx ctx
    let tile := fun (t : HobStep) (i : Nat) => t.conv.contains (4 * t.tiles + i) && t.ready.get (4 * t.tiles + i) ≤ h
    match c.firstIssue (fun t k => k == 0 && t.tiles < c.tiles t && (List.range 4).all (tile t)) with
    | none => s
    | some (t, _) => (s.setHctx ctx (c.putStep { t with tiles := t.tiles + 1 })).hobIssue ctx 5 h)

/-! ### The step boundary (R304, R308) -/

/-- The accumulator of a whole step. -/
def HobCtx.accOf (c : HobCtx) (t : HobStep) : List Nat := (List.range (c.chunks t)).foldl (fun a k => a ++ t.lanes.get k) []

/-- The outgoing payload of a step (R300, R308). -/
def HobCtx.payloadOf (c : HobCtx) (t : HobStep) : List Byte :=
  let acc := c.accOf t
  if c.relays t then (match t.ops.head? with | some o => o.payload | none => [])
  else if c.root && c.outXpose then
    let bf := acc.map (fun v => (f32 v).encode 2)
    (List.range (c.tiles t)).foldl (fun a i => a ++ bsxtBytes c.dtype ((bf.drop (256 * i)).take 256)) []
  else if !c.root && c.accWire then cvtBytes (if c.dtype = 0 then 0 else 1) acc
  else if blockScaled c.dtype then
    let r := bsqBytes c.dtype acc
    pad4 (r.1 ++ r.2)
  else pad4 (cvtBytes c.dtype acc)

/-- Have all operations of a step issued. -/
def HobCtx.finished (c : HobCtx) (t : HobStep) : Bool :=
  t.phase == .combine &&
  (c.elemsOf t.num == 0 || (c.children.all (fun i => t.ops.any (fun o => o.child == i && o.staged)) &&
    (c.relays t || (t.acc.isSome &&
      (List.range (c.chunks t)).all (fun k => t.taken.get k == c.children.length && (!c.converts t || t.conv.contains k)) &&
      t.tiles == c.tiles t))))

/-- The cells of the converted result that a root keeps in the step's accumulator block (R309). -/
def HobCtx.keptCells (c : HobCtx) (t : HobStep) : List (List Byte) :=
  if c.root && t.acc.isSome then cellsOf.chunks (c.payloadOf t) 64 else []

/-- The boundary of a step: contributions are released, EPC is summed, and the step goes to DOWN, UP or HELD; a root keeps its result. -/
def State.stepBoundary (s : State) (x : Nat) (t : HobStep) : State :=
  let c := s.hctx x
  let epc := t.ops.foldl (fun a o => a + o.epc) 0
  let u := { t with payload := c.payloadOf t, wtype := c.outType, epc := epc % 2 ^ 17 }
  let s := (s.accWrite x t 0 (c.keptCells t)).freeOps x (t.ops.filter (fun o => !o.freed))
  let u := { u with ops := [], lanes := [], ready := [], taken := [], conv := [] }
  let s := s.setHctx x ((s.hctx x).putStep u)
  if c.root then (if epc ≠ c.expectEp then s.hobAbort x 7 else s.goDown x u)
  else if c.upCount < s.weff x then s.goUp x u
  else s.setHctx x ((s.hctx x).putStep { u with phase := .held })

/-- Does an ABORT that the home engine will accept stand first for a context: it is applied before a step boundary of its cc (R315). -/
def State.abortWaits (s : State) (x : Nat) : Bool :=
  match s.hob.intake.find? (fun i => i.ctx % 32 == x % 32) with
  | none => false
  | some i =>
    let f := s.frame i.frame
    i.ctx == x && f.stored && f.fate == .good &&
      (match hobRead f.bytes with | none => false | some h => h.type == 3 && h.fits (s.hctx x) && h.bits 7 0 32 == 0)

/-- STEP_BOUNDARY (R304): once the engine's writer queue has room for what the root keeps (R310). -/
def execStepBoundary (ctx : Fin 4096) (cells : List (List Nat)) (s : State) : Host.Outcome State Fault Refusal :=
  .next (s.when ((s.hctx ctx).st == 1 && !s.hobHalted ctx && !s.abortWaits ctx) fun s =>
    let c := s.hctx ctx
    match c.steps.find? c.finished with
    | none => s
    | some t => s.when ((s.fwd.writers.get (32 + ctx.val % 32)).length + (c.keptCells t).length ≤ 256) fun s =>
        (s.stepBoundary ctx t).hobRun ctx cells)

/-- One step whose resend is due. -/
def State.resendStep (s : State) (x : Nat) (t : HobStep) : State :=
  let c := s.hctx x
  let c := c.putStep { t with resendAt := s.nt + c.resendGap }
  (s.setHctx x { c with out := c.out ++ [c.contrib t] }).count C_HOB_RESEND

/-- CONTRIB_RESEND (R305). -/
def execContribResend (ctx : Fin 4096) (cells : List (List Nat)) (s : State) : Host.Outcome State Fault Refusal :=
  .next (s.when ((s.hctx ctx).st == 1 && !s.hobHalted ctx) fun s =>
    (((s.hctx ctx).steps.filter (fun t => t.phase == .up && t.resendAt ≤ s.nt)).foldl (fun s t => s.resendStep ctx t) s).hobRun ctx cells)

/-- STEP_DEADLINE (R312). -/
def execStepDeadline (ctx : Fin 4096) (cells : List (List Nat)) (s : State) : Host.Outcome State Fault Refusal :=
  .next (s.when ((s.hctx ctx).st == 1 && !s.hobHalted ctx) fun s =>
    let t := s.deadlineDue ctx
    if (t.hctx ctx).st = 1 then s else t.hobRun ctx cells)

/-- HOB_POOL_RETRY (R310): what waits for a block, or for room in the writer queue, asks again. -/
def execHobPoolRetry (ctx : Fin 4096) (cells : List (List Nat)) (ecc : Fin 3) (s : State) : Host.Outcome State Fault Refusal :=
  .next (s.when (!s.hobHalted ctx) fun s => (s.poolMeta ecc).hobRun ctx cells)

/-! ### Hints (R331, R333) -/

/-- A hint is accepted, or refused when 16 are pending (R333): mask, phase, OPP and lead in µs.  OPP 5 and 6 are stored as 7. -/
def State.hintSubmit (s : State) (mask phase opp lead : Nat) : State :=
  if 16 ≤ s.pwr.hints.length then s.flag PWR_STAT_HINT_FULL
  else
    let h : Hint := { mask := mask, phase := phase, opp := if opp ≤ 4 then opp else 7, due := ceilDiv s.nt (1000 * nsUnit) + lead }
    { s with pwr := { s.pwr with hints := s.pwr.hints ++ [h] } }

/-! ### The context port (R320) -/

/-- A GO of the context port with a CMD and an INDEX; while BUSY it is ignored and sets COLLIDE. -/
def State.hobGo (s : State) (cmd idx : Nat) : State :=
  let s := (s.setF HOB_CTX_CTL_CMD cmd).setF HOB_CTX_CTL_INDEX idx
  if s.on HOB_CTX_STAT_BUSY then s.flag HOB_CTX_STAT_COLLIDE
  else
    State.setF { s with hob := { s.hob with go := s.cc, cmd := cmd, index := idx, data := (List.range 32).map (fun i => s.rget HOB_CTX_DATA i) } }
      HOB_CTX_STAT_BUSY 1

/-- HOB_CTX_READ. -/
def execHobCtxRead (ctx : Fin 16384) (s : State) : Host.Outcome State Fault Refusal := .next (s.hobGo 0 ctx)

/-- HOB_CTX_WRITE. -/
def execHobCtxWrite (ctx : Fin 16384) (s : State) : Host.Outcome State Fault Refusal := .next (s.hobGo 1 ctx)

/-- ACTIVATE. -/
def execActivate (ctx : Fin 16384) (s : State) : Host.Outcome State Fault Refusal := .next (s.hobGo 2 ctx)

/-- HOB_CTX_ABORT. -/
def execHobCtxAbort (ctx : Fin 16384) (s : State) : Host.Outcome State Fault Refusal := .next (s.hobGo 3 ctx)

/-- HOB_CTX_FREE. -/
def execHobCtxFree (ctx : Fin 16384) (s : State) : Host.Outcome State Fault Refusal := .next (s.hobGo 4 ctx)

/-- NBR_READ. -/
def execNbrRead (idx : Fin 16384) (s : State) : Host.Outcome State Fault Refusal := .next (s.hobGo 5 idx)

/-- NBR_WRITE. -/
def execNbrWrite (idx : Fin 16384) (s : State) : Host.Outcome State Fault Refusal := .next (s.hobGo 6 idx)

/-- HOB_CTX_INVALID_CMD. -/
def execHobCtxInvalidCmd (idx : Fin 16384) (s : State) : Host.Outcome State Fault Refusal := .next (s.hobGo 7 idx)

/-- The bits of descriptor words 0 to 11 that are not reserved. -/
def ctxMasks : List Nat := [0xE0FFFFFF, 0xFFFFFFFF, 0xFFFFFFFF, 0xFFFFFFFF, 0xFFFFFFFF, 0xFFFFFFFF, 0xFFFFFFFF, 0xFFFFFFFF,
  0xFC003FFF, 0xFFFF003F, 0x1FFFFFFF, 0xFFFFFFFF]

/-- Descriptor words as they are stored: reserved bits 0, STEP_TMO 0 as 1. -/
def storeDesc (ws : List Word) : List Word :=
  let l := List.zipWith (fun w m => w &&& BitVec.ofNat 32 m) ws ctxMasks
  if wordBits (l.getD 9 0) 16 16 = 0 then l.set 9 (wordPut (l.getD 9 0) 16 16 1) else l

/-- A neighbour entry as it is stored: QUEUE 12 to 15 as 11. -/
def storeNbr (ws : List Word) : List Word :=
  let w := ws.getD 0 0 &&& 0xFFFF007F
  (if 11 < wordBits w 16 4 then wordPut w 16 4 11 else w) :: (ws.drop 1).take 30

/-- The 17 words that READ shows. -/
def State.ctxWords (s : State) (x : Nat) : List Word :=
  let c := s.hctx x
  let m := if c.st = 1 then c.missingNow else c.missing
  (List.range 12).map (fun i => c.desc.getD i 0) ++
    [c.st * 2 ^ 29 + c.cause * 2 ^ 26 + s.paceOut x * 2 ^ 20, c.next, c.done, m, m / 2 ^ 32].map (BitVec.ofNat 32)

/-- Is a size of a step legal. -/
def elemsOk (n : Nat) : Bool := n % 32 == 0 && n ≤ 2048

/-- May the DTYPE use the OP (R295). -/
def opOk (dtype op : Nat) : Bool := (dtype == 0 && op < 6) || (dtype < 8 && op < 3)

/-- The neighbour entries that the maps use: those of the children. -/
def HobCtx.usedNbrs (c : HobCtx) : List Nat := (bits64 (c.expMap ||| c.downMap)).map (fun i => c.nbrBase + 1 + i)

/-- May a FREE context become ACTIVE (R320). -/
def State.activateOk (s : State) (c : HobCtx) : Bool :=
  opOk c.dtype c.op && elemsOk c.stepElems && elemsOk c.lastElems &&
  !(c.outXpose && (!blockScaled c.dtype || c.stepElems % 256 != 0)) && c.nbrBase + 65 ≤ 16384 &&
  c.usedNbrs.all (fun e => wordBits (s.nbrWord e 0) 31 1 == 1) && !(c.expMap == 0 && c.downMap == 0) && c.nsteps != 0 &&
  !(c.root && (c.expectEp == 0 || 65536 < c.expectEp)) && s.hobActive.all (fun y => (s.hctx y).collId != c.collId)

/-- Place the words that a port access read in HOB_CTX_DATA. -/
def State.putHobData (s : State) (ws : List Word) : State :=
  (List.range ws.length).foldl (fun s i => s.rset HOB_CTX_DATA (ws.getD i 0) i) s

/-- A context command that has passed the range check: the new state and RESULT. -/
def State.ctxCmd (s : State) (cmd x : Nat) (data : List Word) : State × Nat :=
  let c := s.hctx x
  if cmd = 0 then (s.putHobData (s.ctxWords x), 0)
  else if cmd = 1 then
    if c.st = 0 then (s.setHctx x { c with desc := storeDesc data }, 0) else (s, 1)
  else if cmd = 2 then
    if c.st ≠ 0 then (s, 1)
    else if !s.activateOk c then (s, 3)
    else
      let s := (s.setHctx x { desc := c.desc, st := 1, next := c.firstStep }).setF HOB_ENG_STAT_ACTIVE
        (s.f HOB_ENG_STAT_ACTIVE (x % 32) + 1) (x % 32)
      let s := { s with hob := { s.hob with lived := s.hob.lived.set (x % 32) true } }
      (if c.phase = 0 then s else s.hintSubmit (2 ^ (x % 32)) c.phase (s.f PWR_PHASE_CFG_OPP c.phase) 0, 0)
  else if cmd = 3 then
    if c.st = 1 then (s.hobAbort x 3, 0) else (s, 1)
  else
    if c.st < 2 then (s, 1)
    else
      let s := c.steps.foldl (fun s t => s.freeStep x t) s
      (s.setHctx x { c with st := 0, steps := [], out := [] }, 0)

/-- Does an ACTIVE context's range of neighbour entries cover entry `e`. -/
def State.nbrInUse (s : State) (e : Nat) : Bool := s.hobActive.any (fun x => (s.hctx x).nbrBase ≤ e && e ≤ (s.hctx x).nbrBase + 64)

/-- The access in progress lands, with its RESULT. -/
def State.hobPortRun (s : State) : State × Nat :=
  let i := s.hob.index
  if s.hob.cmd = 7 then (s, 4)
  else if s.hob.cmd = 5 then (s.putHobData ((List.range 32).map (fun w => s.nbrWord i w)), 0)
  else if s.hob.cmd = 6 then
    if s.nbrInUse i then (s, 1) else ({ s with hob := { s.hob with nbr := s.hob.nbr.set i (storeNbr s.hob.data) } }, 0)
  else if 4096 ≤ i then (s, 2)
  else s.ctxCmd s.hob.cmd i s.hob.data

/-- A context that becomes DONE in the cc of a software ABORT stays DONE (R315): what it still emits in that cc stands before the abort. -/
def State.doneFirst (s : State) (cells : List (List Nat)) : State :=
  let x := s.hob.index
  if s.hob.cmd = 3 && (s.hctx x).st == 1 && !s.hobHalted x then
    let t := s.hobRun x cells
    if (t.hctx x).st = 2 then t else s
  else s

/-- HOB_CTX_ACCESS_DONE (R320): 8 cc after its GO an access completes. -/
def execHobCtxAccessDone (cells : List (List Nat)) (s : State) : Host.Outcome State Fault Refusal :=
  .next (s.when (s.on HOB_CTX_STAT_BUSY && s.hob.go + 8 ≤ s.cc) fun s =>
    let (s, r) := (s.doneFirst cells).hobPortRun
    let s := ((s.setF HOB_CTX_STAT_BUSY 0).setF HOB_CTX_STAT_RESULT r).flag HOB_CTX_STAT_DONE
    if s.hob.cmd = 3 && r == 0 then s.hobRun s.hob.index cells else s)

/-- HOB_CNT_CLR (R321). -/
def State.hobCntClrCmd (s : State) : State :=
  s.cclrs [C_HOB_STEPS, C_HOB_DUP, C_HOB_AHEAD, C_HOB_BADHDR, C_HOB_BADCRC, C_HOB_CTX_DROP, C_HOB_INTAKE_DROP, C_HOB_RESEND,
    C_HOB_EMIT_DROP, C_HOB_POOL_WAIT, C_HOB_ABORTS]

/-- HOB_CNT_CLR. -/
def execHobCntClr (s : State) : Host.Outcome State Fault Refusal := .next (s.hobCntClrCmd)

/-! ### REBUILD (R235) -/

/-- A frame at an engine is discarded with its block. -/
def State.dropIntake (s : State) (i : HobIntake) : State := s.hobTake i

/-- Every count, tag, free list and chain is cleared, with what is on its way into cells and out of them; frames that are past their enqueue
write no more, and the epoch moves on, so that references taken before are absorbed (R235).  The rebuild runs from the end of the flush. -/
def State.clearPool (s : State) : State :=
  let flushed := (List.range 512).foldl (fun a p => max a (s.tp p).flushEnd) s.cc
  let frames := s.fwd.frames.map (fun e => (e.1, if e.2.stage = .done then { e.2 with block := none } else e.2))
  let s := { s with fwd := { s.fwd with
      blocks := [], freed := [], writers := [], reads := [], arriving := [], frames := frames
      epoch := s.fwd.epoch + 1, stateStart := flushed } }
  s.fwd.frames.foldl (fun s e => s.tidyFrame e.1) s

/-- REBUILD (R234, R235): queues are flushed, Hob blocks discarded and collectives aborted, copies in flight cut off; the pool manager's
words are cleared, and the pools show no free block outside BLOCK. -/
def State.rebuild (s : State) : State :=
  let s := (List.range 512).foldl State.startFlush s
  let s := s.hobActive.foldl (fun s x => s.hobAbort x 5) s
  let s := s.hob.intake.foldl State.dropIntake s
  let sending := (s.fwd.copies.filter (fun e => e.2.state == .sending)).map (·.1)
  let s := (sending.foldl State.abortCopy s).clearPool
  let s := (((s.setF POOL_FREE_FREE 0 0).setF POOL_FREE_FREE 0 1).setF POOL_FREE_FREE 0 2).setF POOL_FREE_FREE 0 3
  s.setF POOL_STAT_STATE poolRebuilding

/-- REBUILD (R234): in CARVING and REBUILDING it changes nothing and sets CARVE_ERR. -/
def State.rebuildCmd (s : State) : State :=
  if s.f POOL_STAT_STATE = poolChain ∨ s.f POOL_STAT_STATE = poolBlock then s.rebuild
    else (s.flag POOL_STAT_CARVE_ERR).raise 8 1 10

/-- REBUILD. -/
def execRebuild (s : State) : Host.Outcome State Fault Refusal := .next (s.rebuildCmd)

end Sys2Proof.Machine
end

