-- ==== Sys2Proof/Machine/Power.lean ====
section
/-! DEFINITION. The power controller: estimate, calibration, Damper, Bellows, hints, thermal readings and energy (R322 to R342).  Powers
are in µW and rounded down; an energy of 1 pJ in an epoch of 1 µs is 1 µW. -/

namespace Sys2Proof.Machine

/-- Change the power controller's own state. -/
def State.setPwr (s : State) (f : PwrState → PwrState) : State := { s with pwr := f s.pwr }

/-! ### Operating points (R328, R481) -/

/-- HCLK moves to a lower point or the rail's target changes: POINT, TARGET and the code on HOB_VID. -/
def State.setPoint (s : State) (point target : Nat) : State :=
  ((s.setF PWR_BELLOWS_POINT point).setF PWR_BELLOWS_TARGET target).setPwr (fun p => { p with vid := pointVid target })

/-! ### Learned demand (R326, R332) -/

/-- A slot as learned, or its values before it has been updated. -/
def State.slotOfPhase (s : State) (ph : Nat) : Learned := (s.pwr.learned.get ph).getD { delta := 65536, pi := 2396 * 65536 }

/-- The phase of an engine. -/
def State.phaseOf (s : State) (e : Nat) : Nat := s.f PWR_ENG_PHASE e

/-- Cycles of HCLK in the epoch that ends. -/
def State.epochHc (s : State) : Nat := max 1 ((s.hob.hc - s.pwr.hcFrom) / 12)

/-- Issue fraction of the epoch that ends, in 2^-16: requests made, those that the Damper held back with them (R326). -/
def State.issueFrac (s : State) (e : Nat) : Nat := s.hob.requests.get e * 65536 / (2 * s.epochHc)

/-- A value moved a sixteenth of the way to another. -/
def toward (a b : Nat) : Nat := ((a : Int) + ((b : Int) - a) / 16).toNat

/-- Learn from one engine's epoch (R332), when a context of it was ACTIVE in it. -/
def State.learn (s : State) (e : Nat) : State :=
  if s.f HOB_ENG_STAT_ACTIVE e = 0 ∧ !s.hob.lived.get e then s
  else
    let ph := s.phaseOf e
    let l := s.slotOfPhase ph
    let n := s.hob.issued.get e
    let d := toward l.delta (s.issueFrac e)
    let p := if n = 0 then l.pi else toward l.pi (s.hob.energy.get e * 65536 / n)
    let s := s.setPwr (fun w => { w with learned := w.learned.set ph (some { delta := d, pi := p }) })
    let s := (s.setF PWR_PHASE_LRN_PI (min (p / 65536) 65535) ph).setF PWR_PHASE_LRN_DEMAND (min (d * 255 / 65536) 255) ph
    s.satF PWR_PHASE_LRN_SAMPLES 1 ph

/-- RELEARN (R332). -/
def State.relearnCmd (s : State) (ph : Nat) : State :=
  (s.setPwr (fun w => { w with learned := w.learned.set ph none })).rset PWR_PHASE_LRN 0x095CFF00 ph

/-- RELEARN. -/
def execRelearn (ph : Fin 64) (s : State) : Host.Outcome State Fault Refusal := .next (s.relearnCmd ph.val)

/-- P_n(k) for an issue fraction `w` in 2^-16 (R326). -/
def State.enginePower (s : State) (e k w : Nat) : Nat :=
  s.pwr.gain * (s.slotOfPhase (s.phaseOf e)).pi * pointScale k * 2 * pointHc k * w / (2 ^ 30 * 65536 * 1000 * 65536)

/-- w_n (R326). -/
def State.wanted (s : State) (e : Nat) : Nat := max (s.slotOfPhase (s.phaseOf e)).delta (s.issueFrac e)

/-- The sum of what some engines want at a point. -/
def State.sumPower (s : State) (es : List Nat) (k : Nat) (w : Nat → Nat) : Nat := es.foldl (fun a e => a + s.enginePower e k (w e)) 0

/-! ### The Hob share and the Damper (R327, R334) -/

/-- D in force of an engine. -/
def State.damper (s : State) (e : Nat) : Nat := s.f HOB_ENG_STAT_DAMPER e

/-- Steps in COMBINE of the contexts homed on an engine. -/
def State.combining (s : State) (e : Nat) : List (Nat × Nat) :=
  (s.hob.ctx.filter (fun c => c.1 % 32 == e && c.2.st == 1)).foldl (fun a c =>
    a ++ (c.2.steps.filter (fun t => t.phase == .combine)).map (fun t => (c.1, t.num))) []

/-- A share as R327 computes it: the point, s, and D of each engine. -/
structure Share where
  k : Nat
  s : Nat
  d : List Nat

/-- The lowest point at or below `k` at which the wants fit the share. -/
def lowerPoint (fits : Nat → Bool) : Nat → Nat
  | 0 => 0
  | k + 1 => if fits (k + 1) then k + 1 else lowerPoint fits k

/-- One pass of R327 with a set of deferred engines, which are charged at their old D. -/
def State.sharePass (s : State) (avail : Int) (deferred : List Nat) : Share :=
  let free := (List.range 32).filter (fun e => !deferred.contains e)
  let old := s.sumPower deferred s.point (fun e => min (s.wanted e) (s.damper e * 2048))
  let a := (avail - old).toNat
  let k := lowerPoint (fun k => s.sumPower free k s.wanted ≤ a) s.point
  let sum := s.sumPower free k s.wanted
  { k := k, s := a, d := (List.range 32).map (fun e => if sum ≤ a then 32 else max 1 (min (32 * s.wanted e * a / (65536 * sum)) 32)) }

/-- R327 with R334: engines whose cut must wait are taken as deferred and the share is formed again. -/
def State.shareAll (s : State) (avail : Int) : Nat → List Nat → Share × List Nat
  | 0, df => (s.sharePass avail df, df)
  | n + 1, df =>
    let r := s.sharePass avail df
    let more := (List.range 32).filter (fun e => !df.contains e && r.d.getD e 32 < s.damper e && s.combining e != [])
    if more = [] then (r, df) else s.shareAll avail n (df ++ more)

/-- A new target D of an engine: taken at once, or deferred. -/
def State.takeTarget (s : State) (deferred : List Nat) (e d : Nat) : State :=
  let was := s.on PWR_ENG_DEFER e
  let s := s.setF PWR_ENG_TARGET_D d e
  if s.damper e ≤ d || !deferred.contains e then (s.setF HOB_ENG_STAT_DAMPER d e).setF PWR_ENG_DEFER 0 e
  else if was then s
  else
    let s := (s.setF PWR_ENG_DEFER 1 e).count C_PWR_DEFER
    s.setPwr (fun p => { p with defer := p.defer.set e { steps := s.combining e, from_ := s.nt } })

/-- DAMPER_DEFER_END (R334). -/
def execDamperDeferEnd (e : Fin 32) (s : State) : Host.Outcome State Fault Refusal :=
  .next (s.when (s.on PWR_ENG_DEFER e) fun s =>
    let d := s.pwr.defer.get e
    let busy := d.steps.any (fun t => (s.combining e).contains t)
    if busy && s.nt < d.from_ + 20 * usUnit then s
    else
      let s := (s.setF HOB_ENG_STAT_DAMPER (s.f PWR_ENG_TARGET_D e) e).setF PWR_ENG_DEFER 0 e
      if busy then s.count C_PWR_DEFER_TMO else s)

/-! ### Bellows (R329, R333) -/

/-- BOOST_MAX and the ceiling of R333. -/
def State.ceiling (s : State) : Nat :=
  let mx := s.f PWR_CFG_BOOST_MAX
  let es := (List.range 32).filter (fun e => s.f HOB_ENG_STAT_ACTIVE e != 0)
  if es = [] then mx
  else es.foldl (fun a e => max a (if s.pwr.opp.get e = 0 then mx else 7 - s.pwr.opp.get e)) 0


/-- Are the conditions of R329 met in this epoch for a share. -/
def State.raiseFits (s : State) (share top : Nat) (w : Nat → Nat) : Bool :=
  s.point < top && s.point < 4 && s.sumPower (List.range 32) (s.point + 1) w * 17 ≤ share * 16 && (List.range 32).all (fun e => s.damper e == 32)

/-- Does a pending hint let Bellows begin its steps early (R333): its OPP is above the point, and the engines it names are judged by the learned
demand of its phase.  DEDUCED (log 133): the ceiling is then the hint's OPP, and the steps begin in the next epoch. -/
def State.early (s : State) (share : Nat) (h : Hint) : Bool :=
  h.opp ≤ 4 && s.raiseFits share (min h.opp (s.f PWR_CFG_BOOST_MAX)) (fun e => if natBit h.mask e then (s.slotOfPhase h.phase).delta else s.wanted e)

/-- Bellows begins a raise: VDD_HOB moves to the next point. -/
def State.beginRaise (s : State) : State :=
  ((s.setPoint s.point (s.point + 1)).setF PWR_STAT_VGOOD 0).setPwr (fun p => { p with raising := some { from_ := s.nt }, run := 0 })

/-- Bellows in one epoch, with the share formed in it.  While a raise runs the conditions of the next step do not hold, and none begins in the epoch
that leaves fixed frequency (R56). -/
def State.bellows (s : State) (share : Nat) : State :=
  let ceil := s.ceiling
  let s := s.setF PWR_BELLOWS_CEIL ceil
  let fits := s.raiseFits share ceil s.wanted
  let run := if fits && s.pwr.raising.isNone then min (s.pwr.run + 1) 15 else 0
  let s := s.setPwr (fun p => { p with run := run, chase := if p.chase ≤ s.point then 0 else p.chase })
  if s.pwr.raising.isSome || !s.on PWR_STAT_VGOOD || s.nt < s.pwr.blocked || s.pwr.wasFixed then s
  else if (fits && (s.f PWR_CFG_BOOST_HOLD ≤ s.pwr.run || s.point < s.pwr.chase)) || s.pwr.hints.any (s.early share) then s.beginRaise
  else s

/-- VGOOD_REPORT (R329): the rail is at the voltage of its code. -/
def execVgoodReport (s : State) : Host.Outcome State Fault Refusal :=
  .next (match s.pwr.raising with
    | some r => s.setPwr (fun p => { p with raising := some { r with good := true } })
    | none => s.setF PWR_STAT_VGOOD 1)

/-- HCLK moves in the first epoch after the rail's report. -/
def State.moveUp (s : State) : State :=
  match s.pwr.raising with
  | some r =>
    if r.good then
      let k := s.f PWR_BELLOWS_TARGET
      ((s.setPoint k k).setF PWR_STAT_VGOOD 1).setPwr (fun p => { p with raising := none, run := 0 })
    else s
  | none => s

/-- BELLOWS_ABANDON (R329): no VGOOD 20 µs after a raise began. -/
def execBellowsAbandon (s : State) : Host.Outcome State Fault Refusal :=
  .next (match s.pwr.raising with
    | none => s
    | some r => s.when (!r.good && r.from_ + 20 * usUnit ≤ s.nt) fun s =>
        ((s.setPoint s.point s.point).setPwr (fun p => { p with raising := none, blocked := s.nt + 1000 * usUnit })).raise 2 1 4)

/-- HOB_VGOOD_LOSS (R481): outside a change of point VGOOD reads 0 and the point stays. -/
def execHobVgoodLoss (s : State) : Host.Outcome State Fault Refusal :=
  .next (s.when s.pwr.raising.isNone fun s => s.setF PWR_STAT_VGOOD 0)

/-- Bellows lowers at once; the rail follows, and a raise in progress ends. -/
def State.lowerTo (s : State) (k : Nat) : State :=
  if k < s.point then ((s.setPoint k k).setF PWR_STAT_VGOOD 0).setPwr (fun p => { p with raising := none, run := 0 }) else s

/-! ### The clock axis takes effect (R54, R56) -/

/-- HCLK to 1.5 GHz at once; the rail follows, and a raise in progress ends. -/
def State.baseClock (s : State) : State :=
  if s.point = 0 ∧ s.pwr.raising = none then s.setPwr (fun p => { p with run := 0 })
  else ((s.setPoint 0 0).setF PWR_STAT_VGOOD 0).setPwr (fun p => { p with raising := none, run := 0 })

/-- Every engine's Damper takes a value, with no cut left to defer. -/
def State.fixDamper (s : State) (d : Nat) : State :=
  (List.range 32).foldl (fun s e => ((s.setF HOB_ENG_STAT_DAMPER d e).setF PWR_ENG_TARGET_D d e).setF PWR_ENG_DEFER 0 e) s

/-- The clock request takes effect (R56): to fixed frequency, HCLK goes to 1.5 GHz and every Damper to DAMPER_FIX. -/
def State.clockApply (s : State) (r : ClockReq) : State :=
  let m := s.f CHIP_MODE_MODE
  let s := State.setPwr { s with clk := none } (fun p => { p with fix := r.damper })
  let s := (s.setF CHIP_MODE_STAT_CLK_PENDING 0).setF CHIP_MODE_MODE (m / 4 * 4 + r.fixed.toNat * 2 + m % 2)
  if r.fixed then s.baseClock.fixDamper r.damper else s

/-- A clock request whose epoch has come takes effect. -/
def State.clockDue (s : State) : State :=
  match s.clk with
  | none => s
  | some r => s.when (r.epoch ≤ s.epoch) fun s => s.clockApply r

/-- CLOCK_REQUEST_APPLY (R54, R56). -/
def execClockRequestApply (s : State) : Host.Outcome State Fault Refusal := .next s.clockDue

/-! ### The epoch (R323, R327, R336 to R340) -/

/-- Is the chip in the safe state. -/
def State.isSafe (s : State) : Bool := s.on FLT_STAT_SAFE

/-- Energy in pJ is added to PWR_ENERGY, whose remainder below 1 µJ is kept (R340). -/
def State.addEnergy (s : State) (pj : Nat) : State :=
  let t := s.pwr.frac + pj
  let e := min (s.pwr.energy + t / 1000000) (2 ^ 64 - 1)
  (s.setPwr (fun p => { p with energy := e, frac := t % 1000000 })).rset PWR_ENERGY_LO (BitVec.ofNat 32 e)

/-- cap_eff (R338). -/
def State.capEff (s : State) (pfix : Int) : Int := max ((s.f PWR_CAP_CAP : Int) * 1000000 - s.pwr.drop) (min pfix ((s.f PWR_CAP_CAP : Int) * 1000000))

/-- Throttling moves cap_eff by 20 W per ms of NT: 20 mW in each µs, of which `n` have passed. -/
def State.throttle (s : State) (n : Nat) (pfix : Int) : State :=
  let room := ((s.f PWR_CAP_CAP : Int) * 1000000 - pfix).toNat
  s.setPwr (fun p => { p with drop := if s.on PWR_STAT_THROTTLE then min (p.drop + 20000 * n) room else p.drop - 20000 * n })

/-- A power in units of 0.1 W for a 16-bit field. -/
def deciWatt (p : Int) : Nat := min (p / 100000).toNat 65535

/-- R337: an overrun epoch, or the end of an overrun. -/
def State.overrun (s : State) (is : Bool) : State :=
  if is then
    let n := s.pwr.overs + 1
    let s := (s.setPwr (fun p => { p with overs := n })).count C_PWR_OVER_EPOCHS
    if n = 1 then (s.flag PWR_STAT_OVER).raise 2 1 3
    else if n = 1000 then { s with flt := { s.flt with pend := s.flt.pend ++ [{ cls := 2, level := 2, code := 3, lift := true, react := s.reactWord 2, cc := s.cc }] } }
    else s
  else s.setPwr (fun p => { p with overs := 0 })

/-- Boost (R327, R329): the share, the Damper values and Bellows. -/
def State.boost (s : State) (cap pfix : Int) : State :=
  let margin : Int := (s.f PWR_CAP_MARGIN + (if s.pwr.failed then 50 else 0) : Nat) * 1000000
  let deferred := (List.range 32).filter (fun e => s.on PWR_ENG_DEFER e)
  let (r, df) := s.shareAll (cap - margin - pfix) 32 deferred
  let s := (s.lowerTo r.k).setF PWR_SHARE_S (deciWatt r.s)
  let s := s.setF PWR_STAT_FLOOR (if r.s = 0 then 1 else 0)
  let s := (List.range 32).foldl (fun s e => s.takeTarget df e (r.d.getD e 32)) s
  s.bellows r.s

/-- One power epoch, `n` epochs after the one before it.  A_fix, the weighted activity of the rest of the chip, is a free value: its weights are fixed in silicon. -/
def State.powerEpoch (s : State) (n : Nat) : State :=
  let s := s.clockDue.moveUp
  let aFix := s.freeVal
  let s := s.fresh
  let aHob : Nat := (List.range 32).foldl (fun a e => a + s.hob.scaled.get e) 0 / 1000
  let fixed : Nat := s.pwr.gain * aFix / 2 ^ 30
  let pfix : Int := fixed + s.pwr.off
  let act : Nat := s.pwr.gain * (aFix + aHob) / 2 ^ 30
  let est : Int := (act : Int) + s.pwr.off
  let s := s.setPwr (fun p => { p with est := est, sumEst := p.sumEst + est, sumA := p.sumA + act, n := p.n + 1 })
  let s := (s.setF PWR_EST_HOB (deciWatt (s.pwr.gain * aHob / 2 ^ 30 : Nat))).setF PWR_EST_FIX (deciWatt pfix)
  let s := if s.pwr.failed then s.addEnergy est.toNat else s
  let idle := (List.range 32).all (fun e => s.hob.requests.get e == 0)
  let s := (List.range 32).foldl (fun s e => (s.setF PWR_ENG_U (min (s.issueFrac e * 255 / 65536) 255) e).learn e) s
  let s := s.throttle n pfix
  let cap := s.capEff pfix
  let s := s.setF PWR_SHARE_CAP_EFF (cap / 1000000).toNat
  let floored := s.point == 0 && ((List.range 32).all (fun e => s.damper e == 1 || s.hob.requests.get e == 0) || idle)
  let s := s.overrun ((cap < est) && (s.fixedClock || floored))
  let s := if s.isSafe then s else if s.fixedClock then s.fixDamper s.pwr.fix else s.boost cap pfix
  { s.setPwr (fun p => { p with hcFrom := s.hob.hc, wasFixed := s.fixedClock }) with
      hob := { s.hob with requests := [], issued := [], energy := [], scaled := [], lived := [] } }

/-- POWER_EPOCH (R53, R327): at every whole µs of NT. -/
def execPowerEpoch (s : State) : Host.Outcome State Fault Refusal :=
  .next (s.when (s.pwr.epoch < s.nt / usUnit) fun s =>
    let n := s.nt / usUnit - s.pwr.epoch
    ((s.count C_TIME_SKIP (n - 1)).setPwr (fun p => { p with epoch := s.nt / usUnit })).powerEpoch n)

/-! ### Measurement and calibration (R324, R325) -/

/-- Clamp an integer. -/
def clampInt (lo hi x : Int) : Int := max lo (min x hi)

/-- A clamp that binds sets CAL_LIMIT and raises POWER at level 0. -/
def State.calLimit (s : State) (b : Bool) : State := if b then (s.flag PWR_STAT_CAL_LIMIT).raise 2 0 1 else s

/-- Calibrate from a measurement `p` in µW (R324). -/
def State.calibrate (s : State) (p : Int) : State :=
  let w := s.pwr
  let mean := if w.n = 0 then w.est else w.sumEst / w.n
  let a := if w.n = 0 then 0 else w.sumA / w.n
  let o := w.off + (p - mean) / 8
  let o' := clampInt (-100000000) 100000000 o
  let s := (s.setPwr (fun w => { w with off := o' })).calLimit (o != o')
  let s := match w.prev with
    | none => s
    | some (pp, pa) =>
      let da : Int := (a : Int) - pa
      if (w.gain : Int) * da.natAbs < 50000000 * 2 ^ 30 then s
      else
        let gn : Int := w.gain * (p - pp) / da
        let g := (w.gain : Int) + (gn - w.gain) / 16
        let g' := clampInt (2 ^ 29) (2 ^ 31) g
        (s.setPwr (fun w => { w with gain := g'.toNat })).calLimit (g != g')
  let s := s.setPwr (fun w => { w with prev := some (p, a) })
  (s.setF PWR_CAL_GAIN (min (s.pwr.gain / 65536) 0x8000)).setF PWR_CAL_OFFSET (unsigned 16 (s.pwr.off / 100000))

/-- One measurement (R324, R325, R340): `total` and `hob` in units of 0.1 W. -/
def State.measure (s : State) (total hob : Nat) (valid : Bool) : State :=
  let s := if valid then
      let s := (s.setF PWR_MEAS_TOTAL total).setF PWR_MEAS_HOB hob
      let s := if s.pwr.failed then s else (s.calibrate (total * 100000 : Nat)).addEnergy (total * 100000 * 50)
      let s := s.setPwr (fun p => { p with bad := 0, good := min (p.good + 1) 3 })
      if s.pwr.failed && 3 ≤ s.pwr.good then (s.setPwr (fun p => { p with failed := false })).setF PWR_STAT_EST_ENERGY 0 else s
    else
      let s := s.setPwr (fun p => { p with good := 0, bad := min (p.bad + 1) 3 })
      if !s.pwr.failed && 3 ≤ s.pwr.bad then
        (((s.setPwr (fun p => { p with failed := true })).flag PWR_STAT_SENSOR_FAIL).setF PWR_STAT_EST_ENERGY 1).raise 2 1 2
      else s
  s.setPwr (fun p => { p with sumEst := 0, sumA := 0, n := 0 })

/-- POWER_MEASUREMENT (R324): every 50 µs of NT; a reading outside 0 W to 2,000 W is invalid. -/
def execPowerMeasurement (total hob : Nat) (valid : Bool) (s : State) : Host.Outcome State Fault Refusal :=
  .next (s.when (s.pwr.meas < s.nt / (50 * usUnit)) fun s =>
    let s := s.count C_TIME_SKIP (s.nt / (50 * usUnit) - s.pwr.meas - 1)
    (s.setPwr (fun p => { p with meas := s.nt / (50 * usUnit) })).measure total hob (valid && total ≤ 20000))

/-! ### Hints (R333) -/

/-- HINT_SUBMIT (R333): a write of PWR_HINT. -/
def execHintSubmit (v : Word) (s : State) : Host.Outcome State Fault Refusal :=
  .next (s.hintSubmit (s.f PWR_HINT_MASK_ENG) (wordBits v 0 6) (wordBits v 8 3) (wordBits v 16 16))

/-- A hint applies: its engines take its phase and OPP; one whose point is not reached counts as late.  In fixed-frequency mode the OPP is
ignored (R50). -/
def State.applyHint (s : State) (h : Hint) : State :=
  let es := (List.range 32).filter (natBit h.mask)
  let s := es.foldl (fun s e => s.setF PWR_ENG_PHASE h.phase e) s
  let s := if s.fixedClock then s else es.foldl (fun s e => s.setPwr (fun p => { p with opp := p.opp.set e (7 - h.opp) })) s
  if s.fixedClock then s
  else if h.opp ≤ 4 && s.point < h.opp then (s.count C_PWR_HINT_LATE).setPwr (fun p => { p with chase := max p.chase h.opp }) else s

/-- HINT_DUE (R333): hints that fall due apply in the order of acceptance. -/
def execHintDue (s : State) : Host.Outcome State Fault Refusal :=
  let due := s.pwr.hints.filter (fun h => h.due * usUnit ≤ s.nt)
  .next ((due.foldl State.applyHint s).setPwr (fun p => { p with hints := p.hints.filter (fun h => !(h.due * usUnit ≤ s.nt)) }))

/-! ### Thermal readings (R338) -/

/-- A reading of a sensor: its 16 bits in 0.25 °C, none when it reports open. -/
def sensorOf (temps : List (Nat × Nat)) (k : Nat) : Option Int :=
  match temps.find? (fun e => e.1 == k) with
  | some e => if -160 ≤ signed 16 e.2 ∧ signed 16 e.2 ≤ 600 then some (signed 16 e.2) else none
  | none => none

/-- One sensor is read: VALID and TEMP, or its exclusion, which raises THERMAL once. -/
def State.readSensor (s : State) (temps : List (Nat × Nat)) (k : Nat) : State :=
  match sensorOf temps k with
  | some t =>
    ((s.setF PWR_TSENS_VALID 1 k).setF PWR_TSENS_TEMP (unsigned 16 t) k).setPwr (fun p =>
      { p with sensors := if natBit p.sensors k then p.sensors - 2 ^ k else p.sensors })
  | none =>
    let s := s.setF PWR_TSENS_VALID 0 k
    if natBit s.pwr.sensors k then s else (s.setPwr (fun p => { p with sensors := p.sensors + 2 ^ k })).raise 3 1 4 k

/-- Tmax and the lowest sensor that reads it, none when no sensor is valid. -/
def State.hottest (s : State) : Option (Int × Nat) :=
  ((List.range 64).filter (fun k => s.on PWR_TSENS_VALID k)).foldl (fun a k =>
    let t := signed 16 (s.f PWR_TSENS_TEMP k)
    match a with
    | none => some (t, k)
    | some b => if b.1 < t then some (t, k) else a) none

/-- The WARN, HI and TRIP thresholds judged against Tmax in 0.25 °C. -/
def State.judgeHeat (s : State) (t : Int) : State :=
  let at_ := fun (f : Fld) (below : Int) => ((s.f f : Int) - below) * 4
  let s := if !s.pwr.warn && at_ PWR_THERM_WARN 0 ≤ t then (s.setPwr (fun p => { p with warn := true })).raise 3 0 1
    else if t < at_ PWR_THERM_WARN 2 then s.setPwr (fun p => { p with warn := false }) else s
  let s := if !s.pwr.hi && at_ PWR_THERM_HI 0 ≤ t then ((s.setPwr (fun p => { p with hi := true })).setF PWR_STAT_THROTTLE 1).raise 3 1 2
    else if t < at_ PWR_THERM_HI 2 then (s.setPwr (fun p => { p with hi := false })).setF PWR_STAT_THROTTLE 0 else s
  let n := if at_ PWR_THERM_TRIP 0 ≤ t then min (s.pwr.trips + 1) 2 else 0
  let s := s.setPwr (fun p => { p with trips := n })
  if !s.pwr.trip && n == 2 then (s.setPwr (fun p => { p with trip := true })).raise 3 3 3
  else if t < at_ PWR_THERM_TRIP 5 then s.setPwr (fun p => { p with trip := false }) else s

/-- THERMAL_READING (R338): every 10 µs. -/
def execThermalReading (temps : List (Nat × Nat)) (s : State) : Host.Outcome State Fault Refusal :=
  .next (s.when (s.pwr.therm < s.nt / (10 * usUnit)) fun s =>
    let s := s.setPwr (fun p => { p with therm := s.nt / (10 * usUnit) })
    let s := (List.range 64).foldl (fun s k => s.readSensor temps k) s
    match s.hottest with
    | none => s
    | some (t, k) => ((s.setF PWR_TMAX_TEMP (unsigned 16 t)).setF PWR_TMAX_SENSOR k).judgeHeat t)

/-! ### Reads and clears -/

/-- PWR_ENERGY_READ (R340): a read of PWR_ENERGY_LO snapshots PWR_ENERGY_HI. -/
def State.pwrEnergyReadCmd (s : State) : State :=
  s.rset PWR_ENERGY_HI (BitVec.ofNat 32 (s.pwr.energy / 2 ^ 32))

/-- PWR_ENERGY_READ. -/
def execPwrEnergyRead (s : State) : Host.Outcome State Fault Refusal := .next (s.pwrEnergyReadCmd)

/-- PWR_CNT_CLR (R342). -/
def State.pwrCntClrCmd (s : State) : State :=
  s.cclrs [C_PWR_OVER_EPOCHS, C_PWR_DEFER, C_PWR_DEFER_TMO, C_PWR_HINT_LATE]

/-- PWR_CNT_CLR. -/
def execPwrCntClr (s : State) : Host.Outcome State Fault Refusal := .next (s.pwrCntClrCmd)

/-- The engines' part of the safe state (R314, R339): HCLK to point 0, deferrals end, engines halt and their contexts abort. -/
def State.hobSafe (s : State) : State :=
  let s := s.baseClock
  let s := (List.range 32).foldl (fun s e => (s.setF PWR_ENG_DEFER 0 e).setF HOB_ENG_STAT_HALTED 1 e) s
  s.hobActive.foldl (fun s x => s.hobAbort x 6) s

/-- Leaving the safe state: the engines run again and every D restarts at 32, until the next epoch forms it (R339). -/
def State.hobResume (s : State) : State :=
  (List.range 32).foldl (fun s e => ((s.setF HOB_ENG_STAT_HALTED 0 e).setF HOB_ENG_STAT_DAMPER 32 e).setF PWR_ENG_TARGET_D 32 e) s

end Sys2Proof.Machine
end

