-- ==== Sys2Proof/Machine/Domain.lean ====
section
/-! DEFINITION. Domain membership: hello frames, the local view, and the states of domain links (R343 to R356). -/

namespace Sys2Proof.Machine

/-! ### The local view (R350) -/

/-- The values of the compared fields in force now, by the numbers of `Dom.view`. -/
def State.viewNow (s : State) (n : Nat) : Nat :=
  [s.ca DOM_ID_DOMAIN_ID, s.ca DOM_CHIP_CHIP_ID, s.f GEN_ACTIVE_NUM, s.f GEN_DIGEST_HI_DIGEST * 2 ^ 32 + s.f GEN_DIGEST_LO_DIGEST,
   s.ucVersion, s.f CHIP_MODE_MODE, s.f TIME_STAT_STATE, s.f DOM_GM_HI_GM * 2 ^ 32 + s.f DOM_GM_LO_GM].getD n 0

/-- The domain engine keeps the current and the previous value of each compared field, with the NT of the change. -/
def State.viewSync (s : State) : State :=
  (List.range 8).foldl (fun s n =>
    let v := s.dom.view.get n
    let now := s.viewNow n
    if v.cur = now then s
    else { s with dom := { s.dom with view := s.dom.view.set n { cur := now, prev := v.cur, changed := s.nt } } }) s

/-- The values of a field that agree at local NT `tx`: the one in force then and, for a commit or clock-axis change within the
tolerance of it, the other one too. -/
def State.viewAt (s : State) (n : Nat) (tx : Int) : List Nat :=
  let v := s.dom.view.get n
  let d : Int := tx - (v.changed : Int)
  let tol : Int := (s.ca DOM_HELLO_TOL_NS * nsUnit : Nat)
  if (n < 4 || n == 5) && -tol ≤ d && d ≤ tol then [v.cur, v.prev] else if 0 ≤ d then [v.cur] else [v.prev]

/-! ### The hello frame (R345, R346) -/

/-- A hello of port `p` sent with T_tx `tx` (an NT): the frame without its FCS. -/
def State.helloFrame (s : State) (p tx : Nat) : List Byte :=
  let v := s.viewNow
  let body := wordsBytes [0x4E481000 + v 5 * 32 + v 6 * 8 + s.f TIME_STAT_CAUSE * 2, v 0, v 1 * 65536 + p, v 2, v 3 / 2 ^ 32, v 3 % 2 ^ 32, v 4,
    v 7 / 2 ^ 32, v 7 % 2 ^ 32, ntSec tx / 2 ^ 32 % 65536 * 65536 + ntFrac tx, ntSec tx % 2 ^ 32, ntNsField tx, (s.dp p).hseq,
    s.ca DOM_HELLO_PERIOD_US * 65536, 0, 0]
  [0x03, 0x4E, 0x48, 0x00, 0x00, 0x01] ++ s.sourceAddr p ++ [0x88, 0xB5] ++ body

/-- HELLO_SEND (R345): an UP domain link sends in every epoch e with (e - p) mod PERIOD_US = 0; in factory test state none is sent (R473). -/
def execHelloSend (p : Fin 512) (s : State) : Host.Outcome State Fault Refusal :=
  let st := s.f DOM_PORT_STAT_STATE p
  .next (s.when (s.macUp p && (st == 1 || st == 2) && !s.flt.test && ((s.epoch : Int) - p.val) % (s.ca DOM_HELLO_PERIOD_US : Int) == 0 &&
      (s.dp p).sentEpoch != s.epoch + 1) fun s =>
    (s.setDp p (fun d => { d with sentEpoch := s.epoch + 1 })).queueGen p { hello := true, made := s.cc })

/-! ### Judging a hello (R347, R349, R350) -/

/-- A field of a hello body: bits of word `i`. -/
def helloBits (b : List Byte) (i lsb n : Nat) : Nat := natBits (fieldAt b (4 * i) 4) lsb n

/-- TX of a hello in 1/65,536 ns. -/
def helloTx (b : List Byte) : Nat :=
  ((helloBits b 9 16 16 * 2 ^ 32 + helloBits b 10 0 32) * 1000000000 + helloBits b 11 0 32) * 65536 + helloBits b 9 0 16

/-- Is a hello valid (R347). -/
def helloValid (b : List Byte) : Bool :=
  helloBits b 0 16 16 == 0x4E48 && helloBits b 0 12 4 == 1 && helloBits b 0 8 4 == 0 && helloBits b 13 16 16 != 0

/-- epsilon in 1/65,536 ns (R349). -/
def State.helloOffset (s : State) (p : Nat) (h : HelloRx) : Int :=
  h.trx - (s.f TIME_PORT_RXC_CORR p : Int) - (helloTx h.body : Nat) - ((s.f DOM_PORT_PD_PD p * 256 : Nat) : Int)

/-- The first failing check of a valid hello, 0 when it agrees (R350). -/
def State.helloCause (s : State) (p : Nat) (h : HelloRx) : Nat :=
  let b := h.body
  let tx : Int := (helloTx b * 2 ^ 24 : Nat)
  let differs := fun (n v : Nat) => !(s.viewAt n tx).contains v
  let eps := s.helloOffset p h
  let tol : Int := (s.ca DOM_HELLO_TOL_NS * 65536 : Nat)
  if differs 0 (helloBits b 1 0 32) then 3
  else if (s.viewAt 1 tx).all (· == helloBits b 2 16 16) then 4
  else if differs 2 (helloBits b 3 0 32) then 5
  else if differs 3 (helloBits b 4 0 32 * 2 ^ 32 + helloBits b 5 0 32) then 6
  else if differs 4 (helloBits b 6 0 32) then 7
  else if differs 5 (helloBits b 0 5 3) then 8
  else if helloBits b 0 3 2 ≠ servoLocked ∨ differs 6 servoLocked then 9
  else if differs 7 (helloBits b 7 0 32 * 2 ^ 32 + helloBits b 8 0 32) then 10
  else if !s.on DOM_PORT_PD_VALID p then 11
  else if tol < eps ∨ eps < -tol then 12
  else 0

/-- A valid hello that disagrees (R351). -/
def State.helloDisagrees (s : State) (p cause : Nat) : State :=
  if s.f DOM_PORT_STAT_STATE p = 2 then s.leaveAgreed p cause
  else
    let s := (s.setF DOM_PORT_STAT_AGREE_CNT 0 p).setF DOM_PORT_STAT_CAUSE cause p
    if (s.dp p).disagreed then s else (s.setDp p (fun d => { d with disagreed := true })).raise 13 1 cause p

/-- A valid hello that agrees (R351): the third in a row makes a quarantined link AGREED. -/
def State.helloAgrees (s : State) (p : Nat) : State :=
  let n := min (s.f DOM_PORT_STAT_AGREE_CNT p + 1) 3
  let s := s.setF DOM_PORT_STAT_AGREE_CNT n p
  if s.f DOM_PORT_STAT_STATE p = 1 && n == 3 then
    ((s.setF DOM_PORT_STAT_STATE 2 p).setF DOM_PORT_STAT_CAUSE 0 p).flag DOM_PORT_STAT_AGREE_EV p
  else s

/-- Judge a valid hello. -/
def State.judgeHello (s : State) (p : Nat) (h : HelloRx) : State :=
  let s := s.viewSync
  let period := helloBits h.body 13 16 16
  let gap : Bool := match (s.dp p).period with
    | some old => (s.dp p).lastNt + 2 * old * usUnit < s.nt
    | none => false
  let s := if gap then s.setF DOM_PORT_STAT_AGREE_CNT 0 p else s
  let s := s.setDp p (fun d => { d with lastNt := s.nt, period := some period })
  let s := (s.setF DOM_PORT_PEER_CHIP (helloBits h.body 2 16 16) p).setF DOM_PORT_PEER_PORT (helloBits h.body 2 0 9) p
  let eps := s.helloOffset p h / 256
  let s := s.setF DOM_PORT_OFS_EPS (unsigned 32 (clampInt (-(2 ^ 31)) (2 ^ 31 - 1) eps)) p
  let cause := s.helloCause p h
  if cause = 0 then s.helloAgrees p else s.helloDisagrees p cause

/-- HELLO_RECEIVE (R347, R350): the oldest hello of a port is judged; on an edge port it is counted in DOM_BAD and dropped.  In factory test
state a hello is counted and not judged (R473). -/
def execHelloReceive (p : Fin 512) (s : State) : Host.Outcome State Fault Refusal :=
  .next (match (s.dp p).rx with
    | [] => s
    | h :: rest =>
      let s := s.setDp p (fun d => { d with rx := rest })
      let st := s.f DOM_PORT_STAT_STATE p
      if st = 3 || !helloValid h.body then s.count C_DOM_BAD 1 p
      else
        let s := s.count C_DOM_HELLO_RX 1 p
        if st = 0 || s.flt.test then s else s.judgeHello p h)

/-- The silence limit in NT (R351). -/
def State.silenceLimit (s : State) (p : Nat) : Nat := 4 * ((s.dp p).period.getD (s.ca DOM_HELLO_PERIOD_US)) * usUnit

/-- HELLO_SILENCE (R351): no valid hello within the silence limit; an AGREED link leaves it, a quarantined one shows cause 2 and raises
DOMAIN once per entry.  In factory test state every link stays in QUARANTINED with cause 1 (R473). -/
def execHelloSilence (p : Fin 512) (s : State) : Host.Outcome State Fault Refusal :=
  let st := s.f DOM_PORT_STAT_STATE p
  .next (s.when ((st == 1 || st == 2) && !s.flt.test && (s.dp p).lastNt + s.silenceLimit p < s.nt) fun s =>
    if st = 2 then (s.leaveAgreed p 2).setDp p (fun d => { d with lastNt := s.nt })
    else
      let s := s.setF DOM_PORT_STAT_CAUSE 2 p
      if (s.dp p).silent then s else (s.setDp p (fun d => { d with silent := true })).raise 13 1 2 p)

/-- DOM_PORT_CLR (R356). -/
def State.domPortClrCmd (s : State) (p : Nat) : State :=
  s.cclrs [C_DOM_HELLO_TX, C_DOM_HELLO_RX, C_DOM_BAD, C_DOM_QRX_DROP, C_DOM_Q_ENTRIES] p

/-- DOM_PORT_CLR. -/
def execDomPortClr (p : Fin 512) (s : State) : Host.Outcome State Fault Refusal := .next (s.domPortClrCmd p.val)

/-- Domain links in DOWN or QUARANTINED. -/
def State.quarCount (s : State) : Nat := ((List.range 512).filter (fun p => s.f DOM_PORT_STAT_STATE p < 2)).length

/-- The word that DOM_SUM reads (R354, R355). -/
def State.domSumWord (s : State) : Word :=
  let n := s.quarCount
  BitVec.ofNat 32 ((if n = 0 && s.f TIME_STAT_STATE == servoLocked then 2 ^ 31 else 0) + n)

end Sys2Proof.Machine
end

