-- ==== Sys2Proof/Machine/Crypto.lean ====
section
/-! DEFINITION. The published algorithms that patches and boot firmware are checked with (R9): SHA-384 (FIPS 180-4), ECDSA P-384
(FIPS 186-5) and AES-256-GCM. -/

namespace Sys2Proof.Machine

/-- Blocks of `n` elements; the last may be shorter. -/
def blocksOf (n : Nat) (b : List α) : List (List α) := (List.range ((b.length + n - 1) / n)).map (fun i => (b.drop (n * i)).take n)

/-! ### SHA-384 -/

/-- The 80 round constants: the first 64 bits of the fractional parts of the cube roots of the first 80 primes. -/
def shaK : List (BitVec 64) :=
  [0x428A2F98D728AE22, 0x7137449123EF65CD, 0xB5C0FBCFEC4D3B2F, 0xE9B5DBA58189DBBC,
   0x3956C25BF348B538, 0x59F111F1B605D019, 0x923F82A4AF194F9B, 0xAB1C5ED5DA6D8118,
   0xD807AA98A3030242, 0x12835B0145706FBE, 0x243185BE4EE4B28C, 0x550C7DC3D5FFB4E2,
   0x72BE5D74F27B896F, 0x80DEB1FE3B1696B1, 0x9BDC06A725C71235, 0xC19BF174CF692694] ++
  [0xE49B69C19EF14AD2, 0xEFBE4786384F25E3, 0x0FC19DC68B8CD5B5, 0x240CA1CC77AC9C65,
   0x2DE92C6F592B0275, 0x4A7484AA6EA6E483, 0x5CB0A9DCBD41FBD4, 0x76F988DA831153B5,
   0x983E5152EE66DFAB, 0xA831C66D2DB43210, 0xB00327C898FB213F, 0xBF597FC7BEEF0EE4,
   0xC6E00BF33DA88FC2, 0xD5A79147930AA725, 0x06CA6351E003826F, 0x142929670A0E6E70] ++
  [0x27B70A8546D22FFC, 0x2E1B21385C26C926, 0x4D2C6DFC5AC42AED, 0x53380D139D95B3DF,
   0x650A73548BAF63DE, 0x766A0ABB3C77B2A8, 0x81C2C92E47EDAEE6, 0x92722C851482353B,
   0xA2BFE8A14CF10364, 0xA81A664BBC423001, 0xC24B8B70D0F89791, 0xC76C51A30654BE30,
   0xD192E819D6EF5218, 0xD69906245565A910, 0xF40E35855771202A, 0x106AA07032BBD1B8] ++
  [0x19A4C116B8D2D0C8, 0x1E376C085141AB53, 0x2748774CDF8EEB99, 0x34B0BCB5E19B48A8,
   0x391C0CB3C5C95A63, 0x4ED8AA4AE3418ACB, 0x5B9CCA4F7763E373, 0x682E6FF3D6B2B8A3,
   0x748F82EE5DEFB2FC, 0x78A5636F43172F60, 0x84C87814A1F0AB72, 0x8CC702081A6439EC,
   0x90BEFFFA23631E28, 0xA4506CEBDE82BDE9, 0xBEF9A3F7B2C67915, 0xC67178F2E372532B] ++
  [0xCA273ECEEA26619C, 0xD186B8C721C0C207, 0xEADA7DD6CDE0EB1E, 0xF57D4F7FEE6ED178,
   0x06F067AA72176FBA, 0x0A637DC5A2C898A6, 0x113F9804BEF90DAE, 0x1B710B35131C471B,
   0x28DB77F523047D84, 0x32CAAB7B40C72493, 0x3C9EBE0A15C9BEBC, 0x431D67C49C100D4C,
   0x4CC5D4BECB3E42B6, 0x597F299CFC657E2A, 0x5FCB6FAB3AD6FAEC, 0x6C44198C4A475817]

/-- The initial hash value. -/
def shaInit : List (BitVec 64) :=
  [0xCBBB9D5DC1059ED8, 0x629A292A367CD507, 0x9159015A3070DD17, 0x152FECD8F70E5939,
   0x67332667FFC00B31, 0x8EB44A8768581511, 0xDB0C2E0D64F98FA7, 0x47B5481DBEFA4FA4]

/-- The padded message: a one bit, zeros, and the length in bits in 16 bytes. -/
def shaPad (b : List Byte) : List Byte :=
  b ++ 0x80#8 :: List.replicate ((239 - b.length % 128) % 128) 0#8 ++ natBytes 16 (8 * b.length)

/-- The message schedule of a block of 16 words, latest word first. -/
def shaSchedule (m : List (BitVec 64)) : List (BitVec 64) :=
  (List.range 64).foldl (fun w _ =>
    let a := w.getD 1 0
    let c := w.getD 14 0
    let s1 := a.rotateRight 19 ^^^ a.rotateRight 61 ^^^ a >>> 6
    let s0 := c.rotateRight 1 ^^^ c.rotateRight 8 ^^^ c >>> 7
    (s1 + w.getD 6 0 + s0 + w.getD 15 0) :: w) m.reverse

/-- One round on the working variables a to h. -/
def shaRound (v : List (BitVec 64)) (kw : BitVec 64) : List (BitVec 64) :=
  match v with
  | [a, b, c, d, e, f, g, h] =>
    let t1 := h + (e.rotateRight 14 ^^^ e.rotateRight 18 ^^^ e.rotateRight 41) + (e &&& f ^^^ ~~~e &&& g) + kw
    let t2 := (a.rotateRight 28 ^^^ a.rotateRight 34 ^^^ a.rotateRight 39) + (a &&& b ^^^ a &&& c ^^^ b &&& c)
    [t1 + t2, a, b, c, d + t1, e, f, g]
  | _ => v

/-- The hash value after one more block of 128 bytes. -/
def shaBlock (h : List (BitVec 64)) (b : List Byte) : List (BitVec 64) :=
  let m := (blocksOf 8 b).map (fun x => BitVec.ofNat 64 (beNat x))
  let kw := List.zipWith (· + ·) shaK (shaSchedule m).reverse
  List.zipWith (· + ·) h (kw.foldl shaRound h)

/-- SHA-384 of a byte string, as a 384-bit number. -/
def sha384 (b : List Byte) : Nat :=
  (((blocksOf 128 (shaPad b)).foldl shaBlock shaInit).take 6).foldl (fun a x => a * 2 ^ 64 + x.toNat) 0

/-! ### ECDSA P-384 -/

/-- The prime, the order, the coefficient b and the base point of P-384. -/
def curveP : Nat := 2 ^ 384 - 2 ^ 128 - 2 ^ 96 + 2 ^ 32 - 1
/-- The order of the base point. -/
def curveN : Nat := 0xFFFFFFFFFFFFFFFFFFFFFFFFFFFFFFFFFFFFFFFFFFFFFFFFC7634D81F4372DDF581A0DB248B0A77AECEC196ACCC52973
/-- The coefficient b of y^2 = x^3 - 3x + b. -/
def curveB : Nat := 0xB3312FA7E23EE7E4988E056BE3F82D19181D9C6EFE8141120314088F5013875AC656398D8A2ED19D2A85C8EDD3EC2AEF
/-- The base point. -/
def curveG : Nat × Nat :=
  (0xAA87CA22BE8B05378EB1C71EF320AD746E1D3B628BA79B9859F741E082542A385502F25DBF55296C3A545E3872760AB7,
   0x3617DE4A96262C6F5D9E98BF9292DC29F8F41DBD289A147CE9DA3113B5F0B8C00A60B1CE1D7E819D7A431D7C90EA0E5F)

/-- A power modulo `m`, over the low `k` bits of the exponent, the highest first. -/
def powMod (m b e : Nat) : Nat → Nat
  | 0 => 1
  | k + 1 =>
    let r := powMod m b (e / 2) k
    if e % 2 = 1 then r * r % m * b % m else r * r % m

/-- The inverse modulo a prime of 384 bits. -/
def invMod (m a : Nat) : Nat := powMod m a (m - 2) 384

/-- The sum of two points; none is the point at infinity. -/
def curveAdd : Option (Nat × Nat) → Option (Nat × Nat) → Option (Nat × Nat)
  | none, q => q
  | p, none => p
  | some (x1, y1), some (x2, y2) =>
    if x1 = x2 ∧ (y1 + y2) % curveP = 0 then none
    else
      let l := if x1 = x2 then (3 * x1 * x1 + (curveP - 3)) * invMod curveP (2 * y1 % curveP) % curveP
        else (y2 + curveP - y1) * invMod curveP ((x2 + curveP - x1) % curveP) % curveP
      let x := (l * l + 2 * curveP - x1 - x2) % curveP
      some (x, (l * (x1 + curveP - x) + curveP - y1) % curveP)

/-- A multiple of a point, over the low `k` bits of the multiplier, the highest first. -/
def curveMul (p : Option (Nat × Nat)) (e : Nat) : Nat → Option (Nat × Nat)
  | 0 => none
  | k + 1 =>
    let r := curveMul p (e / 2) k
    let d := curveAdd r r
    if e % 2 = 1 then curveAdd d p else d

/-- Is a signature (r then s, 48 bytes each) valid for a digest under a public key (X then Y, 48 bytes each). -/
def ecdsaOk (key : List Byte) (digest : Nat) (sig : List Byte) : Bool :=
  let x := beNat (key.take 48)
  let y := beNat (key.drop 48)
  let r := beNat (sig.take 48)
  let s := beNat (sig.drop 48)
  let onCurve := x < curveP && y < curveP && y * y % curveP == (x * x * x + (curveP - 3) * x + curveB) % curveP
  let w := invMod curveN s
  let sum := curveAdd (curveMul (some curveG) (digest * w % curveN) 384) (curveMul (some (x, y)) (r * w % curveN) 384)
  key.length == 96 && sig.length == 96 && onCurve && 1 ≤ r && r < curveN && 1 ≤ s && s < curveN &&
  (match sum with
   | none => false
   | some p => p.1 % curveN == r)

/-! ### AES-256-GCM -/

/-- Multiplication by x in GF(2^8). -/
def aesDouble (a : Byte) : Byte := a <<< 1 ^^^ (if a.getLsbD 7 then 0x1B#8 else 0#8)

/-- Multiplication in GF(2^8). -/
def aesMul (a b : Byte) : Byte :=
  ((List.range 8).foldl (fun (p : Byte × Byte) i => (if b.getLsbD i then p.1 ^^^ p.2 else p.1, aesDouble p.2)) (0#8, a)).1

/-- The inverse in GF(2^8): the 254th power. -/
def aesInv (a : Byte) : Byte := ((List.range 7).foldl (fun (p : Byte × Byte) _ => (aesMul p.1 (aesMul p.2 p.2), aesMul p.2 p.2)) (1#8, a)).1

/-- The S-box. -/
def aesSbox (a : Byte) : Byte :=
  let b := aesInv a
  b ^^^ b.rotateLeft 1 ^^^ b.rotateLeft 2 ^^^ b.rotateLeft 3 ^^^ b.rotateLeft 4 ^^^ 0x63#8

/-- The 60 words of the key schedule of a 32-byte key, latest first. -/
def aesSchedule (key : List Byte) : List (List Byte) :=
  (List.range 52).foldl (fun w i =>
    let t := w.headD []
    let t := if i % 8 = 0 then
        let u := (t.drop 1 ++ t.take 1).map aesSbox
        (u.headD 0 ^^^ BitVec.ofNat 8 (2 ^ (i / 8))) :: u.drop 1
      else if i % 8 = 4 then t.map aesSbox else t
    List.zipWith (· ^^^ ·) t (w.getD 7 []) :: w) (blocksOf 4 key).reverse

/-- The round keys, 16 bytes each. -/
def aesKeys (key : List Byte) : List (List Byte) := blocksOf 16 (aesSchedule key).reverse.flatten

/-- SubBytes and ShiftRows; byte 4c + r of a state is row r of column c. -/
def aesSubShift (b : List Byte) : List Byte := (List.range 16).map (fun i => aesSbox (b.getD ((i + 4 * (i % 4)) % 16) 0))

/-- MixColumns. -/
def aesMix (b : List Byte) : List Byte :=
  (List.range 16).map (fun i =>
    let at_ (k : Nat) : Byte := b.getD (i / 4 * 4 + (i + k) % 4) 0
    aesDouble (at_ 0) ^^^ aesDouble (at_ 1) ^^^ at_ 1 ^^^ at_ 2 ^^^ at_ 3)

/-- AES-256 of one block under round keys. -/
def aesBlock (keys : List (List Byte)) (b : List Byte) : List Byte :=
  let mix := List.zipWith (· ^^^ · : Byte → Byte → Byte)
  let r := ((keys.drop 1).take 13).foldl (fun b k => mix (aesMix (aesSubShift b)) k) (mix b (keys.headD []))
  mix (aesSubShift r) (keys.getD 14 [])

/-- Multiplication in GF(2^128) as GCM orders its bits: bit 127 of a number is the first. -/
def ghashMul (a b : Nat) : Nat :=
  ((List.range 128).foldl (fun (p : Nat × Nat) i =>
    (if a.testBit (127 - i) then p.1 ^^^ p.2 else p.1, if p.2 % 2 = 1 then p.2 / 2 ^^^ 0xE1 * 2 ^ 120 else p.2 / 2)) (0, b)).1

/-- GHASH of additional data and cipher text under the hash key `h`. -/
def ghash (h : Nat) (aad text : List Byte) : Nat :=
  let blocks (b : List Byte) : List Nat := (blocksOf 16 b).map (fun x => beNat (x ++ List.replicate (16 - x.length) 0))
  (blocks aad ++ blocks text ++ [8 * aad.length * 2 ^ 64 + 8 * text.length]).foldl (fun y x => ghashMul (y ^^^ x) h) 0

/-- AES-256-GCM opening: key, 12-byte nonce, additional data, cipher text and tag to the plain text, or none when the tag fails. -/
def gcmOpen (key iv aad text tag : List Byte) : Option (List Byte) :=
  let keys := aesKeys key
  let counter (i : Nat) : List Byte := aesBlock keys (iv ++ natBytes 4 i)
  let h := beNat (aesBlock keys (List.replicate 16 0))
  if beNat tag = beNat (counter 1) ^^^ ghash h aad text then
    some (List.zipWith (· ^^^ ·) text ((List.range ((text.length + 15) / 16)).map (fun i => counter (i + 2))).flatten)
  else none

end Sys2Proof.Machine
end

