-- ==== Sys2Proof/Machine/Microcode.lean ====
section
/-! DEFINITION. Microcode: words, sequencing, parity and traps as functions (R402 to R412), and the patch loader with its registers
(R413 to R419).  What a macroinstruction does is its own meaning (R380); the ROM contents are not in the spec. -/

namespace Sys2Proof.Machine

/-! ### Words and sequencing (R402 to R406, R410, R412) -/

/-- Is a micro-address mapped, with `n` patch microwords. -/
def microMapped (n a : Nat) : Bool := a < 0x4000 || (0x4000 ≤ a && a < 0x4000 + n)

/-- Is a nano-address mapped, with `n` patch nanowords. -/
def nanoMapped (n a : Nat) : Bool := a < 0x800 || (0x800 ≤ a && a < 0x800 + n)

/-- NEXT, NANO, SEQ and the sc that a microword takes (R403). -/
def microNext (w : Word) : Nat := wordBits w 3 15
def microNano (w : Word) : Nat := wordBits w 18 12
def microSeq (w : Word) : Nat := wordBits w 30 2
def microSc (w : Word) : Nat := wordBits w 0 3 + 1

/-- The parity bit that gives `w` bits of a word, together with it, an even number of ones (R410). -/
def parityBit (w v : Nat) : Nat := ones w v % 2

/-- The condition bits of R406: bit i is CMASK[i] and (condition CSELi xor CINV[i]); `cond` gives the value of each source. -/
def condBits (nano : Nat) (cond : Nat → Bool) : Nat :=
  (List.range 4).foldl (fun a i =>
    if natBit (natBits nano 164 4) i && xor (cond (natBits nano (168 + 6 * i) 6)) (natBit (natBits nano 160 4) i) then a + 2 ^ i else a) 0

/-- The next micro-address (R406): `popped` from the micro-stack for RET, `opc` of the instruction just fetched for DISPATCH. -/
def nextMicro (w : Word) (popped opc cbits : Nat) : Nat :=
  match microSeq w with
  | 2 => popped ||| cbits
  | 3 => microNext w ||| (opc * 4) ||| cbits
  | _ => microNext w ||| cbits

/-- ALU_OP of R404 on 64-bit operands. -/
def microAlu (op : Nat) (a b : BitVec 64) : BitVec 64 :=
  match op with
  | 0 => a
  | 1 => b
  | 2 => a + b
  | 3 => a - b
  | 4 => a &&& b
  | 5 => a ||| b
  | 6 => a ^^^ b
  | 7 => a <<< (b.toNat % 64)
  | 8 => a >>> (b.toNat % 64)
  | 9 => a.sshiftRight (b.toNat % 64)
  | 10 => a * b
  | 11 => if a.toInt < b.toInt then 1 else 0
  | 12 => if a.toNat < b.toNat then 1 else 0
  | 13 => a + 8
  | 14 => a + 32
  | 15 => BitVec.ofNat 64 (a.toNat % 2 ^ 32)
  | _ => 0

/-- The micro-address that is fetched for a formed address while the traps are as they stand; one whose parity fails is as disabled (R412). -/
def State.trapped (s : State) (a : Nat) : Nat :=
  if s.on UC_CTL_TRAP_ON then
    match (List.range 64).find? (fun n => s.on UC_TRAP_EN n && s.f UC_TRAP_FROM n == a && a < 0x4000 && parityBit 32 (s.rget UC_TRAP n).toNat == 0) with
    | some n => 0x4000 + s.f UC_TRAP_TO n
    | none => a
  else a

/-! ### Registers (R413, R414, R418) -/

/-- The word that UC_OTP reads: the fused value; in factory test state every slot reads as revoked (R473). -/
def State.ucOtp (s : State) : Word :=
  BitVec.ofNat 32 ((if s.flt.test then 0xF else Config.fused 2 / 2 ^ 28 % 16) * 2 ^ 28 + Config.fused 2 % 65536)

/-- The patch RAM word that UC_PDATA reads. -/
def State.pdata (s : State) : Word :=
  let a := s.f UC_PADDR_ADDR
  if a < 0x400 then s.uc.micro.get a
  else if 0x1000 ≤ a ∧ a < 0x1000 + 6 * 256 then BitVec.ofNat 32 (natBits (s.uc.nano.get ((a - 0x1000) / 6)) (32 * ((a - 0x1000) % 6)) 32)
  else 0

/-- A read of UC_PDATA moves ADDR on when AUTO_INC is 1. -/
def State.pdataRead (s : State) : State := if s.on UC_PADDR_AUTO_INC then s.setF UC_PADDR_ADDR (s.f UC_PADDR_ADDR + 1) else s

/-- UC_PDATA_READ (R418). -/
def execUcPdataRead (s : State) : Host.Outcome State Fault Refusal := .next s.pdataRead

/-- UC_CNT_CLR (R419). -/
def State.ucCntClrCmd (s : State) : State :=
  s.cclr C_UC_PAR_ERR

/-- UC_CNT_CLR. -/
def execUcCntClr (s : State) : Host.Outcome State Fault Refusal := .next (s.ucCntClrCmd)

/-- TRAP_ON (R413, R414): takes effect only while LOADED is 1; UC_VER then takes the image's. -/
def State.trapOn (s : State) : State :=
  if s.on UC_CTL_LOCK || !s.on UC_STAT_LOADED then s
  else (s.setF UC_CTL_TRAP_ON 1).rset UC_VER (BitVec.ofNat 32 s.uc.version)

/-- TRAP_ON (R413). -/
def execTrapOn (s : State) : Host.Outcome State Fault Refusal := .next s.trapOn

/-- LOCK (R413). -/
def State.lockCmd (s : State) : State :=
  s.setF UC_CTL_LOCK 1

/-- LOCK. -/
def execLock (s : State) : Host.Outcome State Fault Refusal := .next (s.lockCmd)

/-! ### The patch loader (R415 to R417) -/

/-- LOAD_GO (R416, R417): check 1 refuses a load that is locked out, runs already, reaches beyond the SRAM, or comes after TRAP_ON. -/
def State.loadGo (s : State) : State :=
  let a := s.f UC_LOAD_ADDR_SOFS
  let n := s.f UC_LOAD_LEN_BYTES
  if s.on UC_CTL_LOCK || s.uc.load.isSome || s.on UC_CTL_TRAP_ON || 2 ^ 24 < a + n then s.setF UC_STAT_RESULT 2
  else State.setF { s with uc := { s.uc with load := some (s.cc, a, n) } } UC_STAT_BUSY 1

/-- LOAD_GO (R416). -/
def execLoadGo (s : State) : Host.Outcome State Fault Refusal := .next s.loadGo

/-- The parts of a patch image. -/
def imgTraps (b : List Byte) : Nat := fieldAt b 12 2
def imgMicro (b : List Byte) : Nat := fieldAt b 14 2
def imgNano (b : List Byte) : Nat := fieldAt b 16 2
def imgBodyLen (b : List Byte) : Nat := fieldAt b 20 4

/-- Check 2: MAGIC, FMT, FLAGS, counts, BODY_LEN and the length. -/
def imgFormat (b : List Byte) : Bool :=
  fieldAt b 0 4 == 0x4E485543 && fieldAt b 4 2 == 1 && fieldAt b 6 2 == 1 && imgTraps b ≤ 64 && imgMicro b ≤ 1024 && imgNano b ≤ 256 &&
  imgBodyLen b == 4 * imgTraps b + 4 * imgMicro b + 24 * imgNano b && b.length == 256 + imgBodyLen b

/-- Check 3: the key slot is not revoked and holds the key's hash. -/
def State.imgKey (s : State) (b : List Byte) : Bool :=
  let k := fieldAt b 52 1
  k < 4 && !natBit (wordBits s.ucOtp 28 4) k && sha384 (bytesAt b (64 + imgBodyLen b) 96) == Config.fused (16 + k)

/-- Check 4: the signature. -/
def imgSigned (b : List Byte) : Bool :=
  ecdsaOk (bytesAt b (64 + imgBodyLen b) 96) (sha384 (b.take (160 + imgBodyLen b))) (bytesAt b (160 + imgBodyLen b) 96)

/-- Check 5: BASE and LEVEL. -/
def State.imgVersion (s : State) (b : List Byte) : Bool :=
  fieldAt b 8 2 == romVersion / 65536 && 2 ≤ fieldAt b 10 2 && wordBits s.ucOtp 0 16 ≤ fieldAt b 10 2

/-- Check 6: the plain text. -/
def imgPlain (b : List Byte) : Option (List Byte) :=
  gcmOpen (natBytes 32 (Config.fused 5)) (bytesAt b 24 12) (b.take 24 ++ bytesAt b 52 12) (bytesAt b 64 (imgBodyLen b)) (bytesAt b 36 16)

/-- The trap words, microwords and nanowords of a plain text. -/
def plainTraps (b p : List Byte) : List Nat := (List.range (imgTraps b)).map (fun i => fieldAt p (4 * i) 4)
def plainMicro (b p : List Byte) : List Word := (List.range (imgMicro b)).map (fun i => BitVec.ofNat 32 (fieldAt p (4 * imgTraps b + 4 * i) 4))
def plainNano (b p : List Byte) : List Nat :=
  (List.range (imgNano b)).map (fun i => fieldAt p (4 * imgTraps b + 4 * imgMicro b + 24 * i) 24)

/-- Check 7: trap ranges and repeats, mapped NEXT and NANO, reserved nanoword fields. -/
def plainContent (b p : List Byte) : Bool :=
  let ts := plainTraps b p
  ts.all (fun t => natBits t 0 10 < imgMicro b) && (ts.map (fun t => natBits t 16 14)).Nodup &&
  (plainMicro b p).all (fun w => microMapped (imgMicro b) (microNext w) && nanoMapped (imgNano b) (microNano w)) &&
  (plainNano b p).all (fun n => natBits n 128 5 == 0 && natBits n 88 3 == 0 && natBits n 0 64 == 0)

/-- A trap word as loaded: with its parity, and without its reserved bits. -/
def trapWord (t : Nat) : Nat :=
  let v := natBits t 31 1 * 2 ^ 31 + natBits t 16 14 * 2 ^ 16 + natBits t 0 10
  v + parityBit 32 v * 2 ^ 30

/-- Write a list into a table from key 0 on. -/
def tabOfList {α : Type} [Inhabited α] [DecidableEq α] (l : List α) : Tab α :=
  (List.range l.length).foldl (fun t i => t.set i (l.getD i default)) []

/-- Clear patch RAM, traps and the version. -/
def State.clearPatch (s : State) : State :=
  let s := { s with uc := { s.uc with micro := [], nano := [], version := 0 }, csr := s.csr.clearRange UC_TRAP.base 0x100 }
  (s.setF UC_STAT_LOADED 0).rset UC_VER 1

/-- A load ends in failure with RESULT `r`. -/
def State.loadFail (s : State) (r : Nat) : State := ((s.clearPatch).setF UC_STAT_RESULT r).flag UC_STAT_LOAD_EV

/-- A load ends well. -/
def State.loadOk (s : State) (b p : List Byte) : State :=
  let s := s.clearPatch
  let s := { s with uc := { s.uc with micro := tabOfList (plainMicro b p), nano := tabOfList (plainNano b p), version := fieldAt b 8 4 } }
  let ts := plainTraps b p
  let s := (List.range ts.length).foldl (fun s n => s.rset UC_TRAP (BitVec.ofNat 32 (trapWord (ts.getD n 0))) n) s
  ((s.setF UC_STAT_LOADED 1).setF UC_STAT_RESULT 1).flag UC_STAT_LOAD_EV

/-- The checks of R416 in order, on the image bytes. -/
def State.loadImage (s : State) (b : List Byte) : State :=
  if !imgFormat b then (s.loadFail 3).raise 8 1 13
  else if !s.imgKey b then (s.loadFail 4).raise 14 1 1
  else if !imgSigned b then (s.loadFail 5).raise 14 1 1
  else if !s.imgVersion b then (s.loadFail 6).raise 8 1 13
  else
    match imgPlain b with
    | none => (s.loadFail 7).raise 14 1 1
    | some p => if plainContent b p then s.loadOk b p else (s.loadFail 8).raise 8 1 13

/-- An armed injection on a Stoker SRAM word of [o, o + n) is used up (R376, R474): one flip is corrected and counted; two make the word
uncorrectable. -/
def State.sramArm (s : State) (o n : Nat) : State × Bool :=
  match s.flt.arm with
  | some a =>
    if a.target = 1 && o < 8 * a.index + 8 && 8 * a.index < o + n then
      let s := { s with flt := { s.flt with arm := none } }
      if a.flips = 2 then (s, true) else ((s.count C_STK_MEM_CORR).raise 0 0 3, false)
    else (s, false)
  | none => (s, false)

/-- PATCH_LOAD_DONE (R416): the running load ends. -/
def execPatchLoadDone (s : State) : Host.Outcome State Fault Refusal :=
  .next (match s.uc.load with
    | none => s
    | some (_, a, n) =>
      let s := State.setF { s with uc := { s.uc with load := none } } UC_STAT_BUSY 0
      let r := s.sramArm a n
      if r.2 then (r.1.loadFail 9).raise 1 2 5 else r.1.loadImage (r.1.load (stkBase + a) n))

/-- A write of UC_CTL; LOCK freezes it, but for the refusal of a LOAD_GO (R413, R416). -/
def State.ucCtl (s : State) (v : Word) : State :=
  let locked := s.on UC_CTL_LOCK
  let s := if wordBits v 0 1 = 1 then s.loadGo else s
  let s := if wordBits v 30 1 = 1 then s.trapOn else s
  if wordBits v 31 1 = 1 && !locked then s.setF UC_CTL_LOCK 1 else s

end Sys2Proof.Machine
end

