-- ==== Sys2Proof/Machine/Boot.lean ====
section
/-! DEFINITION. Resets, hardware initialisation, the boot ROM, the watchdog and the flash engine (R441 to R458, R473). -/

namespace Sys2Proof.Machine

/-! ### Resets (R443, R444, R473) -/

/-- A reset: everything returns to its reset value but the boot flash, what waits to be done to the chip, and the model's counter of free
values; BOOT_RST shows the kind. -/
def State.resetTo (s : State) (attempt cause : Nat) (test : Bool) : State :=
  let r := { State.reset with pending := s.pending, free := s.free, boot := { State.reset.boot with flash := s.boot.flash } }
  let r := { r with flt := { r.flt with test := test } }
  let r := (r.setF BOOT_RST_ATTEMPT attempt).setF BOOT_RST_CAUSE cause
  if test then r.raise 15 0 1 else r

/-- POWER_ON_RESET (R443, R444): the full reset; TEST_EN is sampled. -/
def execPowerOnReset (testEn : Bool) (s : State) : Host.Outcome State Fault Refusal :=
  let unlock : Bool := Config.fused 4 % 2 == 1
  let r := s.resetTo 0 0 (testEn && unlock)
  .next (if testEn && !unlock then r.raise 14 1 4 else r)

/-- SYSTEM_RESET (R443). -/
def execSystemReset (s : State) : Host.Outcome State Fault Refusal := .next (s.resetTo 0 1 s.flt.test)

/-- SOFTWARE_RESET (R443). -/
def execSoftwareReset (s : State) : Host.Outcome State Fault Refusal := .next (s.resetTo 0 2 s.flt.test)

/-- The count of BOOT_WDOG has reached its limit (R450) in an earlier cc: a write of STAGE in the cc of expiry still stands (R457). -/
def State.wdogExpired (s : State) : Bool :=
  !s.boot.wdogOff && s.f BOOT_WDOG_MS != 0 && s.boot.wdogFrom + s.f BOOT_WDOG_MS * 1500000 < s.cc

/-- WATCHDOG_RESET (R443, R450): ATTEMPT rises, saturating at 15. -/
def execWatchdogReset (s : State) : Host.Outcome State Fault Refusal :=
  .next (s.when s.wdogExpired fun s => s.resetTo (min (s.f BOOT_RST_ATTEMPT + 1) 15) 3 s.flt.test)

/-- WDOG_KICK (R450); it comes too late once the count has expired. -/
def State.wdogKick (s : State) : State := s.when (!s.wdogExpired) fun s => { s with boot := { s.boot with wdogFrom := s.cc } }

/-- WDOG_KICK (R450). -/
def execWdogKick (s : State) : Host.Outcome State Fault Refusal := .next s.wdogKick

/-- HARDWARE_INITIALISATION (R445): before K0's first instruction. -/
def execHardwareInitialisation (s : State) : Host.Outcome State Fault Refusal :=
  .next (s.when (s.boot.phase == 0) fun s =>
    let s := { s with mem := [], uc := {}, boot := { s.boot with phase := 1 } }
    ((s.setF POOL_STAT_STATE poolChain).setF POOL_FREE_CELLS_CELLS 2097152).setF BOOT_STAT_STAGE 1)

/-! ### Boot images (R446, R448, R449) -/

/-- A byte of the boot flash. -/
def State.flashAt (s : State) (a : Nat) : Byte := s.boot.flash.get a ^^^ Config.flashByte a

/-- Give a byte of the boot flash a value. -/
def State.setFlash (s : State) (a : Nat) (b : Byte) : State :=
  { s with boot := { s.boot with flash := s.boot.flash.set a (b ^^^ Config.flashByte a) } }

/-- `n` bytes of the boot flash. -/
def State.flashBytes (s : State) (a n : Nat) : List Byte := (List.range n).map (fun i => s.flashAt (a + i))

/-- LENGTH, LOAD and ENTRY of a firmware image header. -/
def fwLength (h : List Byte) : Nat := fieldAt h 16 4
def fwLoad (h : List Byte) : Nat := fieldAt h 20 4
def fwEntry (h : List Byte) : Nat := fieldAt h 24 4

/-- Is the header of a firmware image valid (R448, R449): MAGIC, FMT, LENGTH, LOAD, ENTRY. -/
def fwHeader (h : List Byte) : Bool :=
  fieldAt h 0 4 == 0x4E484257 && fieldAt h 4 2 == 1 && fwLength h % 8 == 0 && fwLength h ≤ 4194048 &&
  fwLoad h % 64 == 0 && fwLoad h + fwLength h ≤ 0xFF0000 &&
  fwEntry h % 8 == 0 && fwLoad h ≤ fwEntry h && fwEntry h < fwLoad h + fwLength h

/-- The word that BOOT_OTP reads; in factory test state every slot reads as revoked (R473). -/
def State.bootOtp (s : State) : Word :=
  BitVec.ofNat 32 ((if s.flt.test then 0xF else Config.fused 3 / 2 ^ 28 % 16) * 2 ^ 28 + Config.fused 3 % 65536)

/-- Do the key and the signature of a firmware image pass (R449). -/
def State.fwSigned (s : State) (b : List Byte) : Bool :=
  let k := fieldAt b 28 1
  let n := 64 + fwLength b
  k < 4 && !natBit (wordBits s.bootOtp 28 4) k && sha384 (bytesAt b n 96) == Config.fused (32 + k) &&
  ecdsaOk (bytesAt b n 96) (sha384 (b.take (n + 96))) (bytesAt b (n + 96) 96)

/-- Is a firmware image's VERSION accepted. -/
def State.fwVersion (s : State) (b : List Byte) : Bool := wordBits s.bootOtp 0 16 ≤ fieldAt b 12 2

/-- The checks of R449 on an image: the body is copied to LOAD while it is hashed; a format failure raises CONFIG, a key or signature
failure SECURITY.  Answers whether the image passes. -/
def State.tryImage (s : State) (b : List Byte) : State × Bool :=
  if !fwHeader b then (s.raise 8 1 14, false)
  else
    let s := s.store (stkBase + fwLoad b) (bytesAt b 64 (fwLength b))
    if !s.fwSigned b then (s.raise 14 1 2, false) else (s, s.fwVersion b)

/-- Enter an image: FW_SLOT, STAGE 0x10, and the jump to ENTRY at supervisor level with IEN = 0. -/
def State.enterImage (s : State) (slot entry : Nat) : State :=
  let s := (s.setF BOOT_STAT_FW_SLOT slot).setF BOOT_STAT_STAGE 0x10
  ((s.setF STK_PC_ADDR entry 0).setF STK_STAT_PRIV 1 0).setF STK_STAT_IEN 0 0

/-- Enter RECOVERY with an error (R451). -/
def State.enterRecovery (s : State) (err : Nat) : State :=
  let s := { s with boot := { s.boot with recovery := true, wdogOff := true } }
  (s.setF BOOT_STAT_STAGE 0x0E).setF BOOT_STAT_ERR err

/-- The whole image in firmware slot `k`, as its header gives its length. -/
def State.slotImage (s : State) (k : Nat) : List Byte :=
  let h := s.flashBytes (k * 0x400000) 64
  s.flashBytes (k * 0x400000) (if fwHeader h then 256 + fwLength h else 64)

/-- Try the firmware slots in order (R449). -/
def State.trySlots (s : State) : List Nat → State
  | [] => (s.enterRecovery 2).raise 8 2 15
  | k :: t =>
    let b := s.slotImage k
    match s.tryImage b with
    | (s, true) => (s.setF (if k = 0 then BOOT_FLASH_VALID0 else BOOT_FLASH_VALID1) 1).enterImage k (fwEntry b)
    | (s, false) => s.trySlots t

/-- The ROM's way from K0's first instruction to boot firmware (R444, R447, R449, R450). -/
def State.bootRom (s : State) : State :=
  if s.flt.test then
    State.setF (State.setF { s with boot := { s.boot with wdogOff := true } } BOOT_STAT_TEST 1) BOOT_STAT_STAGE 0x0F
  else if 4 ≤ s.f BOOT_RST_ATTEMPT then s.enterRecovery 8
  else if Config.flashPart 0 = 0 then s.enterRecovery 1
  else
    let s := ((s.setF BOOT_FLASH_SFDP_OK 1).setF BOOT_FLASH_MODE (Config.flashPart 2)).setF BOOT_FLASH_SIZE_LOG2 (Config.flashPart 1)
    let q0 := beNat (s.flashBytes 8 4)
    let q1 := beNat (s.flashBytes 0x400008 4)
    let s := (s.setF BOOT_FW_SEQ_SEQ q0 0).setF BOOT_FW_SEQ_SEQ q1 1
    let order := if newer q1 q0 then [1, 0] else [0, 1]
    s.trySlots (if s.f BOOT_RST_ATTEMPT % 2 = 0 then order else order.reverse)

/-- BOOT_ROM_START (R449). -/
def execBootRomStart (s : State) : Host.Outcome State Fault Refusal :=
  .next (s.when (s.boot.phase == 1) fun s => State.bootRom { s with boot := { s.boot with phase := 2 } })

/-- HOSTLOAD (R451): ignored outside RECOVERY. -/
def State.hostload (s : State) : State :=
  if !s.boot.recovery then s
  else
    let a := s.f BOOT_HOST_ADDR_VALUE
    let n := s.f BOOT_HOST_LEN_VALUE
    let b := s.load (stkBase + a) n
    if a % 64 ≠ 0 ∨ 0xFF0000 ≤ a ∨ 2 ^ 24 < a + n ∨ n ≠ 256 + fwLength b then (s.setF BOOT_STAT_ERR 3).raise 8 1 14
    else
      match s.tryImage b with
      | (s, true) => State.enterImage { s with boot := { s.boot with recovery := false } } 2 (fwEntry b)
      | (s, false) => s.setF BOOT_STAT_ERR 3

/-- HOSTLOAD (R451). -/
def execHostload (s : State) : Host.Outcome State Fault Refusal := .next s.hostload

/-- A write of BOOT_STAT: STAGE from 0x17 on stops the watchdog (R450), unless its reset is due (R457). -/
def State.bootStat (s : State) (v : Word) : State :=
  let s := (s.setF BOOT_STAT_ERR (wordBits v 16 8)).setF BOOT_STAT_STAGE (wordBits v 0 8)
  if 0x17 ≤ wordBits v 0 8 && !s.wdogExpired then { s with boot := { s.boot with wdogOff := true } } else s

/-- A write of BOOT_CTL; a software reset leaves nothing of the rest. -/
def State.bootCtl (s : State) (v : Word) : State :=
  if wordBits v 31 1 = 1 && wordBits v 0 16 == 0xB007 then s.resetTo 0 2 s.flt.test
  else
    let s := if wordBits v 29 1 = 1 then s.wdogKick else s
    if wordBits v 30 1 = 1 then s.hostload else s

/-! ### The flash engine (R458) -/

/-- GO of the flash engine with an OP; ignored while BUSY. -/
def State.flashGo (s : State) (op : Nat) : State :=
  if s.on BOOT_FL_CTL_BUSY then s
  else
    let t : FlashOp := { op := op, ofs := s.f BOOT_FL_OFS_OFS, addr := s.f BOOT_FL_MEM_HI_ADDR * 2 ^ 32 + s.f BOOT_FL_MEM_LO_ADDR, len := s.f BOOT_FL_LEN_LEN }
    State.setF (State.setF { s with boot := { s.boot with transfer := some t } } BOOT_FL_CTL_BUSY 1) BOOT_FL_CTL_OP op

/-- FLASH_READ, FLASH_PROGRAM and FLASH_ERASE (R458). -/
def execFlashRead (s : State) : Host.Outcome State Fault Refusal := .next (s.flashGo 0)
def execFlashProgram (s : State) : Host.Outcome State Fault Refusal := .next (s.flashGo 1)
def execFlashErase (s : State) : Host.Outcome State Fault Refusal := .next (s.flashGo 2)

/-- A write of BOOT_FL_CTL: OP is stored, 3 as 0. -/
def State.flashCtl (s : State) (v : Word) : State :=
  let op := if wordBits v 28 2 = 3 then 0 else wordBits v 28 2
  let s := s.setF BOOT_FL_CTL_OP op
  if wordBits v 31 1 = 1 then s.flashGo op else s

/-- Is a transfer refused: its range leaves the flash or the memory regions, or it would change the running firmware's slot. -/
def State.flashRefused (s : State) (t : FlashOp) : Bool :=
  2 ^ Config.flashPart 1 < t.ofs + t.len || 2 ^ 24 < t.len || t.len % 8 != 0 ||
  (t.op != 2 && (t.addr < stkBase || stkBase + 3 * 2 ^ 24 < t.addr + t.len || t.addr % 8 != 0)) ||
  (t.op != 0 && s.f BOOT_STAT_FW_SLOT < 2 &&
    t.ofs < (s.f BOOT_STAT_FW_SLOT + 1) * 0x400000 && s.f BOOT_STAT_FW_SLOT * 0x400000 < t.ofs + t.len)

/-- What a transfer does: a read copies, a program clears the bits that are 0 in memory, an erase sets whole sectors to ones. -/
def State.flashApply (s : State) (t : FlashOp) : State :=
  match t.op with
  | 0 => s.store t.addr (s.flashBytes t.ofs t.len)
  | 1 => (List.range t.len).foldl (fun s i => s.setFlash (t.ofs + i) (s.flashAt (t.ofs + i) &&& s.mem.get (t.addr + i))) s
  | _ =>
    let z := max 1 (Config.flashPart 3)
    let lo := t.ofs / z * z
    (List.range (ceilDiv (t.ofs + t.len) z * z - lo)).foldl (fun s i => s.setFlash (lo + i) 0xFF) s

/-- FLASH_TRANSFER_DONE (R458). -/
def execFlashTransferDone (timeout : Bool) (s : State) : Host.Outcome State Fault Refusal :=
  .next (match s.boot.transfer with
    | none => s
    | some t =>
      let s := State.setF { s with boot := { s.boot with transfer := none } } BOOT_FL_CTL_BUSY 0
      if s.flashRefused t then s.setF BOOT_FL_CTL_RESULT 1
      else if timeout then s.setF BOOT_FL_CTL_RESULT 2
      else (s.flashApply t).setF BOOT_FL_CTL_RESULT 0)

/-- The word that CHIP_STEP reads (R488, R489). -/
def chipStep : Word := BitVec.ofNat 32 (0x5120 * 65536 + Config.fused 1 % 100 * 256 + stepping)

end Sys2Proof.Machine
end

