-- ==== Sys2Proof/Machine/Counters.lean ====
section
/-! DEFINITION. Performance counters: events, filters, chaining, snapshots and clears (R367 to R372). -/

namespace Sys2Proof.Machine

/-- How many counters there are: 256 of the chip and 32 of each slice. -/
def pmcCounters : Nat := 256 + 1024

/-- The configuration word of a counter. -/
def State.pmcCfg (s : State) (n : Nat) : Word :=
  if n < 256 then s.rget PMC_CFG n else s.rget PMC_SCFG ((n - 256) / 32) (n % 32)

/-- Give a counter a configuration word. -/
def State.setPmcCfg (s : State) (n : Nat) (v : Word) : State :=
  if n < 256 then s.rset PMC_CFG v n else s.rset PMC_SCFG v ((n - 256) / 32) (n % 32)

/-- The address of a counter's _LO register. -/
def pmcAddr (n : Nat) : Nat := if n < 256 then C_PMC_CNT.addr n 0 else C_PMC_SCNT.addr ((n - 256) / 32) (n % 32)

/-- The count of a counter. -/
def State.pmcVal (s : State) (n : Nat) : Nat := s.cnt.get (pmcAddr n)

/-- Is CHAIN of a counter in force (odd counters only). -/
def State.pmcChained (s : State) (n : Nat) : Bool := n % 2 == 1 && wordBits (s.pmcCfg n) 30 1 == 1

/-- Events whose scope is the chip (R367). -/
def chipScope : List Nat := [0x002, 0x024, 0x030, 0x031, 0x032, 0x033, 0x034, 0x050, 0x051, 0x052, 0x053, 0x054, 0x061]

/-- Events of any scope. -/
def anyScope : List Nat := [0x000, 0x001, 0x010, 0x011, 0x012, 0x013, 0x014, 0x020, 0x021, 0x022, 0x023, 0x040, 0x041, 0x042, 0x060]

/-- Does an access address lie in range register `r` (R368). -/
def State.pmcInRange (s : State) (r addr : Nat) : Bool :=
  s.f PMC_RANGE_BASE_HI_ADDR r * 2 ^ 32 + s.f PMC_RANGE_BASE_LO_ADDR r ≤ addr &&
  addr ≤ s.f PMC_RANGE_LIMIT_HI_ADDR r * 2 ^ 32 + s.f PMC_RANGE_LIMIT_LO_ADDR r

/-- Does an event pass a counter's filters (R368); a filter that the event does not carry is ignored. -/
def State.pmcPasses (s : State) (cfg : Word) (e : PmcEvent) : Bool :=
  let priv := wordBits cfg 14 2
  let mast := wordBits cfg 8 6
  let cls := wordBits cfg 4 4
  (!(e.code == 0x050 || e.code == 0x051) || priv == 0 || (priv == 1 && e.user) || (priv == 2 && !e.user)) &&
  (!(0x050 ≤ e.code && e.code ≤ 0x054) || mast == 0 || natBit mast e.master) &&
  (!([0x020, 0x021, 0x022, 0x023, 0x030, 0x031].contains e.code) || cls == 0 || (match e.cls with | some c => natBit cls c | none => false)) &&
  (!(e.code == 0x051 || e.code == 0x052) || wordBits cfg 3 1 == 0 || s.pmcInRange (wordBits cfg 0 3) e.addr)

/-- What a counter adds for the occurrences of this cc. -/
def State.pmcAdds (s : State) (n : Nat) : Nat :=
  let cfg := s.pmcCfg n
  let ev := wordBits cfg 16 12
  if ev = 0x001 then (if s.pmc.cycles then 0 else 1)
  else if ev = 0x002 then (if s.pmc.cycles || s.cc % 2 == 1 then 0 else 1)
  else (s.pmc.events.filter (fun e => e.code == ev && (n < 256 || e.slice == (n - 256) / 32) && s.pmcPasses cfg e)).foldl (fun a e => a + e.n) 0

/-- Add to a counter, which wraps at 2^48: OVF, the interrupt, and the carry of a chained pair (R370). -/
def State.pmcAdd (s : State) (n k : Nat) : State :=
  let v := s.pmcVal n + k
  let s := { s with cnt := s.cnt.set (pmcAddr n) (v % 2 ^ 48), cntNew := s.cntNew.upd (pmcAddr n) (· + k) }
  if v < 2 ^ 48 then s
  else
    let s := if n < 256 then s.flag PMC_OVF_BITS (n / 32) (b := n % 32) else s.flag PMC_OVF_S_BITS ((n - 256) / 32) (b := n % 32)
    let s := if wordBits (s.pmcCfg n) 29 1 = 1 then s.irq 9 else s
    if n % 2 = 0 && s.pmcChained (n + 1) then { s with pmc := { s.pmc with carry := (n + 1) :: s.pmc.carry } } else s

/-- The counters that are configured to count. -/
def State.pmcEnabled (s : State) : List Nat :=
  (List.range pmcCounters).filter (fun n => wordBits (s.pmcCfg n) 31 1 == 1 && !s.pmcChained n)

/-- Every counter adds what occurred in this cc and has not been counted (R367). -/
def State.pmcCount (s : State) : State :=
  let s := if s.on PMC_CTL_FREEZE then s else (s.pmcEnabled).foldl (fun t n => let k := s.pmcAdds n; if k = 0 then t else t.pmcAdd n k) s
  { s with pmc := { s.pmc with events := [], cycles := true } }

/-- PMC_COUNT (R367). -/
def execPmcCount (s : State) : Host.Outcome State Fault Refusal := .next s.pmcCount

/-- Carries of the last cc are delivered to the odd counters (R370, R372). -/
def State.pmcDeliver (s : State) : State :=
  if s.pmc.delivered then s
  else s.pmc.due.foldl (fun s n => s.pmcAdd n 1) { s with pmc := { s.pmc with delivered := true } }

/-- PMC_CARRY (R370). -/
def execPmcCarry (s : State) : Host.Outcome State Fault Refusal := .next s.pmcDeliver

/-- A configuration word as it is stored: PRIV 3 as 0, CHAIN of an even counter and reserved bits 0. -/
def pmcStored (n : Nat) (v : Word) : Word :=
  let w := v &&& 0xEFFFFFFF
  let w := if n % 2 = 0 then wordPut w 30 1 0 else w
  if wordBits w 14 2 = 3 then wordPut w 14 2 0 else w

/-- Is a carry of a counter's pair pending in this cc (R372). -/
def State.pmcPending (s : State) (n : Nat) : Bool := (s.pmc.carry ++ s.pmc.due).contains (n / 2 * 2 + 1)

/-- A write of PMC_CFG (R367, R372). -/
def State.pmcCfgWrite (s : State) (n : Nat) (v : Word) : State :=
  let ev := wordBits v 16 12
  if !(anyScope.contains ev || (n < 256 && chipScope.contains ev)) then s.flag PMC_STAT_CFG_ERR
  else if s.pmcPending n then { s with pmc := { s.pmc with late := s.pmc.late ++ [(n, pmcStored n v)] } }
  else s.setPmcCfg n (pmcStored n v)

/-- PMC_CFG_WRITE (R372); an index beyond the counters names none. -/
def execPmcCfgWrite (idx : Nat) (v : Word) (s : State) : Host.Outcome State Fault Refusal :=
  .next (s.when (idx < pmcCounters) fun s => s.pmcCfgWrite idx v)

/-- A write of PMC_CLR word `w` (0 to 7 of the chip, 8 + s of slice s): each bit clears its counter; an
event or carry of this cc that it has counted already is counted after the clear. -/
def State.pmcClr (s : State) (w : Nat) (v : Word) : State :=
  let base := if w < 8 then 32 * w else 256 + 32 * (w - 8)
  ((List.range 32).filter (fun i => wordBits v i 1 == 1)).foldl (fun s i => { s with cnt := s.cnt.set (pmcAddr (base + i)) (s.cntNew.get (pmcAddr (base + i)) % 2 ^ 48) }) s

/-- PMC_CLR (R372). -/
def execPmcClr (w : Nat) (v : Word) (s : State) : Host.Outcome State Fault Refusal := .next (s.when (w < 40) fun s => s.pmcClr w v)

/-- FREEZE (R372). -/
def execFreeze (on : Bool) (s : State) : Host.Outcome State Fault Refusal := .next (s.setF PMC_CTL_FREEZE (if on then 1 else 0))

/-- A carry still pending for an odd counter counts as delivered in a snapshot (R371). -/
def State.pmcWithCarry (s : State) (n : Nat) : Nat :=
  let k := s.pmc.carry.count n + (if s.pmc.delivered then 0 else s.pmc.due.count n)
  (s.pmcVal n + k) % 2 ^ 48

/-- A read of a counter's _LO, which has counted the occurrences of its cc, snapshots its _HI, and in a chained pair a read of the even one's snapshots all four words (R371). -/
def State.pmcLoRead (s : State) (n : Nat) : State :=
  let s := s.pmcCount
  let hi := pmcAddr n + 4
  if s.pmcChained n then s
  else
    let s := { s with snap := s.snap.set hi (s.pmcVal n / 2 ^ 32) }
    if n % 2 = 0 && s.pmcChained (n + 1) then { s with pmc := { s.pmc with snap := s.pmc.snap.set (n + 1) (s.pmcWithCarry (n + 1)) } } else s

/-- What a counter's _LO or _HI register returns; the odd counter of a chained pair returns the snapshot of the pair. -/
def State.pmcRead (s : State) (n : Nat) (hi : Bool) : Word :=
  if s.pmcChained n then BitVec.ofNat 32 (if hi then s.pmc.snap.get n / 2 ^ 32 else s.pmc.snap.get n)
  else BitVec.ofNat 32 (if hi then s.snap.get (pmcAddr n + 4) else s.pmcVal n)

/-- PMC_LO_READ (R371). -/
def execPmcLoRead (idx : Nat) (s : State) : Host.Outcome State Fault Refusal :=
  .next (s.when (idx < pmcCounters) fun s => s.pmcLoRead idx)

/-- What a cc's end does to the counters: what is left is counted, carries move on, and delayed writes take effect. -/
def State.pmcTick (s : State) : State :=
  let s := s.pmcCount.pmcDeliver
  let s := s.pmc.late.foldl (fun s e => s.setPmcCfg e.1 e.2) s
  { s with pmc := { s.pmc with cycles := false, due := s.pmc.carry, carry := [], delivered := false, late := [] } }

end Sys2Proof.Machine
end

