-- ==== Sys2Proof/Machine/Telemetry.lean ====
section
/-! DEFINITION. Telemetry: hop records, the shim, postcards, epochs, histograms and digests (R357 to R366). -/

namespace Sys2Proof.Machine

/-- The length of a telemetry epoch in NT. -/
def State.tlmLen (s : State) : Nat := s.f TLM_EPOCH_EPOCH_US * usUnit

/-- The telemetry epoch of this cc (R364). -/
def State.tlmEpoch (s : State) : Nat := s.nt / s.tlmLen

/-- A new EPOCH_US: the boundaries of the new epochs up to now are not missed ones (R364). -/
def State.tlmRestart (s : State) : State := s.setTlm (fun t => { t with boundary := s.tlmEpoch * s.tlmLen })

/-! ### Records and postcards (R362, R363) -/

/-- Records are lost: counted, with REC_LOST. -/
def State.recLost (s : State) (n : Nat) : State := if n = 0 then s else (s.count C_TLM_REC_LOST n).flag TLM_STAT_REC_LOST

/-- A postcard waits for its block. -/
def State.postcard (s : State) (slice coll type count records : Nat) (body : List Byte) : State :=
  if s.isSafe || s.f TLM_COLL0_V coll == 0 then s.recLost records
  else s.setTlm (fun t => { t with out := t.out ++ [{ slice := slice, coll := coll, type := type, count := count, body := body,
                                                      epoch := s.tlmEpoch, records := records }] })

/-- Send a slice's batch for a collector as a postcard of type 0. -/
def State.sendBatch (s : State) (slice coll : Nat) : State :=
  let b := s.tlm.batch.get (4 * slice + coll)
  if b = [] || s.isSafe then s
  else
    let s := s.setTlm (fun t => { t with batch := t.batch.set (4 * slice + coll) [] })
    s.postcard slice coll 0 b.length b.length (b.foldl (fun a r => a ++ r) [])

/-- A new hop record that does not go in band joins the batch of REC_COLL (R360, R363). -/
def State.batchRecord (s : State) (slice : Nat) (r : List Byte) : State :=
  let k := s.f TLM_CFG_REC_COLL
  let b := s.tlm.batch.get (4 * slice + k)
  if s.isSafe || s.f TLM_COLL0_V k == 0 || 32 ≤ b.length then s.recLost 1
  else
    let s := s.setTlm (fun t => { t with batch := t.batch.set (4 * slice + k) (b ++ [r]) })
    if s.f TLM_CFG_BATCH ≤ b.length + 1 then s.sendBatch slice k else s

/-- A postcard whose block has been granted is enqueued as a frame of R196. -/
def State.postcardEmit (s : State) (x : Postcard) (a : Nat) : State :=
  let p := s.f TLM_COLL0_PORT x.coll
  let q := s.f TLM_COLL0_QUEUE x.coll
  let s := s.setTag a (sliceTag (tagClass q) (sliceOf p))
  match s.originate (s.postcardFrame x) p q a x.slice false with
  | (s, .enqueued) =>
    (s.count C_TLM_PC_SENT).setTlm (fun t => { t with pseq := t.pseq.set (4 * x.slice + x.coll) ((t.pseq.get (4 * x.slice + x.coll) + 1) % 2 ^ 32) })
  | (s, .refused) => (s.count C_TLM_PC_DROP).flag TLM_STAT_PC_DROP
  | (s, _) => s

/-- Request blocks for waiting postcards, in order, with the blocks that the pool manager hands out. -/
def State.tlmPump (s : State) : List (List Nat) → State
  | [] => s
  | cells :: more =>
    match s.tlm.out with
    | [] => s
    | x :: rest =>
      if s.cc < x.tryAt || !s.turn x.standing then s
      else
        let n := 64 + (s.postcardFrame x).length
        let want := poolFor n
        let put := fun (s : State) (l : List Postcard) => s.setTlm (fun t => { t with out := l })
        match s.request want (x.pool.getD want) n (sliceTag (tagClass (s.f TLM_COLL0_QUEUE x.coll)) (sliceOf (s.f TLM_COLL0_PORT x.coll))) cells with
        | (s, .granted) => ((put s rest).postcardEmit x (cells.headD 0)).tlmPump more
        | (s, .fallback) => put s ({ x with pool := some (x.pool.getD want + 1), tryAt := s.cc + 1 } :: rest)
        | (s, .refused) => ((put s rest).recLost x.records).tlmPump more
        | (_, .noOccasion) => s

/-! ### Hop records (R357, R358) -/

/-- T_rx of a copy in 1/65,536 ns (R272); the copy's `arrival` holds M.ARRIVAL_OFFSET and, on a trunk port, the LAG. -/
def Copy.trx (x : Copy) : Int := (nt16 (ntOfBytes (bytesAt x.region 0 12)) : Int) - x.arrival

/-- A time in 1/65,536 ns as an NT; times wrap with NT. -/
def trxNt (t : Int) : Nat := (t % ((ntWrap / 2 ^ 24 : Nat) : Int)).toNat * 2 ^ 24

/-- A field of a copy's region C by its record offset. -/
def Copy.c (x : Copy) (o n : Nat) : Nat := fieldAt x.region (o - cT0) n

/-- The hop record of a copy that leaves in cc `at_` with NT(S) `tx` (R358). -/
def State.hopRecord (s : State) (x : Copy) (at_ tx : Nat) : List Byte :=
  let inPort := x.c cInPort 2
  let flags := (if x.metered then 128 else 0) + (if x.late then 64 else 0) + (if x.saf then 32 else 0) + (if x.trunkIn then 16 else 0)
  let rx := trxNt x.trx
  wordsBytes [s.ca DOM_CHIP_CHIP_ID * 65536 + 4096 + x.queue * 256 + flags, inPort % 512 * 2 ^ 23 + x.port % 512 * 2 ^ 14 + x.c cGen 4 % 256,
    x.c cFlowHash 4, ntNsField rx, ntSec rx % 65536 * 65536 + ntFrac rx, ntNsField tx, min (at_ - x.t0cc) (2 ^ 32 - 1),
    ntSec tx % 256 * 2 ^ 24 + x.depthAtEnq % 2 ^ 22]

/-- Is a copy selected for a new record at its port (R357); the sample count advances for each copy that passes the first three
tests, and the copy at which it stands at 0 is taken. -/
def State.hopSelect (s : State) (x : Copy) : State × Bool :=
  let h := x.c cFlowHash 4 / 65536
  let m := s.f TLM_SEL_FLOW_MASK
  if s.on TLM_CFG_EN && natBit (x.c cDisp 1) 5 && (h &&& m) == (s.f TLM_SEL_FLOW_MATCH &&& m) then
    let n := (s.tlm.sample.get x.port + 1) % 2 ^ s.f TLM_PORT_CFG_PKT_SHIFT x.port
    (s.setTlm (fun t => { t with sample := t.sample.set x.port n }), n == 0)
  else (s, false)

/-! ### The shim (R359, R360) -/

/-- The trunk overhead CRC (R115) over footer bytes 0 to 5. -/
def shimCrc (b : List Byte) : Nat := crc16 (b.take 6)

/-- A shim footer. -/
def shimFooter (hops : Nat) (full : Bool) : List Byte :=
  let b := natBytes 4 0x4E48544C ++ [BitVec.ofNat 8 (16 + hops), if full then 0x80 else 0]
  b ++ natBytes 2 (shimCrc b)

/-- HOPS and FULL of the valid shim of a frame given without its FCS, none when it carries none. -/
def shimOf (body : List Byte) : Option (Nat × Bool) :=
  let f := body.drop (body.length - 8)
  let hops := fieldAt f 4 1 % 16
  if 8 ≤ body.length ∧ fieldAt f 0 4 = 0x4E48544C ∧ fieldAt f 4 1 / 16 = 1 ∧ fieldAt f 6 2 = shimCrc f ∧ 1 ≤ hops ∧ hops ≤ 8 ∧
      14 + 32 * hops + 12 ≤ body.length + 4 then some (hops, natBit (fieldAt f 5 1) 7)
  else none

/-- The last step of a frame's way through the egress MAC (R360): the shim, for a frame `body` without FCS of copy `x`, with the chip's
record `r` and whether R357 selected the copy.  A removed shim's padding to 64 bytes is the caller's. -/
def State.shimOut (s : State) (x : Copy) (body r : List Byte) (selected : Bool) : State × List Byte :=
  let role := s.f TLM_PORT_CFG_ROLE x.port
  let sl := sliceOf x.port
  match (if role = 0 then none else shimOf body) with
  | some (hops, full) =>
    let core := body.take (body.length - 8)
    if role = 1 then
      if hops < s.f TLM_CFG_HOP_MAX then (s.count C_TLM_REC, core ++ r ++ shimFooter (hops + 1) full)
      else (s.count C_TLM_SHIM_FULL, core ++ shimFooter hops true)
    else
      let frame := core.take (core.length - 32 * hops)
      let recs := core.drop (core.length - 32 * hops) ++ r
      ((s.count C_TLM_REC).postcard sl (s.f TLM_CFG_SINK_COLL) 1 (hops + 1) (hops + 1) ((sealBody frame).take 64 ++ recs), frame)
  | none =>
    if !selected then (s, body)
    else
      let s := s.count C_TLM_REC
      if role = 1 && s.on TLM_CFG_INBAND then (s, body ++ r ++ shimFooter 1 false) else (s.batchRecord sl r, body)

/-! ### Histograms and digests (R364 to R366) -/

/-- The latency bin of a count of cc. -/
def latBin (n : Nat) : Nat := if n < 64 then 0 else min (Nat.log2 n - 5) 15

/-- The depth bin of a count of cells. -/
def depthBin (n : Nat) : Nat := if n = 0 then 0 else min (Nat.log2 n + 1) 15

/-- Count one in a histogram bin, which saturates. -/
def bump (t : Tab Nat) (k : Nat) : Tab Nat := t.upd k (fun n => min (n + 1) (2 ^ 32 - 1))

/-- Does a port keep histograms of a queue. -/
def State.histOn (s : State) (p q : Nat) : Bool := p < 512 && s.on TLM_PORT_CFG_HIST_EN p && natBit (s.f TLM_PORT_CFG_HIST_QMASK p) q

/-- A copy counts in the latency histogram in cc S, and in the depth histogram by the depth at its enqueue (R365). -/
def State.histogram (s : State) (x : Copy) (at_ : Nat) : State :=
  if s.histOn x.port x.queue then
    s.noteTlm (.hist (16 * x.port + latBin (at_ - x.t0cc)) (16 * x.port + depthBin x.depthAtEnq))
  else s

/-- A frame is counted in its slice's digest at its final enqueue (R366); answers the entry whose BYTES rise at the frame's end. -/
def State.digestFrame (s : State) (p hash : Nat) : State × Option Nat :=
  if p < 512 && s.on TLM_PORT_CFG_DIGEST p then
    let k := 1024 * sliceOf p + hash % 1024
    (s.noteTlm (.frame k hash), some k)
  else (s, none)

/-- A digest entry counts a frame (R366). -/
def DigEntry.countFrame (d : DigEntry) (hash : Nat) : DigEntry :=
  { d with hash := hash, frames := min (d.frames + 1) (2 ^ 32 - 1), coll := d.coll || (d.frames ≠ 0 && d.hash ≠ hash) }

/-- Count an event that telemetry has noted. -/
def TlmState.count (t : TlmState) : TlmNote → TlmState
  | .hist l d => { t with lat := bump t.lat l, depth := bump t.depth d }
  | .frame k h => { t with dig := t.dig.upd k (·.countFrame h) }
  | .bytes k n => { t with dig := t.dig.upd k (fun d => { d with bytes := min (d.bytes + n) (2 ^ 48 - 1) }) }

/-- The end of a cc: its events are counted (R364). -/
def State.tlmTick (s : State) : State := s.setTlm (fun t => t.noted.foldl TlmState.count { t with noted := [] })

/-- A digest entry as its four words. -/
def DigEntry.words (d : DigEntry) : List Nat :=
  [d.hash, d.frames, (if d.coll then 2 ^ 31 else 0) + d.bytes / 2 ^ 32, d.bytes % 2 ^ 32]

/-- The counting banks move to the read banks and start again from zero. -/
def State.moveBanks (s : State) : State :=
  let c := (s.csr.clearRange TLM_LAT_BIN.base 0x20000).clearRange TLM_DIG_RD.base 0x80000
  let c := s.tlm.lat.foldl (fun c e => c.set (TLM_LAT_BIN.addr (e.1 / 16) (e.1 % 16) 0) (BitVec.ofNat 32 e.2)) c
  let c := s.tlm.depth.foldl (fun c e => c.set (TLM_DEPTH_BIN.addr (e.1 / 16) (e.1 % 16) 0) (BitVec.ofNat 32 e.2)) c
  let c := s.tlm.dig.foldl (fun c e => (List.range 4).foldl (fun c w =>
    c.set (TLM_DIG_RD.addr (e.1 / 1024) (e.1 % 1024) w) (BitVec.ofNat 32 (e.2.words.getD w 0))) c) c
  State.setTlm { s with csr := c } (fun t => { t with lat := [], depth := [], dig := [] })

/-- Pieces of at most `k` items. -/
def pieces (k : Nat) : Nat → List (List Byte) → List (List (List Byte))
  | 0, _ => []
  | _, [] => []
  | n + 1, l => l.take k :: pieces k n (l.drop k)

/-- Postcards of a type from items. -/
def State.sendItems (s : State) (sl coll type k : Nat) (items : List (List Byte)) : State :=
  (pieces k (items.length + 1) items).foldl (fun s l => s.postcard sl coll type l.length 0 (l.foldl (fun a b => a ++ b) [])) s

/-- A port report from the read banks (R362). -/
def State.portReport (s : State) (p : Nat) : List Byte :=
  wordsBytes (p :: ((List.range 16).map (fun b => (s.rget TLM_LAT_BIN p b).toNat) ++ (List.range 16).map (fun b => (s.rget TLM_DEPTH_BIN p b).toNat)))

/-- The digest entries of a slice's read bank with frames, as postcard items. -/
def State.digItems (s : State) (sl : Nat) : List (List Byte) :=
  ((List.range 1024).map (fun i => (List.range 4).map (fun w => (s.rget TLM_DIG_RD sl i w).toNat))).filter (fun l => l.getD 1 0 != 0)
    |>.map wordsBytes

/-- What one slice sends at a boundary: batches, then histograms, then the digest. -/
def State.sliceBoundary (s : State) (sl : Nat) : State :=
  let ports := ((List.range 16).map (16 * sl + ·)).filter (fun p => s.on TLM_PORT_CFG_HIST_EN p)
  let s := if s.on TLM_CFG_HIST_PC then s.sendItems sl (s.f TLM_CFG_HIST_COLL) 2 8 (ports.map s.portReport) else s
  if s.on TLM_CFG_DIG_PC then s.sendItems sl (s.f TLM_CFG_DIG_COLL) 3 64 (s.digItems sl) else s

/-- A boundary fires (R363, R364). -/
def State.tlmBoundary (s : State) (at_ : Nat) : State :=
  let s := (List.range 128).foldl (fun s k => s.sendBatch (k / 4) (k % 4)) s
  let s := s.moveBanks.setTlm (fun t => { t with boundary := at_ })
  let s := s.setF TLM_EPOCH_RD_EPOCH (s.tlmEpoch - 1)
  (List.range 32).foldl State.sliceBoundary s

/-- TELEMETRY_EPOCH (R364): the latest boundary that NT has reached fires, those that it passed are counted in TIME_SKIP; waiting
postcards ask for blocks. -/
def execTelemetryEpoch (cells : List (List Nat)) (s : State) : Host.Outcome State Fault Refusal :=
  let at_ := s.tlmEpoch * s.tlmLen
  .next ((s.when (s.tlm.boundary < at_) fun s =>
    (s.count C_TIME_SKIP ((at_ - s.tlm.boundary) / s.tlmLen - 1)).tlmBoundary at_).tlmPump cells)

/-- TLM_CNT_CLR (R374). -/
def State.tlmCntClrCmd (s : State) : State :=
  s.cclrs [C_TLM_REC, C_TLM_SHIM_FULL, C_TLM_REC_LOST, C_TLM_PC_SENT, C_TLM_PC_DROP]

/-- TLM_CNT_CLR. -/
def execTlmCntClr (s : State) : Host.Outcome State Fault Refusal := .next (s.tlmCntClrCmd)

end Sys2Proof.Machine
end

