-- ==== Sys2Proof/Machine/Frames.lean ====
section
/-! DEFINITION. Frames from the wire to their copies: header slots, parsing, the ingress stages, the end of a received frame, the
disposition, block requests, replication and recirculation (R98, R99, R134 to R146, R183 to R185, R224 to R226, R247 to R250, R347,
R353). -/

namespace Sys2Proof.Machine

/-! ### Start blocks (R134 to R137) -/

/-- A start block begins to wait for its header slot (R137). -/
def State.startBlock (s : State) (p : Nat) (bytes : List Byte) : State :=
  let w := s.fwd.wait.get p
  s.when (2 ≤ s.f MAC_PORT_STAT_STATE p) fun s =>
    if 4 ≤ w.length then (if p < 512 then (s.count C_PRS_SLOT_DROP 1 (sliceOf p)).ev 0x011 (sliceOf p) else s)
    else { s with fwd := { s.fwd with wait := s.fwd.wait.set p (w ++ [{ bytes := bytes, ready := s.nt }]) } }

/-- A frame that the blocks of a trunk group have spelled; one with an error block in it reaches the MAC as an FCS error (R122). -/
def spoilt (x : List Byte × Bool) : List Byte :=
  let n := x.1.length - 4
  if x.2 && x.1.drop n == fcsOf (x.1.take n) then x.1.take n ++ (x.1.drop n).map (fun b => ~~~b) else x.1

/-- START_BLOCK_READY (R134, R137): the receive PCS holds the lead of a frame, whose bytes (its FCS with them) are `bytes`.  A port that is neither
UP nor HELD discards the frame; a fifth waiting start block is discarded and counted.  A port in near-end loopback receives its own frames
alone (R90).  On a trunk port the frame is the oldest that the released blocks of its group spell (R117), and `bytes` says nothing. -/
def execStartBlockReady (p : Fin 514) (bytes : List Byte) (s : State) : Host.Outcome State Fault Refusal :=
  .next (s.when (!s.looped p) fun s =>
    match s.trunkKey p with
    | none => s.startBlock p bytes
    | some k =>
      match (s.trk.grp.get k).rxFrames with
      | [] => s
      | x :: rest => State.startBlock { s with trk := { s.trk with grp := s.trk.grp.upd k (fun g => { g with rxFrames := rest }) } } p (spoilt x))

/-- The header slot that a port may use in this cc: 4 s + position, of one of its lanes (R135). -/
def State.freeSlot (s : State) (p : Nat) : Option Nat :=
  ((s.portLanes p).filter (fun n => n % 4 == s.cc % 4)).map (fun n => 4 * (n / 16) + n % 16 / 4) |>.find? (fun k => !s.fwd.slotUsed.contains k)

/-- LAG of the latest USABLE member of a trunk port in 1/65,536 ns (R272), a cc being 2/3 ns; 0 on an Ethernet port. -/
def State.lagOf (s : State) (p : Nat) : Int :=
  if s.isTrunk s.active p then
    match ((s.portLanes p).filter (fun n => s.f TRK_MEM_STAT_STATE n == 7)).map (fun n => (s.trk.mem.get n).lag) with
    | [] => 0
    | l :: ls => ls.foldl max l * 131072 / 3
  else 0

/-! ### Parser and ingress stages (R139 to R146) -/

/-- Count a parse error in its slice (R142). -/
def State.countParse (s : State) (sl err : Nat) : State :=
  if err = 0 then s
  else if err = 1 then s.count C_PRS_ERR_SHORT 1 sl
  else if err = 2 then s.count C_PRS_ERR_WINDOW 1 sl
  else if err = 3 then s.count C_PRS_ERR_DEPTH 1 sl
  else s.count C_PRS_ERR_REJECT 1 sl

/-- Parse a frame with region C as given, and run ingress stages 0 to 11. -/
def State.ingress (s : State) (f : Nat) (c : List Byte) (ecc : List (Nat × Nat × Nat)) : State :=
  let x := s.frame f
  let sl := sliceOf x.inPort
  let rec0 := List.replicate cT0 0 ++ bytesAt c 0 64
  let p := runParser (s.slot x.slot) sl (ingressReach x.bytes x.whole) rec0
  let s := s.countParse sl p.err
  let r := ingressRecord x p sl x.whole (s.isTrunk x.slot x.inPort)
  let quar := x.quarantined || (x.pass = 0 && s.f DOM_PORT_STAT_STATE x.inPort == 1 &&
    !p.hdrs.any (fun h => h.1 == 20 || h.1 == s.f TIME_CFG_PTP_TYPE))
  let k : Ctx := { record := r, colour := x.colour, slice := sl, genSlot := x.slot, ended := if x.fate = .open then none else some x.len }
  let (s, k) := s.runStages k ecc 0 12
  s.setFrame f { x with stage := .ingress, record := k.record, extracts := p.extracts, edits := k.edits, colour := k.colour
                        tallies := x.tallies ++ k.tallies, debits := x.debits ++ k.debits, drop := k.drop, quarantined := quar }

/-- The domain hello address. -/
def helloDa : List Byte := [0x03, 0x4E, 0x48, 0x00, 0x00, 0x01]

/-- A start block crosses the ingress MAC plane with the lead, in slot position `pos`: t0 of its frame (R27, R135).  The MAC receives up to MAX_LEN
bytes of it (R98). -/
def State.admitFrame (s : State) (p : Nat) (b : StartBlock) (pos : Nat) (ecc : List (Nat × Nat × Nat)) : State :=
  let sl := sliceOf p
  let ctl := fieldAt b.bytes 12 2 == 0x8808
  let hello := p < 512 && !ctl && b.bytes.take 6 == helloDa && fieldAt b.bytes 12 2 == 0x88B5
  let s := if p < 512 then s.ev 0x010 sl else s
  if s.f MAC_PORT_STAT_STATE p = 2 && !ctl then s.count C_RX_HELD_DROP 1 p
  else
    let f := s.fwd.nextFrame
    let s := { s with fwd := { s.fwd with nextFrame := f + 1 } }
    let gen := s.f GEN_ACTIVE_NUM
    let wire := b.bytes.take (s.maxLen s.active p)
    let x : Frame := { stage := .ingress, inPort := p, kct := s.f MAC_CT_T_CUR p, t0cc := s.cc, t0 := s.nt
                       arrival := (s.nt - b.ready) / 2 ^ 24, lag := s.lagOf p, gen := gen, slot := s.active, control := ctl, hello := hello
                       pos := pos, bytes := wire.take 512, wire := wire, tooLong := wire.length < b.bytes.length
                       whole := wire.length ≤ 512, len := min wire.length 512, writer := sl % 32 }
    let s := s.setFrame f x
    if ctl || hello || 512 ≤ p then s else (s.infl s.active 1).ingress f (freshC s.nt gen p) ecc

/-- RECEIVE_FRAME (R134 to R136): the oldest waiting start block of a port that is UP or HELD takes a header slot; AUX ports have none to wait for. -/
def execReceiveFrame (p : Fin 514) (ecc : List (Nat × Nat × Nat)) (s : State) : Host.Outcome State Fault Refusal :=
  .next (s.when (2 ≤ s.f MAC_PORT_STAT_STATE p) fun s =>
    match s.fwd.wait.get p with
    | [] => s
    | b :: rest =>
      let take := fun (s : State) (used : List Nat) =>
        State.admitFrame { s with fwd := { s.fwd with wait := s.fwd.wait.set p rest, slotUsed := used ++ s.fwd.slotUsed } } p b (used.headD 0) ecc
      if 512 ≤ p.val then take s []
      else
        match s.freeSlot p with
        | none => s
        | some k => take s [k])

/-! ### The bytes behind the lead (R27, R217, R233) -/

/-- The bytes of a frame that cross the ingress MAC plane by this cc: byte j in the cc t0 + ceil(12 (j - 511) / R_in). -/
def State.arrive (s : State) (f : Nat) : State :=
  let x := s.frame f
  if x.fate != .open || x.wire.length ≤ x.len then s
  else
    let flow := x.flow + s.portRate x.inPort true
    let n := min x.wire.length (512 + flow / 1200)
    s.setFrame f { x with flow := flow, len := n, bytes := x.bytes ++ (x.wire.take n).drop x.len }

/-- In cell-chain state an enqueued frame takes a cell as its bytes reach a cell boundary (R233).  DESIGN CHOICE (log 70): one that finds none free
ends there like a frame that is cut off. -/
def State.growFrame (s : State) (f : Nat) : State :=
  let x := s.frame f
  match x.block with
  | none => s
  | some a =>
    let have_ := (s.fwd.blocks.get a).cells.length
    let need := ceilDiv (64 + x.bytes.length) 256
    if s.f POOL_STAT_STATE ≠ poolChain || need ≤ have_ then s
    else
      match s.growTo a (need - have_) with
      | (s, true) => s
      | (s, false) => s.frameOver f .cut

/-- What one cc brings a frame: bytes, and, once it is enqueued, cells and their way to the writer queue. -/
def State.frameTick (s : State) (f : Nat) : State :=
  let s := s.arrive f
  if (s.frame f).stage = .done ∨ (s.frame f).stage = .hob then ((s.growFrame f).pushCells f).tidyFrame f else s

/-- Every frame of the chip takes its cc, in the order of R227. -/
def State.framesTick (s : State) : State :=
  (sortBy (fun a b => s.standsBefore (a.2.standing a.1) (b.2.standing b.1)) s.fwd.frames).foldl (fun s e => s.frameTick e.1) s

/-- A frame whose copies have all let go of its block does not write to it any more. -/
def State.letFrame (s : State) (f : Nat) : State :=
  let x := s.frame f
  let held := s.fwd.copies.any (fun e => e.2.frame == f && e.2.state != .none) || s.stk.rx.any (fun e => e.2.any (fun r => r.frame == f))
  if x.stage = .done && x.block.isSome && !held then (s.setFrame f { x with block := none }).tidyFrame f else s

/-! ### Dropping at the crossing -/

/-- A frame ends without copies: its block is released and the in-flight count falls. -/
def State.endFrame (s : State) (f : Nat) : State :=
  let x := s.frame f
  let s := match x.block with
    | some a => s.release a x.tag (sliceOf x.inPort % 32) x.epoch
    | none => s
  ((s.infl x.slot (-1)).setFrame f { x with stage := .done, block := none }).tidyFrame f

/-- Count a drop reason in a slice (R185); the counters saturate. -/
def State.dropReason (s : State) (sl reason : Nat) : State :=
  { s with tab := { s.tab with
      drops := s.tab.drops.upd (256 * sl + reason % 256) (fun n => min (n + 1) (2 ^ 48 - 1))
      dropsNew := s.tab.dropsNew.upd (256 * sl + reason % 256) (· + 1) } }

/-! ### Copies (R184, R241, R242, R247 to R250) -/

/-- The charge of a copy (R241). -/
def State.copyCharge (s : State) (x : Frame) (a : Nat) : Nat :=
  if s.f POOL_STAT_STATE = poolBlock then (s.fwd.blocks.get a).cells.length else poolCells (poolFor x.need)

/-- A copy of a frame for a port and queue. -/
def State.makeCopy (s : State) (f : Nat) (p q : Nat) (mirror : Bool) (trunc : Nat) : Copy :=
  let x := s.frame f
  let a := x.block.getD 0
  let c := regionC x.record
  let c := if mirror then putBytes (putBytes (putBytes c (cEgPort - cT0) (natBytes 2 (0x8000 + p))) (cQueue - cT0) (natBytes 1 q)) (cDisp - cT0) [0]
    else c
  let pr := s.cf x.slot TM_Q_CFG_IPRI x.inPort q
  let rin := s.portRate x.inPort true
  { frame := f, port := p, queue := q, gen := x.gen, slot := x.slot, region := c, block := some a, tag := x.tag, epoch := x.epoch
    charge := s.copyCharge x a, inPort := x.inPort, prio := pr, lossless := !mirror && natBit (s.cf x.slot TM_ING_CFG_LL x.inPort) pr
    t0cc := x.t0cc, kct := x.kct, arrival := (x.arrival : Int) + x.lag, steps := x.steps, pass := x.pass, rin := rin
    saf := x.kct == 63 || rin < s.portRate p false, len := truncTo trunc x.bytes.length, lenKnown := x.fate != .open, ended := x.fate != .open
    fromPort := true, trunkIn := s.isTrunk x.slot x.inPort, trunc := trunc }

/-- Take the next copy number. -/
def State.newCopy (s : State) : State × Nat := ({ s with fwd := { s.fwd with nextCopy := s.fwd.nextCopy + 1 } }, s.fwd.nextCopy)

/-- A unicast or mirror copy crosses, or is dropped at the crossing; answers how many copies were made. -/
def State.oneCopy (s : State) (f p q : Nat) (mirror : Bool) (trunc : Nat) : State × Nat :=
  let x := s.makeCopy f p q mirror trunc
  if !s.crosses p q then (s.crossDrop p q (some (tagClass q)), 0)
  else if !s.admits x then (s.admitDrop x, 0)
  else
    let (s, c) := s.newCopy
    (s.enqueueCopy c x, 1)

/-- A copy that is not ready waits in the frame's residue entry, or is dropped when none is free (R250). -/
def State.toResidue (s : State) (f : Nat) (x : Copy) : State × Nat :=
  let has := s.tm.residue.any (fun e => e.frame == f)
  if !has && 16384 ≤ s.tm.residue.length then (((s.admitDrop x).count C_TM_MC_RES_FULL).flag TM_CHIP_STAT_RES_FULL, 0)
  else
    let (s, c) := s.newCopy
    let s := s.setCopy c { x with state := .residue, enq := s.cc, depthAtEnq := s.f TM_Q_DEPTH_CELLS x.port x.queue }
    let r := if has then s.tm.residue.map (fun e => if e.frame = f then { e with pend := e.pend ++ [c] } else e)
      else s.tm.residue ++ [{ frame := f, nt := s.nt, pend := [c] }]
    (State.setF { s with tm := { s.tm with residue := r } } TM_CHIP_STAT_RES_USED r.length, 1)

/-- One multicast copy (R249); a lossless one that R243 refuses sets HDRM_OVF (R247). -/
def State.mcCopy (s : State) (f p q : Nat) : State × Nat :=
  let x := s.makeCopy f p q false 0
  if !s.crosses p q then (s.crossDrop p q (some (tagClass q)), 0)
  else if (s.oldestPending p q).isSome then s.toResidue f x
  else if !s.admits x then (s.hdrmOvf x).toResidue f x
  else
    let (s, c) := s.newCopy
    (s.enqueueCopy c x, 1)

/-- Multicast replication (R249): the group's ports in ascending order. -/
def State.mcCopies (s : State) (f g q : Nat) : State × Nat :=
  let x := s.frame f
  let grp := (s.slot x.slot).mc.get g
  let ports := (List.range 512).filter (fun p => natBit grp.map p && !(grp.prune && p == x.inPort))
  if ports = [] then (s.count C_TM_MC_EMPTY, 0)
  else
    ports.foldl (fun (st : State × Nat) p =>
      let r := st.1.mcCopy f p (s.mcQueue x.slot p q)
      (r.1, st.2 + r.2)) (s, 0)

/-- Term c of R39: copy i of a frame to one egress slice, counted from 0 in ascending port order over the copies that are enqueued, the mirror
copy with them, leaves floor(i / 4) cc after copy 0. -/
def State.issueTerms (s : State) (f : Nat) : State :=
  let cs := sortBy (fun a b => (s.copy a).port < (s.copy b).port) ((s.copiesOf f).filter (fun c => (s.copy c).state == .queued))
  cs.foldl (fun s c =>
    let x := s.copy c
    let i := ((cs.takeWhile (· != c)).filter (fun d => sliceOf (s.copy d).port == sliceOf x.port)).length
    s.setCopy c { x with term := i / 4 }) s

/-- The punt copy joins the way to the ring of the ingress slice (R184, R399). -/
def State.puntCopy (s : State) (f : Nat) : State :=
  let x := s.frame f
  let k := sliceOf x.inPort % 32
  let r : RxFrame := { inPort := x.inPort, len := x.len, trx := (nt16 x.t0 : Int) - ((x.arrival : Int) + x.lag), region := regionC x.record
                       bytes := x.bytes, frame := f, ended := x.fate != .open, block := x.block.getD 0, tag := x.tag, epoch := x.epoch, slot := x.slot }
  { s with stk := { s.stk with rx := s.stk.rx.set k (s.stk.rx.get k ++ [r]) } }

/-- Hand-off to the engine of the ingress slice (R301): the tag is rewritten, and a full intake queue drops the frame. -/
def State.handOff (s : State) (f ctx : Nat) : State × Nat :=
  let x := s.frame f
  let e := sliceOf x.inPort % 32
  if 64 ≤ (s.hob.intake.filter (fun i => i.eng == e)).length then (s.count C_HOB_INTAKE_DROP, 0)
  else
    let s := s.setTag (x.block.getD 0) (hobTag e)
    let s := { s with hob := { s.hob with intake := s.hob.intake ++ [({ frame := f, ctx := ctx, eng := e } : HobIntake)] } }
    (s.setFrame f { x with stage := .hob, tag := hobTag e }, 1)

/-! ### The enqueue (R183, R224 to R226) -/

/-- The final enqueue of a frame that holds its block, or needs none: its copies are made (R184), the reference count and the
in-flight count set (R197, R229). -/
def State.finalEnqueue (s : State) (f : Nat) (d : Dest) : State :=
  let x := s.frame f
  let (s, n) := match d with
    | .drop r => (s.dropReason (sliceOf x.inPort) r, 0)
    | .hob ctx => s.handOff f ctx
    | .mcast g q => s.mcCopies f g q
    | .unicast p q => s.oneCopy f p q false 0
    | .recirc => (s, 0)
  let (s, m) := match s.mirrorOf x with
    | some k => s.oneCopy f (s.cf x.slot STG_MIR_SESS_PORT k) (s.cf x.slot STG_MIR_SESS_QUEUE k) true (s.cf x.slot STG_MIR_SESS_TRUNC k)
    | none => (s, 0)
  let s := s.issueTerms f
  let (s, k) := if x.punts then (s.puntCopy f, 1) else (s, 0)
  let refs := n + m + k
  if refs = 0 then s.endFrame f
  else
    let s := (s.setCount (x.block.getD 0) refs).infl x.slot ((refs : Int) - 1)
    if (s.frame f).stage = .hob then s else (s.setFrame f { s.frame f with stage := .done }).tidyFrame f

/-- A frame with its block, or one that needs none, crosses: to the return lane or to its final enqueue. -/
def State.cross (s : State) (f : Nat) (d : Dest) : State :=
  let s := s.writeFrame f
  match d with
  | .recirc => s.setFrame f { s.frame f with stage := .returning }
  | d =>
    let x := s.frame f
    let (s, k) := s.digestFrame x.inPort (fieldAt x.record cFlowHash 4)
    let s := if x.fate = .open then s.setFrame f { x with digest := k } else s.digestBytes k x.len
    s.finalEnqueue f d

/-- A frame is refused for want of buffer at its enqueue; one that its disposition drops anyway is counted with its reason (R185). -/
def State.refuseFrame (s : State) (f : Nat) (d : Dest) : State :=
  let s := match d with
    | .drop r => s.dropReason (sliceOf (s.frame f).inPort) r
    | _ => s
  s.endFrame f

/-- The ingress deparse (R146, R176): the frame as its edits leave it, with an empty edit list. -/
def Frame.deparsed (x : Frame) : Frame :=
  { x with bytes := deparse x.record x.bytes x.extracts x.edits, edits := [], extracts := [] }

/-- Ask pool `p` for the frame's block; a frame that is refused is dropped at the crossing.  In cell-chain state a frame takes the cells
that the bytes it has so far reach (R233). -/
def State.frameRequest (s : State) (f p : Nat) (cells : List Nat) (d : Dest) : State :=
  let x := s.frame f
  match s.request x.want p (if s.f POOL_STAT_STATE = poolChain then 64 + x.bytes.length else x.need) x.tag cells with
  | (s, .granted) => (s.setFrame f { x with stage := .ingress, block := some (cells.headD 0), epoch := s.fwd.epoch }).cross f d
  | (s, .fallback) => s.setFrame f { x with stage := .asking, pool := p + 1, askCc := s.cc + 1, steps := x.steps + 1 }
  | (s, .refused) => s.refuseFrame f d
  | (_, .noOccasion) => s

/-- The length that a frame has or will have, as its edits so far leave it. -/
def Frame.fullLen (x : Frame) : Nat := x.bytes.length + (if x.fate = .open then x.wire.length - x.len else 0)

/-- A frame that holds its block from an earlier pass: a pass whose frame needs more than a block holds is dropped, counting the bytes still
to come; a chain takes more cells (R225, R233).  DESIGN CHOICE (log 119): a frame whose block a REBUILD has taken is dropped and counted nowhere. -/
def State.laterPass (s : State) (f : Nat) (d : Dest) : State :=
  let x := s.frame f
  let a := x.block.getD 0
  let have_ := (s.fwd.blocks.get a).cells.length
  if x.epoch ≠ s.fwd.epoch then s.refuseFrame f d
  else if s.f POOL_STAT_STATE = poolChain then
    match s.growTo a (ceilDiv (64 + x.bytes.length) 256 - have_) with
    | (s, true) => s.cross f d
    | (s, false) => s.refuseFrame f d
  else if ceilDiv (64 + x.fullLen) 256 ≤ have_ then s.cross f d
  else (s.count C_BUF_RECIRC_OVER).refuseFrame f d

/-- A frame leaves its ingress stages. -/
def State.enqueueFrame (s : State) (f : Nat) (cells : List Nat) (ecc : Nat) : State :=
  let x := s.frame f
  let d := x.dest
  if x.fate = .runt || x.fate = .oversize || x.fate = .badFcs || x.fate = .cut then
    let r := s.digestFrame x.inPort (fieldAt x.record cFlowHash 4)
    (r.1.digestBytes r.2 x.len).endFrame f
  else if x.quarantined then (s.count C_DOM_QRX_DROP 1 x.inPort).endFrame f
  else
    let y := { x.deparsed with
      need := s.requestBytes x
      want := poolFor (s.requestBytes x)
      tag := if x.block.isSome then x.tag else sliceTag (tagClass (fieldAt x.record cQueue 1 % 16)) (sliceOf x.inPort) }
    if !s.needsBlock x d && x.block.isNone then (s.setFrame f y).cross f d
    else if !s.writerRoom x.writer then ((s.setFrame f y).count C_BUF_WQ_DROP).refuseFrame f d
    else
      let t := (s.poolMeta ecc).setFrame f y
      if x.block.isSome then t.laterPass f d
      else
        let t := t.frameRequest f y.want cells d
        if (t.frame f).stage = .ingress && (t.frame f).block.isNone then s else t

/-- FRAME_ENQUEUE (R25, R30, R183): 30 cc after t0 for each pass; a frame that waits for its end, after it; the frames of a cc in the order of
R227 (R246). -/
def execFrameEnqueue (f : Nat) (cells : List Nat) (ecc : Fin 3) (s : State) : Host.Outcome State Fault Refusal :=
  .next (s.when (s.enqueueDue (s.frame f) && s.turn ((s.frame f).standing f)) fun s => s.enqueueFrame f cells ecc)

/-- POOL_FALLBACK (R226): one cc later the next larger pool is asked. -/
def execPoolFallback (f : Nat) (cells : List Nat) (ecc : Fin 3) (s : State) : Host.Outcome State Fault Refusal :=
  let x := s.frame f
  .next (s.when (s.fallbackDue x && s.turn (x.standing f)) fun s =>
    let t := (s.poolMeta ecc).frameRequest f x.pool cells x.dest
    if (t.frame f).stage = .asking && (t.frame f).pool = x.pool then s else t)

/-! ### Recirculation (R31, R139) -/

/-- The return lane takes a frame, or refuses it. -/
def State.recirculate (s : State) (f : Nat) (ecc : List (Nat × Nat × Nat)) : State :=
  let x := s.frame f
  let sl := sliceOf x.inPort
  if s.fwd.returnUsed.contains sl || 4 ≤ x.pass then (s.count C_PRS_RECIRC_DROP 1 sl).endFrame f
  else
    let s := { s with fwd := { s.fwd with returnUsed := sl :: s.fwd.returnUsed } }
    ((s.setFrame f { x with pass := x.pass + 1, whole := x.fullLen ≤ 512 }).ev 0x014 sl).ingress f (regionC x.record) ecc

/-- Does a frame ask for the return lane: the bytes that the parser may read have arrived. -/
def Frame.returns (x : Frame) : Bool := x.stage == .returning && !x.endDue && (x.fate != .open || 512 ≤ x.bytes.length)

/-- Does a frame of the same slice that may take the return lane stand in a lower slot position (R139). -/
def State.returnAfter (s : State) (f : Nat) (x : Frame) : Bool :=
  s.fwd.frames.any (fun e => e.2.returns && e.2.pass < 4 && sliceOf e.2.inPort == sliceOf x.inPort &&
    (e.2.pos < x.pos || (e.2.pos == x.pos && e.1 < f)))

/-- RECIRC_PASS (R139): the frame in the lowest slot position takes the return lane of its slice, and the others of the cc are refused. -/
def execRecircPass (f : Nat) (ecc : List (Nat × Nat × Nat)) (s : State) : Host.Outcome State Fault Refusal :=
  let x := s.frame f
  .next (s.when (x.returns && (s.fwd.returnUsed.contains (sliceOf x.inPort) || 4 ≤ x.pass || !s.returnAfter f x)) fun s => s.recirculate f ecc)

/-! ### The end of a received frame (R98, R99, R103, R178, R347) -/

/-- A good MAC control frame (R99, R103): counted, and acted on at its decode cc where its receive enable stands. -/
def State.macControl (s : State) (p : Nat) (b : List Byte) : State :=
  let op := fieldAt b 14 2
  let put := fun (s : State) (d : FcDecode) => s.setMp p (fun m => { m with decode := m.decode ++ [d] })
  if op = 1 then
    let s := s.count C_RX_PAUSE 1 p
    if s.on MAC_FC_CFG_PAUSE_RX_EN p && !s.on MAC_FC_CFG_PFC_RX_EN p then put s { at_ := s.cc + 20, times := [fieldAt b 16 2] } else s
  else if op = 0x101 then
    let s := s.count C_RX_PFC 1 p
    if s.on MAC_FC_CFG_PFC_RX_EN p then
      put s { at_ := s.cc + 20, pfc := true, vector := fieldAt b 16 2 % 256, times := (List.range 8).map (fun i => fieldAt b (18 + 2 * i) 2) }
    else s
  else s.count C_RX_CTRL_OTHER 1 p

/-- A good frame is counted (R110). -/
def State.rxGood (s : State) (p n : Nat) : State := (s.count C_RX_FRAMES 1 p).count C_RX_BYTES n p

/-- A bad frame is counted. -/
def State.rxBad (s : State) (p : Nat) (fate : Fate) : State :=
  match fate with
  | .runt => s.count C_RX_RUNT 1 p
  | .oversize => s.count C_RX_OVERSIZE 1 p
  | .badFcs => s.count C_RX_FCS_ERR 1 p
  | _ => s

/-- A good frame of an AUX port joins the way to its receive ring (R108, R399). -/
def State.auxRx (s : State) (x : Frame) (b : List Byte) : State :=
  let k := 32 + (x.inPort - 512)
  let r : RxFrame := { aux := true, inPort := x.inPort - 512, len := b.length, trx := (nt16 x.t0 : Nat), bytes := b, ended := true }
  { s with stk := { s.stk with rx := s.stk.rx.set k (s.stk.rx.get k ++ [r]) } }

/-- A frame that the pipeline does not see has ended: flow control, a hello, or an AUX frame.  DESIGN CHOICE (log 117): of R99, by which MAC control
frames end in the MAC, and R108, by which all that an AUX port receives goes to a ring, the first holds for the control frames of AUX ports. -/
def State.endSpecial (s : State) (f : Nat) (x : Frame) (fate : Fate) : State :=
  let s := s.setFrame f {}
  if fate ≠ .good then s.rxBad x.inPort fate
  else
    let s := s.rxGood x.inPort x.len
    if x.control then s.macControl x.inPort x.wire
    else if x.hello then
      let trx : Int := (nt16 x.t0 : Int) - ((x.arrival : Int) + x.lag)
      s.setDp x.inPort (fun d => { d with rx := d.rx ++ [{ trx := trx, body := bytesAt x.wire 14 64 }] })
    else s.auxRx x x.wire

/-- The outcome of the MAC's checks on a frame whose last byte has crossed (R98): length, then the FCS over the bytes received. -/
def Frame.judged (x : Frame) : Fate :=
  if x.tooLong then .oversize
  else if x.len < 64 then .runt
  else if fcsOf (x.wire.take (x.len - 4)) = x.wire.drop (x.len - 4) then .good
  else .badFcs

/-- A frame of the pipeline has ended at the ingress MAC. -/
def State.endPiped (s : State) (f : Nat) (fate : Fate) : State :=
  let x := s.frame f
  (if fate = .good then s.rxGood x.inPort x.len else s.rxBad x.inPort fate).frameOver f fate

/-- FRAME_END_INGRESS (R27, R98): the frame's last byte has passed the ingress MAC plane. -/
def execFrameEndIngress (f : Nat) (s : State) : Host.Outcome State Fault Refusal :=
  let x := s.frame f
  .next (s.when (x.stage != .none && x.endDue) fun s =>
    if x.control || x.hello || 512 ≤ x.inPort then s.endSpecial f x x.judged else s.endPiped f x.judged)

end Sys2Proof.Machine
end

