-- ==== Sys2Proof/Machine/Egress.lean ====
section
/-! DEFINITION. Egress: cell reads, the egress parser and stages, the egress MAC with one-step stamping and stamp queues, underruns, and
generated frames (R38, R40, R97, R98, R100, R101, R104, R146, R186, R187, R221, R231, R253, R273 to R278, R345, R357 to R365). -/

namespace Sys2Proof.Machine

/-! ### Cell reads (R40, R221) -/

/-- Have all cells of an ended copy been delivered. -/
def State.allGot (s : State) (x : Copy) : Bool :=
  x.ended && (match x.block with
    | none => true
    | some a => min (s.fwd.blocks.get a).cells.length (ceilDiv (64 + x.len) 256) ≤ x.got.length)

/-- With its last cell read delivered a copy lets go of its reference and its charge (R231, R241). -/
def State.letGo (s : State) (c : Nat) : State :=
  let x := s.copy c
  if s.allGot x && x.block.isSome then ((s.releaseCopy x).uncharge x).setCopy c { x with block := none, charge := 0 } else s

/-- A planned copy falls away: the egress MAC is free for the next frame (R187). -/
def State.unplan (s : State) (c : Nat) : State := (s.dropCopy c).replan (s.copy c).port

/-- The first cell of a copy is asked for by R253 and the others by `askMore`; with its last cell read delivered the copy lets go of its block.
An uncorrectable cell: the first drops the copy before the egress stages; a later one ends a copy that is being sent at once, with the
complement of the FCS over the bytes sent, and a copy that has not started, at its start (R221; log 80). -/
def State.deliverCopy (s : State) (c i : Nat) (data : List Byte) (bad : Bool) : State :=
  let x := s.copy c
  if !bad then ((s.setCopy c { x with got := x.got.set i data }).askMore c).letGo c
  else if i = 0 then (s.unplan c).count C_BUF_UNC_DROP
  else if x.state = .sending then (s.endStomped c (x.body.take (s.sentBy x.port x.start))).count C_BUF_UNC_STOMP
  else s.setCopy c { x with broken := true }

/-- A cell that a BUSY READ asked for reaches the stage of its ring (R428). -/
def State.stageCell (s : State) (j c : Nat) (data : List Byte) (bad : Bool) : State :=
  let r := s.ring j
  s.setRing j { r with stage := some (c, data, bad), wanted := if r.wanted = some c then none else r.wanted }

/-- A cell reaches its reader (R40, R41, R428). -/
def State.deliver (s : State) (d : Delivery) : State :=
  match d.read.ring, d.read.copy with
  | some j, _ => s.stageCell j d.read.cell d.data d.bad
  | none, none => s.hobCell d.read d.data d.bad
  | none, some c => if (s.copy c).state = .none then s else s.deliverCopy c d.read.idx d.data d.bad

/-- The cells whose 4 cc of delivery end in this cc reach their readers. -/
def State.arrivals (s : State) : State :=
  let due := s.fwd.arriving.filter (fun d => d.due ≤ s.cc)
  due.foldl State.deliver { s with fwd := { s.fwd with arriving := s.fwd.arriving.filter (fun d => s.cc < d.due) } }

/-- The oldest waiting read of a reader on a stripe, and the reads without it. -/
def takeRead (st rd : Nat) : List CellRead → Option (CellRead × List CellRead)
  | [] => none
  | r :: t =>
    if r.cell % 128 = st && r.reader = rd then some (r, t)
    else (takeRead st rd t).map (fun x => (x.1, r :: x.2))

/-- A read of a copy's first cell that is granted r cc after it was asked for defers the copy's start by r (R39). -/
def State.deferCopy (s : State) (r : CellRead) : State :=
  match r.copy with
  | some c =>
    if r.idx = 0 ∧ r.ctx < s.cc then (s.setCopy c { s.copy c with defer := s.cc - r.ctx }).replan (s.copy c).port else s
  | none => s

/-- A granted read delivers its cell 4 cc later (R41): from the writer queue that still holds it (R217), else from the banks. -/
def State.serveRead (s : State) (r : CellRead) (errs : List (Nat × Nat)) : State :=
  let send := fun (s : State) (data : List Byte) (bad : Bool) =>
    { s with fwd := { s.fwd with arriving := s.fwd.arriving ++ [{ due := s.cc + 4, read := r, data := data, bad := bad }] } }
  match s.inWriter r.cell with
  | some d => send s d false
  | none =>
    let x := s.readCell r.cell errs
    send x.1 x.2.1 x.2.2

/-- A stripe grants one read: of the first reader in pointer order, its oldest. -/
def State.grantRead (s : State) (st : Nat) (errs : List (Nat × Nat)) : State :=
  let bidders := (List.range 64).filter (fun rd => (takeRead st rd s.fwd.reads).isSome)
  match s.firstOf bidders with
  | none => s
  | some rd =>
    match takeRead st rd s.fwd.reads with
    | none => s
    | some (r, rest) =>
      let s := { s with fwd := { s.fwd with reads := rest, stripeR := st :: s.fwd.stripeR } }
      let s := s.ev 0x032
      let s := if r.copy.isSome && r.ctx < s.cc then s.ev 0x034 32 none (s.cc - r.ctx) else s
      (s.deferCopy r).serveRead r errs

/-- CELL_READ_GRANT (R40): at most one grant per stripe in one cc. -/
def execCellReadGrant (st : Fin 128) (errs : List (Nat × Nat)) (s : State) : Host.Outcome State Fault Refusal :=
  .next (s.when (!s.fwd.stripeR.contains st.val) fun s => s.grantRead st errs)

/-! ### The egress parser and stages (R146, R186, R187) -/

/-- Where frame position `o` comes to lie when an edit list is applied. -/
def editedPos (es : List Edit) (o : Nat) : Nat :=
  es.foldl (fun a e => if e.push && e.pos ≤ o then a + e.len else a) ((List.range o).filter (fun i => !popped es i)).length

/-- The length of a PTP common header, which header type PTP_TYPE names (R147, R275). -/
def ptpHeaderLen : Nat := 34

/-- The headers that the egress MAC may name: those left in the frame, by their place in it as deparsed, with a PTP header only when it
lies within the first 192 bytes as parsed (R275). -/
def keptHeaders (ptp n : Nat) (es : List Edit) (hs : List (Nat × Nat)) : List (Nat × Nat) :=
  (hs.filter (fun h => !popped es h.2 && (h.1 != ptp || h.2 + ptpHeaderLen ≤ n))).map (fun h => (h.1, editedPos es h.2))

/-- The record of a copy at egress stage 0: region C alone (R146). -/
def carriedRecord (c : List Byte) : List Byte := List.replicate cT0 0 ++ bytesAt c 0 64

/-- A copy passes the egress parser and egress stages 0 to 5, which may drop it.  Stages 0 to 2 see region C alone, and the rebuilt F is there
from stage 3 on (R146).  Region C is the copy's own: a mirror copy's has its port, queue and DISP replaced (R189). -/
def State.egress (s : State) (c : Nat) (ecc : List (Nat × Nat × Nat)) : State :=
  let x := s.copy c
  let sl := sliceOf x.port
  let head := ((bytesAt (x.got.get 0) 0 256).drop 64).take (if x.lenKnown then x.len else 192)
  let r := s.runStages { record := carriedRecord x.region, egress := true, slice := sl, genSlot := x.slot } ecc 12 3
  let p := runParser (s.slot x.slot) sl (egressReach head (x.lenKnown && x.len ≤ 192)) (carriedRecord (regionC r.2.record))
  let r := r.1.runStages { r.2 with record := egressRecord p } ecc 15 3
  let s := r.1.infl x.slot (-1)
  let k := r.2
  let disp := fieldAt k.record cDisp 1
  let y : Copy := { x with state := .piped, out := deparse k.record head p.extracts k.edits
                           region := putBytes x.region (cDisp - cT0) (natBytes 1 disp), tallies := k.tallies, debits := k.debits
                           hdrs := keptHeaders (s.f TIME_CFG_PTP_TYPE) head.length k.edits (headers k.record) }
  let s := s.setCopy c y
  match k.drop with
  | some d => (s.dropReason sl d).unplan c
  | none =>
    if natBit disp 0 then (s.dropReason sl (fieldAt k.record cDropReason 1)).unplan c else s.replan x.port

/-- EGRESS_PIPELINE (R186): once its first cell is delivered. -/
def execEgressPipeline (c : Nat) (ecc : List (Nat × Nat × Nat)) (s : State) : Host.Outcome State Fault Refusal :=
  .next (s.when ((s.copy c).state == .dequeued && (s.copy c).got.get 0 != []) fun s => s.egress c ecc)

/-! ### One-step stamping (R275 to R277) -/

/-- Does a header lie over IPv4, by the IP header last before it. -/
def overIpv4 (hs : List (Nat × Nat)) (o : Nat) : Bool :=
  (hs.filter (fun h => h.2 < o)).foldl (fun a h => if h.1 = 3 || h.1 = 14 then true else if h.1 = 4 || h.1 = 15 then false else a) false

/-- The UDP header whose checksum a change of the PTP header at `o` updates: the last one before it that has a checksum (R277).  DEDUCED (log 132): the
sum of an outer UDP header stays right when an inner one is updated. -/
def udpBefore (hs : List (Nat × Nat)) (o : Nat) (b : List Byte) : Option Nat :=
  ((hs.filter (fun h => (h.1 == 7 || h.1 == 16) && h.2 < o && !(overIpv4 hs h.2 && fieldAt b (h.2 + 6) 2 == 0))).getLast?).map (·.2)

/-- The 16-bit words of a UDP datagram from `u` that hold `n` bytes at `pos`. -/
def udpWords (b : List Byte) (u pos n : Nat) : List Nat :=
  let lo := u + (pos - u) / 2 * 2
  let k := (pos + n - lo + 1) / 2
  words16 k (beNat (bytesAt b lo (2 * k)))

/-- Write fields of the PTP header at `o` (place and bytes of each), and with them the checksum of the UDP header that carries it (R277). -/
def patchFields (hs : List (Nat × Nat)) (o : Nat) (b : List Byte) (fs : List (Nat × List Byte)) : List Byte :=
  let new := fs.foldl (fun b f => putBytes b f.1 f.2) b
  match udpBefore hs o b with
  | none => new
  | some u =>
    let ws (b : List Byte) : List Nat := fs.foldl (fun a f => a ++ udpWords b u f.1 f.2.length) []
    putBytes new (u + 6) (natBytes 2 (csumInc (fieldAt b (u + 6) 2) (ws b) (ws new)))

/-- The correctionField of the PTP header at `o` with a time in 1/65,536 ns added. -/
def correction (b : List Byte) (o : Nat) (d : Int) : Nat × List Byte :=
  (o + 8, natBytes 8 (unsigned 64 (signed 64 (fieldAt b (o + 8) 8) + d)))

/-- Who sent a frame that may be stamped: Stoker with a T_REF, a port with T_in, or another. -/
inductive Source where
  | stoker (tref : Int)
  | port (tin : Int)
  | other

/-- The stamping action of R276 on frame bytes `b` with headers `hs`, sent on port `p` with T_tx `tx` in 1/65,536 ns. -/
def State.ptpStamp (s : State) (p : Nat) (tx : Int) (src : Source) (hs : List (Nat × Nat)) (b : List Byte) : List Byte :=
  match hs.find? (fun h => h.1 == s.f TIME_CFG_PTP_TYPE) with
  | none => b
  | some (_, o) =>
    let mt := fieldAt b o 1 % 16
    let two := natBit (fieldAt b (o + 6) 1) 1
    if 3 < mt ∨ b.length < o + ptpHeaderLen then b
    else
      match src with
      | .stoker tref =>
        if mt = 0 && !two && s.on TIME_PORT_CFG_OS_EN p then
          let t := trxNt tx
          patchFields hs o b [(o + 34, natBytes 6 (ntSec t) ++ natBytes 4 (ntNsField t)), correction b o (ntFrac t : Nat)]
        else if mt = 3 && !two && s.on TIME_PORT_CFG_OS_EN p then patchFields hs o b [correction b o (tx - tref)]
        else b
      | .port tin => if s.on TIME_PORT_CFG_TC_EN p then patchFields hs o b [correction b o (tx - tin)] else b
      | .other => b

/-- T_tx of a frame that starts in this cc. -/
def State.txTime (s : State) (p : Nat) : Int := (nt16 s.nt : Int) + (s.f TIME_PORT_TXC_CORR p : Nat)

/-- The stamp-queue entry of a frame with a stamp request (R278, R280); for a frame without a PTP header the spec states no MSG_TYPE,
SEQ_ID and DOMAIN, which are free. -/
def State.stampEntry (s : State) (p : Nat) (hs : List (Nat × Nat)) (b : List Byte) (tag : Nat) : State :=
  let q := if p < 512 then sliceOf p else 32
  let pn := if p < 512 then p else p - 512
  match hs.find? (fun h => h.1 == s.f TIME_CFG_PTP_TYPE) with
  | some (_, o) => s.tsqPush q (fieldAt b o 1 % 16) pn (fieldAt b (o + 30) 2) s.nt (fieldAt b (o + 4) 1) tag
  | none => s.fresh.tsqPush q (s.freeVal % 16) pn (s.freeVal / 16 % 65536) s.nt (s.freeVal / 2 ^ 20 % 256) tag

/-! ### The egress MAC (R23, R38, R97, R98, R101) -/

/-- Who sent a copy. -/
def State.source (s : State) (x : Copy) : Source :=
  if x.fromStk then .stoker (x.tref : Nat)
  else if x.fromPort then .port (x.trx - (s.f TIME_PORT_RXC_CORR x.inPort : Nat))
  else .other

/-- The bytes of an ended copy's block behind its first cell, as they are written or wait in writer queues. -/
def State.storedTail (s : State) (x : Copy) : List Byte :=
  match x.block with
  | none => x.data.drop 192
  | some a =>
    if (s.frame x.frame).block = some a ∧ (s.frame x.frame).epoch = x.epoch then ((s.frame x.frame).bytes.take x.len).drop 192
    else
      let cell := fun (i c : Nat) =>
        if x.got.get i ≠ [] then bytesAt (x.got.get i) 0 256 else (s.inWriter c).getD (bytesAt (s.fwd.cells.get c).bytes 0 256)
      ((((s.fwd.blocks.get a).cells.zipIdx.drop 1).foldl (fun b e => b ++ cell e.2 e.1) []).take (x.len - 192))

/-- The whole of an ended copy without its FCS, as the egress stages left it. -/
def State.wholeBody (s : State) (x : Copy) : List Byte := (x.out ++ s.storedTail x).take (x.out.length + (x.len - 192) - 4)

/-- The bytes of a copy as sent: with the shim, the padding and a new FCS, or, of a frame that turned out bad, padded and with the complement of the
FCS (R97, R98, R360), and the state with what the shim counts. -/
def State.wireOf (s : State) (x : Copy) (body : List Byte) : State × List Byte :=
  if x.bad then (s, stompFrame (padded body))
  else
    let r := s.shimOut x body x.hop x.sel
    (r.1, sealBody r.2)

/-- The end of a copy that is being sent is known: the line is busy until S + s + g, with L as sent (R38, R361). -/
def State.lineKnown (s : State) (c : Nat) : State :=
  let x := s.copy c
  let r := s.portRate x.port false
  let n := (s.wireOf x (s.wholeBody x)).2.length
  (s.setMp x.port (fun m => { m with openFrame := none, lineEnd := x.start + termS n r + termG r })).replan x.port

/-- The frames on open lines whose end has become known in this cc. -/
def State.linesTick (s : State) : State :=
  (s.fwd.copies.filter (fun e => e.2.state == .sending && e.2.ended && (s.mp e.2.port).openFrame == some e.1)).foldl (fun s e => s.lineKnown e.1) s

/-- A copy's start block passes to the transmit PCS. -/
def State.macStart (s : State) (c : Nat) : State :=
  let x := s.copy c
  let b := s.ptpStamp x.port (s.txTime x.port) (s.source x) x.hdrs x.out
  let out := b.take x.out.length
  let s := match x.stamp with
    | some tag => s.stampEntry x.port x.hdrs b tag
    | none => s
  let r := s.hopSelect x
  let y : Copy := { x with state := .sending, start := s.cc, out := out, behind := b.drop x.out.length, hop := r.1.hopRecord x s.cc s.nt, sel := r.2 }
  let s := (r.1.histogram x s.cc).setCopy c y
  let s := s.setMp x.port (fun m => { m with openFrame := some c })
  if x.broken then (s.endStomped c (y.body.take (s.sentBy x.port s.cc))).count C_BUF_UNC_STOMP
  else (if x.ended then s.lineKnown c else s).askMore c

/-- May a frame start on a port in this cc: the port is UP and its line free. -/
def State.lineFree (s : State) (p : Nat) : Bool := s.macUp p && (s.mp p).lineEnd ≤ s.cc && (s.mp p).openFrame.isNone

/-- EGRESS_MAC_START (R23, R38): at its planned cc S, the copies of a port in the order in which they are planned. -/
def execEgressMacStart (c : Nat) (cells : List (List Nat)) (s : State) : Host.Outcome State Fault Refusal :=
  let x := s.copy c
  .next (s.when (x.state == .piped && x.start ≤ s.cc && s.lineFree x.port && (s.planned x.port).head? == some c) fun s =>
    (s.macStart c).tlmPump cells)

/-- The first cell of a copy that has not been delivered. -/
def Copy.missing (x : Copy) : Nat := ((List.range 64).takeWhile (fun i => x.got.get i != [])).length

/-- Is a cut-through copy's next cell missing in the cc in which the line needs it: a frame that is wholly stored never underruns (R41, R42). -/
def State.underruns (s : State) (x : Copy) : Bool :=
  x.state == .sending && x.fromPort && !x.saf && !s.allGot x && s.cellAt x x.missing ≤ s.cc

/-- TRANSMIT_UNDERRUN (R101): the frame ends with the complement of the FCS over the bytes sent, which are those before the missing cell. -/
def execTransmitUnderrun (c : Nat) (s : State) : Host.Outcome State Fault Refusal :=
  let x := s.copy c
  .next (s.when (s.underruns x) fun s =>
    ((s.endStomped c x.body).count C_TX_UNDERRUN 1 x.port).thresholdRise x.inPort)

/-- A copy has been sent: shim, padding, FCS, counts of L as sent (R97, R98, R178, R360). -/
def State.txEnd (s : State) (c : Nat) : State :=
  let x := s.copy c
  let p := x.port
  let s := if (s.mp p).openFrame = some c then s.lineKnown c else s
  let r := s.wireOf x x.body
  let wire := r.2
  let s := if x.bad then r.1.count C_TX_STOMP 1 p else (r.1.count C_TX_FRAMES 1 p).count C_TX_BYTES wire.length p
  ((s.settleL wire.length x.tallies x.debits).toLine p wire).endCopy c false

/-- Has the line taken the whole of a copy. -/
def State.lineTook (s : State) (x : Copy) : Bool := x.start + termS (s.wireOf x x.body).2.length (s.portRate x.port false) ≤ s.cc

/-- FRAME_TX_END (R231): once every cell is delivered and the line has taken the frame. -/
def execFrameTxEnd (c : Nat) (ecc : Fin 3) (cells : List (List Nat)) (s : State) : Host.Outcome State Fault Refusal :=
  let x := s.copy c
  .next (s.when (x.state == .sending && s.allGot x && s.lineTook x) fun s => ((s.poolMeta ecc).txEnd c).tlmPump cells)

/-! ### Generated frames (R104, R345, R398) -/

/-- The headers of a frame that takes the direct path: PTP over Ethernet, or over UDP ports 319 and 320, behind at most two tags. -/
def directHeaders (ptp : Nat) (b : List Byte) : List (Nat × Nat) :=
  let tag := fun (o : Nat) => fieldAt b o 2 == 0x8100 || fieldAt b o 2 == 0x88A8
  let o := if !tag 12 then 12 else if !tag 16 then 16 else 20
  let udp := fun (ip : Nat × Nat) (u : Nat) =>
    if fieldAt b (u + 2) 2 = 319 || fieldAt b (u + 2) 2 = 320 then [ip, (7, u), (ptp, u + 8)] else []
  let hs := if fieldAt b o 2 = 0x88F7 then [(ptp, o + 2)]
    else if fieldAt b o 2 = 0x0800 && fieldAt b (o + 2 + 9) 1 == 17 then udp (3, o + 2) (o + 2 + 4 * (fieldAt b (o + 2) 1 % 16))
    else if fieldAt b o 2 = 0x86DD && fieldAt b (o + 2 + 6) 1 == 17 then udp (4, o + 2) (o + 2 + 40)
    else []
  if hs.all (fun h => h.1 != ptp || h.2 + ptpHeaderLen ≤ min b.length 192) then hs else []

/-- The destination address of pause and PFC frames. -/
def pauseDa : List Byte := [0x01, 0x80, 0xC2, 0x00, 0x00, 0x01]

/-- The bytes of a pause or PFC frame (R104). -/
def State.fcFrame (s : State) (p : Nat) (g : GenFrame) : List Byte :=
  pauseDa ++ s.sourceAddr p ++ [0x88, 0x08] ++
    (if g.pfc then [0x01, 0x01] ++ natBytes 2 g.vector ++ g.times.foldl (fun a t => a ++ natBytes 2 t) []
     else [0x00, 0x01] ++ natBytes 2 (g.times.headD 0))

/-- What a generated frame does beside going onto the line, and its bytes without the FCS. -/
def State.genStart (s : State) (p : Nat) (g : GenFrame) : State × List Byte :=
  if g.hello then
    let b := s.helloFrame p (trxNt (s.txTime p))
    ((s.setDp p (fun d => { d with hseq := (d.hseq + 1) % 2 ^ 32 })).count C_DOM_HELLO_TX 1 p, b)
  else if g.fc then (s.count C_TX_FC 1 p, s.fcFrame p g)
  else
    let hs := directHeaders (s.f TIME_CFG_PTP_TYPE) g.bytes
    let b := s.ptpStamp p (s.txTime p) (.stoker (g.tref : Nat)) hs g.bytes
    match g.stamp with
    | some tag => (s.stampEntry p hs b tag, b)
    | none => (s, b)

/-- The first generated frame of a port starts; it is counted when it has left. -/
def State.genSend (s : State) (p : Nat) (g : GenFrame) (rest : List GenFrame) : State :=
  let r := s.genStart p g
  let wire := sealBody r.2
  let rate := s.portRate p false
  (r.1.setMp p (fun m => { m with gen := rest, genOut := some (s.cc, wire), lineEnd := s.cc + termS wire.length rate + termG rate })).replan p

/-- GENERATED_FRAME_SEND (R104): at the next frame boundary, ahead of every queue; it ends LPI and then waits for the wake time (R105). -/
def execGeneratedFrameSend (p : Fin 514) (s : State) : Host.Outcome State Fault Refusal :=
  .next (match (s.mp p).gen with
    | [] => s
    | g :: rest => s.when (s.lineFree p && !(s.mp p).asleep && (s.mp p).lpiExit.isNone) fun s => s.genSend p g rest)

end Sys2Proof.Machine
end

