-- ==== Sys2Proof/Machine/Faults.lean ====
section
/-! DEFINITION. The fault collector, its records and reactions, the safe state and injection (R459 to R476). -/

namespace Sys2Proof.Machine

/-! ### Live conditions (R465) -/

/-- Is the hottest sensor at or above the least of WARN - 2, HI - 2 and TRIP - 5 °C, or a sensor excluded. -/
def State.heatLive (s : State) : Bool :=
  let least : Int := min (min ((s.f PWR_THERM_WARN : Int) - 2) ((s.f PWR_THERM_HI : Int) - 2)) ((s.f PWR_THERM_TRIP : Int) - 5)
  (List.range 64).any (fun k => !s.on PWR_TSENS_VALID k) ||
    (match s.hottest with
     | some (t, _) => least * 4 ≤ t
     | none => false)

/-- Has an octet an enabled lane. -/
def State.octetEnabled (s : State) (o : Nat) : Bool := (List.range 8).any (fun i => s.on LANE_CTL_EN (8 * o + i))

/-- Is the REFCLK input that serves an octet with an enabled lane absent. -/
def State.clockLive (s : State) : Bool :=
  (List.range 64).any (fun o => s.octetEnabled o && !s.on LANE_REFCLK_PRESENT (o / 8))

/-- Is the group of an enabled trunk port not UP. -/
def State.linkLive (s : State) : Bool :=
  (List.range 512).any (fun p => s.caOn MAC_PORT_CFG_EN p && s.isTrunk s.active p && !s.linkReady p)

/-- The live condition of a class in this cc. -/
def State.live (s : State) (cls : Nat) : Bool :=
  match cls with
  | 2 => s.pwr.overs != 0 || s.pwr.failed
  | 3 => s.heatLive
  | 4 => s.clockLive
  | 6 => s.linkLive
  | 7 => s.f TIME_STAT_STATE == servoHoldover || (s.f TIME_STAT_STATE == servoFree && s.time.freeAfterHold)
  | 8 => (List.range 64).any (fun o => s.on LANE_OCT_STAT_SPREAD_CONFLICT o)
  | 10 => (List.range 4).any (fun p => s.f POOL_FREE_FREE p < s.f POOL_LOWTHR_THR p)
  | 11 => s.f JOR_RING_STAT_STATE 0 != 2 || s.f JOR_RING_STAT_STATE 1 != 2
  | 13 => (List.range 512).any (fun p => s.f DOM_PORT_STAT_STATE p == 1)
  | _ => false

/-- The word that FLT_SUM reads. -/
def State.fltSumWord (s : State) : Word :=
  BitVec.ofNat 32 ((List.range 16).foldl (fun a c =>
    a + (if s.live c then 2 ^ (16 + c) else 0) + (if s.on FLT_REC_STAT_VALID c then 2 ^ c else 0)) 0)

/-- The word that FLT_RECc_STAT reads: LIVE while the record is open (R465). -/
def State.fltRecWord (s : State) (c : Nat) : Word :=
  wordPut (s.rget FLT_REC_STAT c) FLT_REC_STAT_LIVE.lsb 1 (s.on FLT_REC_STAT_VALID c && s.live c).toNat

/-! ### Entry into the safe state (R469) -/

/-- Enter the safe state: for the fault of a class and cause, or by software.  A second record that asks for it in the cc of entry gets
SAFED too, and FLT_SAFE_INFO names the lower class.  DEDUCED (log 136): a fault and a software entry of one cc enter for the fault. -/
def State.enterSafe (s : State) (fault : Option (Nat × Nat)) : State :=
  let mark := fun (s : State) => match fault with
    | some (c, _) => s.setF FLT_REC_STAT_SAFED 1 c
    | none => s
  let info := fun (s : State) => match fault with
    | some (c, k) => s.rset FLT_SAFE_INFO (BitVec.ofNat 32 (c * 65536 + k % 256 * 256))
    | none => s.rset FLT_SAFE_INFO (BitVec.ofNat 32 (2 ^ 31))
  if s.isSafe then
    match fault with
    | some (c, _) =>
      if s.flt.safeDue = some (s.cc + 12) then
        if s.on FLT_SAFE_INFO_SW || c < s.f FLT_SAFE_INFO_CLASS then info (mark s) else mark s
      else s
    | none => s
  else
    let s := info (mark s)
    ({ s with flt := { s.flt with safeDue := some (s.cc + 12) } }.setF FLT_STAT_SAFE 1).flag FLT_STAT_SAFE_EV

/-! ### Reactions (R467) -/

/-- The reaction nibble at a level in a class's FLT_REACT; SAFE of level 3 is always 1. -/
def nibbleOf (r : Word) (level : Nat) : Nat := wordBits r (8 * level) 4 ||| (if level = 3 then 8 else 0)

/-- React to a fault of class `c` at a level, by the reactions `r` of the cc in which it was raised. -/
def State.react (s : State) (r : Word) (c level code : Nat) : State :=
  let n := nibbleOf r level
  let s := if natBit n 0 then s.irq 10 else s
  let s := if natBit n 1 then s.hostMsg 0 2 0 (c * 256 + level) else s
  let s := if natBit n 2 then s.hostMsg 1 2 0 (c * 256 + level) else s
  if natBit n 3 then s.enterSafe (some (c, code)) else s

/-! ### The record (R462 to R464) -/

/-- Does fault `a` come before `b` in its record: detected earlier, or in the same cc with the lower code, then the lower INFO. -/
def FaultEv.before (a b : FaultEv) : Bool :=
  a.cc < b.cc || (a.cc == b.cc && (a.code < b.code || (a.code == b.code && a.info ≤ b.info)))

/-- The next fault of a class to be written. -/
def nextFault (c : Nat) (l : List FaultEv) : Option FaultEv :=
  l.foldl (fun (a : Option FaultEv) e =>
    if e.cls ≠ c then a
    else match a with
      | none => some e
      | some b => if b.before e then a else some e) none

/-- The level at which a fault would be passed to its reaction (R462). -/
def State.effective (s : State) (e : FaultEv) : Nat := if s.on FLT_REC_STAT_VALID e.cls then min (e.level + 1) 3 else e.level

/-- Open a record. -/
def State.openRecord (s : State) (e : FaultEv) : State :=
  let c := e.cls
  let w := 2 ^ 31 + (if e.inj then 2 ^ 28 else 0) + e.level % 4 * 2 ^ 24 + e.level % 4 * 2 ^ 22 + 2 ^ 16 + e.code % 256 * 256 + e.code % 256
  let s := (s.rset FLT_REC_STAT (BitVec.ofNat 32 w) c).rset FLT_REC_INFO (BitVec.ofNat 32 (e.info % 65536 * 65536 + e.info % 65536)) c
  s.setNt3 FLT_REC_NT_HI_SEC_HI FLT_REC_NT_MID_SEC_LO FLT_REC_NT_LO_NS s.nt c

/-- A further fault of an open record escalates. -/
def State.addRecord (s : State) (e : FaultEv) (eff : Nat) : State :=
  let c := e.cls
  let s := (s.setF FLT_REC_STAT_LEVEL (max (s.f FLT_REC_STAT_LEVEL c) eff) c).setF FLT_REC_STAT_ESC 1 c
  let s := (s.satF FLT_REC_STAT_COUNT 1 c).setF FLT_REC_STAT_LAST_CAUSE e.code c
  let s := s.setF FLT_REC_INFO_LAST_INFO e.info c
  if e.inj then s.setF FLT_REC_STAT_INJ 1 c else s

/-- Write one fault to its record, count it and react (R462); an in-place raise only lifts LEVEL to 2 and reacts at level 2 (R463). -/
def State.recordFault (s : State) (e : FaultEv) : State :=
  if e.lift then (s.setF FLT_REC_STAT_LEVEL (max (s.f FLT_REC_STAT_LEVEL e.cls) 2) e.cls).react e.react e.cls 2 e.code
  else
    let eff := s.effective e
    let s := if s.on FLT_REC_STAT_VALID e.cls then s.addRecord e eff else s.openRecord e
    ((s.count C_FLT_TOTAL 1 e.cls).ev 0x061).react e.react e.cls eff e.code

/-- The faults that may be written now.  DEDUCED (log 136): a record is written in a cc after the detection, when the faults of one cc and class
are all known and can be put in their order (R464). -/
def State.duePend (s : State) : List FaultEv := s.flt.pend.filter (fun e => e.cc < s.cc)

/-- FAULT_RECORD (R461, R462, R464): the next detected fault of a class is written. -/
def execFaultRecord (c : Fin 16) (s : State) : Host.Outcome State Fault Refusal :=
  .next (match nextFault c s.duePend with
    | none => s
    | some e => State.recordFault { s with flt := { s.flt with pend := s.flt.pend.erase e } } e)

/-! ### Acknowledgement (R466) -/

/-- Close a record. -/
def State.closeRecord (s : State) (c : Nat) : State :=
  ((((s.rset FLT_REC_STAT 0 c).rset FLT_REC_INFO 0 c).rset FLT_REC_NT_HI 0 c).rset FLT_REC_NT_MID 0 c).rset FLT_REC_NT_LO 0 c

/-- The live condition of a class with an open record as it held at the start of the cc (R466). -/
def State.liveBefore (s : State) (c : Nat) : Bool :=
  match s.flt.liveAt.find? (fun e => e.1 == c) with
  | some e => e.2
  | none => s.live c

/-- What R466 looks at in the next cc: the live conditions of the classes with open records. -/
def State.noteLive (s : State) : State :=
  { s with flt := { s.flt with liveAt := ((List.range 16).filter (fun c => s.on FLT_REC_STAT_VALID c)).map (fun c => (c, s.live c)) } }

/-- An acknowledgement of record `c`. -/
def State.ackRecord (s : State) (c : Nat) : State :=
  if !s.on FLT_REC_STAT_VALID c then s
  else if s.liveBefore c || s.flt.raised.contains c then s.flag FLT_STAT_ACK_REFUSED
  else s.closeRecord c

/-- ACK (R466). -/
def execAck (c : Fin 16) (s : State) : Host.Outcome State Fault Refusal := .next (s.ackRecord c)

/-! ### The safe state (R469 to R472) -/

/-- What the safe-state command forces in every block (R470). -/
def State.forceSafe (s : State) : State :=
  let s := s.lanesSafe
  let s := (List.range 514).foldl State.portSafe s
  let s := ((s.hobSafe).toutSafe)
  let s := if s.draining && !s.tm.flushed then s.drainFlush else s
  let s := s.tlm.out.foldl (fun s x => s.recLost x.records) s
  s.setTlm (fun t => { t with out := [] })

/-- SAFE_STATE_COMMAND (R469, R470): 12 cc after entry. -/
def execSafeStateCommand (s : State) : Host.Outcome State Fault Refusal :=
  .next (match s.flt.safeDue with
    | none => s
    | some d => s.when (d ≤ s.cc) fun s => State.forceSafe { s with flt := { s.flt with safeDue := none } })

/-- SAFE_ENTER (R469). -/
def execSafeEnter (s : State) : Host.Outcome State Fault Refusal := .next (s.enterSafe none)

/-- Is a fault detected in this cc whose reaction has SAFE. -/
def State.safeComing (s : State) : Bool := s.flt.pend.any (fun e => e.cc == s.cc && natBit (nibbleOf e.react (s.effective e)) 3)

/-- Leave the safe state, or be refused (R472). -/
def State.exitSafe (s : State) : State :=
  if !s.isSafe then s
  else if (List.range 16).any (fun c => s.on FLT_REC_STAT_SAFED c) || s.safeComing then s.flag FLT_STAT_EXIT_REFUSED
  else
    let s := State.setF { s with flt := { s.flt with safeDue := none } } FLT_STAT_SAFE 0
    s.hobResume.lanesResume

/-- SAFE_EXIT (R472). -/
def execSafeExit (s : State) : Host.Outcome State Fault Refusal := .next s.exitSafe

/-- A write of FLT_SAFE_CTL: EXIT and ENTER together act as ENTER. -/
def State.safeCtl (s : State) (v : Word) : State :=
  if wordBits v 30 1 = 1 then s.enterSafe none else if wordBits v 31 1 = 1 then s.exitSafe else s

/-- A write of FLT_REACTc; it acts from the next cc, and bit 27 stays 1. -/
def State.reactWrite (s : State) (c : Nat) (v : Word) : State :=
  let old := s.reactWord c
  let s := { s with flt := { s.flt with oldReact := s.flt.oldReact ++ [(c, old)] } }
  s.rset FLT_REACT ((v &&& 0x0F0F0F0F#32) ||| 0x08000000#32) c

/-! ### Factory test injection (R474) -/

/-- A write of FLT_INJ. -/
def State.inject (s : State) (v : Word) : State :=
  if !s.flt.test then s.raise 14 1 3
  else
    let s := ((s.setF FLT_INJ_LEVEL (wordBits v 20 2)).setF FLT_INJ_CLASS (wordBits v 16 4)).setF FLT_INJ_CAUSE (wordBits v 8 8)
    if wordBits v 31 1 = 1 then s.raise (wordBits v 16 4) (wordBits v 20 2) (wordBits v 8 8) 0 true else s

/-- FAULT_INJECT (R474). -/
def execFaultInject (v : Word) (s : State) : Host.Outcome State Fault Refusal := .next (s.inject v)

/-- A write of FLT_INJ_MEM. -/
def State.injectMem (s : State) (v : Word) : State :=
  if !s.flt.test then s.raise 14 1 3
  else
    let t := if 4 ≤ wordBits v 28 3 then 0 else wordBits v 28 3
    let n := if wordBits v 26 2 = 2 then 2 else 1
    let c := min (wordBits v 22 4) 9
    let s := (((s.setF FLT_INJ_MEM_TARGET t).setF FLT_INJ_MEM_FLIPS n).setF FLT_INJ_MEM_CHUNK c).setF FLT_INJ_MEM_INDEX (wordBits v 0 22)
    if wordBits v 31 1 = 1 then
      let a : MemArm := { target := t, flips := if 2 ≤ t then 1 else n, chunk := c, index := wordBits v 0 22 }
      State.raise { s with flt := { s.flt with arm := some a } } 15 0 2
    else s

/-- MEM_INJECT_ARM (R474). -/
def execMemInjectArm (v : Word) (s : State) : Host.Outcome State Fault Refusal := .next (s.injectMem v)

/-- FLT_CNT_CLR (R476). -/
def State.fltCntClrCmd (s : State) : State :=
  (List.range 16).foldl (fun s c => s.cclr C_FLT_TOTAL c) s

/-- FLT_CNT_CLR. -/
def execFltCntClr (s : State) : Host.Outcome State Fault Refusal := .next (s.fltCntClrCmd)

end Sys2Proof.Machine
end

