-- ==== Sys2Proof/Machine/Rings.lean ====
section
/-! DEFINITION. The Joring link but for its frames: input states, breaks, the hardware semaphores and messages to the host (R422,
R430, R431, R433, R435). -/

namespace Sys2Proof.Machine

/-! ### Semaphores (R389, R430, R431, R439) -/

/-- The holder of semaphore `n`: 0 free, 1 JA, 2 JB, 3 to 6 K0 to K3. -/
def State.sem (s : State) (n : Nat) : Nat := s.jor.sem.get n

/-- Give semaphore `n` a holder. -/
def State.setSem (s : State) (n who : Nat) : State := { s with jor := { s.jor with sem := s.jor.sem.set n who } }

/-- `who` takes a free semaphore; answers whether it was free. -/
def State.semTake (s : State) (n who : Nat) : State × Bool := if s.sem n = 0 then (s.setSem n who, true) else (s, false)

/-- `who` frees a semaphore that it holds; answers whether it held it. -/
def State.semGive (s : State) (n who : Nat) : State × Bool := if s.sem n = who then (s.setSem n 0, true) else (s, false)

/-- The word that JOR_SEM_HELDw reads. -/
def State.semHeldWord (s : State) (w : Nat) : Word :=
  BitVec.ofNat 32 ((List.range 32).foldl (fun a i => if s.sem (32 * w + i) = 0 then a else a + 2 ^ i) 0)

/-- The word that JOR_SEM_OWNw reads. -/
def State.semOwnWord (s : State) (w : Nat) : Word :=
  BitVec.ofNat 32 ((List.range 8).foldl (fun a i => a + s.sem (8 * w + i) % 16 * 2 ^ (4 * i)) 0)

/-- A write of JOR_SEM_FREE with GO (R431). -/
def State.semFree (s : State) (n : Nat) : State := (s.setSem n 0).flag JOR_SEM_EV_FORCED

/-- JOR_SEM_FREE (R431). -/
def execJorSemFree (n : Fin 64) (s : State) : Host.Outcome State Fault Refusal := .next (s.semFree n.val)

/-- Is the input of ring `j` UP. -/
def State.ringUp (s : State) (j : Nat) : Bool := s.f JOR_RING_STAT_STATE j == 2

/-- Has the input of ring `j` been out of UP for TMO_MS. -/
def State.semTimedOut (s : State) (j : Nat) : Bool :=
  !s.ringUp j && s.f JOR_SEM_CFG_TMO_MS != 0 && !(s.ring j).timedOut && (s.ring j).downFrom + s.f JOR_SEM_CFG_TMO_MS * 1500000 ≤ s.cc

/-- SEM_RING_TIMEOUT (R431): every semaphore of the ring is freed, and LOST is set. -/
def execSemRingTimeout (ring : Fin 2) (s : State) : Host.Outcome State Fault Refusal :=
  .next (s.when (s.semTimedOut ring.val) fun s =>
    let s := s.setRing ring.val { s.ring ring.val with timedOut := true }
    ((List.range 64).foldl (fun s n => (s.semGive n (ring.val + 1)).1) s).flag JOR_SEM_EV_LOST)

/-! ### Inputs (R422, R435) -/

/-- RING_BLOCK_LOCK (R422): 64 valid sync headers. -/
def execRingBlockLock (ring : Fin 2) (s : State) : Host.Outcome State Fault Refusal :=
  .next (s.when (s.f JOR_RING_STAT_STATE ring == 0) fun s => s.setF JOR_RING_STAT_STATE 1 ring)

/-- RING_INPUT_UP (R422): 16 valid blocks. -/
def execRingInputUp (ring : Fin 2) (s : State) : Host.Outcome State Fault Refusal :=
  .next (s.when (s.f JOR_RING_STAT_STATE ring == 1) fun s =>
    State.setRing (s.setF JOR_RING_STAT_STATE 2 ring) ring.val { s.ring ring.val with wasUp := true })

/-- RING_INPUT_DOWN (R422, R435): from LOCK or UP to DOWN; leaving UP is a break. -/
def execRingInputDown (ring : Fin 2) (s : State) : Host.Outcome State Fault Refusal :=
  .next (s.when (s.f JOR_RING_STAT_STATE ring != 0) fun s =>
    let up := s.ringUp ring.val
    let s := (s.setF JOR_RING_STAT_STATE 0 ring).setF JOR_RING_STAT_BRK_RX 0 ring
    if up then
      let s := s.setRing ring.val { s.ring ring.val with downFrom := s.cc, timedOut := false, tx := [] }
      (s.flag JOR_RING_STAT_BREAK_EV ring).raise 11 1 1 ring.val
    else s)

/-- BRK_BLOCK_RX (R422): an input in UP records the sender's address. -/
def execBrkBlockRx (ring : Fin 2) (a : Fin 64) (s : State) : Host.Outcome State Fault Refusal :=
  .next (s.when (s.ringUp ring.val) fun s => (s.setF JOR_RING_STAT_BRK_RX 1 ring).setF JOR_RING_STAT_BRK_ADDR a ring)

/-! ### Messages (R433) and counters (R440) -/

/-- Removes every message whose MSEQ is at or before the one written, modulo 256. -/
def State.jorMsgAck (s : State) (j mseq : Nat) : State :=
  let r := s.ring j
  let l := r.msgs.filter (fun m => 128 ≤ (mseq + 256 - m.mseq % 256) % 256)
  (s.setRing j { r with msgs := l }).setF JOR_MSG_QUEUED l.length j

/-- JOR_MSG_ACK (R433). -/
def execJorMsgAck (ring : Fin 2) (mseq : BitVec 8) (s : State) : Host.Outcome State Fault Refusal :=
  .next (s.jorMsgAck ring.val mseq.toNat)

/-- A clear of a ring's six JOR counters. -/
def State.jorCntClr (s : State) (j : Nat) : State :=
  s.cclrs [C_JOR_RX_FRAMES, C_JOR_HCRC_ERR, C_JOR_CRC_ERR, C_JOR_DUP, C_JOR_BUSY, C_JOR_MSG_DROP] j

/-- JOR_CNT_CLR (R440). -/
def execJorCntClr (ring : Fin 2) (s : State) : Host.Outcome State Fault Refusal := .next (s.jorCntClr ring.val)

end Sys2Proof.Machine
end

