-- ==== Sys2Proof/Machine/StokerCtl.lean ====
section
/-! DEFINITION. Stoker's cores and rings as the chip drives them: running and halted cores, entry into a handler, interrupts, the
command rings' TAIL and the receive rings (R377, R386, R390, R391, R394, R399, R400). -/

namespace Sys2Proof.Machine

/-! ### Cores (R390, R391) -/

/-- Is core `k` awake: it is not halted, waits for no interrupt and has no exception to enter. -/
def State.coreAwake (s : State) (k : Nat) : Bool :=
  !s.on STK_STAT_HALTED k && (s.stk.exc.get k).isNone && !s.stk.waiting.get k

/-- Is core `k` in a SEND whose block request has fallen back (R226). -/
def State.inSend (s : State) (k : Nat) : Bool := (s.stk.sending.get k).1 != 0

/-- Does core `k` run its next instruction: it is awake, and at a boundary (R382). -/
def State.coreRuns (s : State) (k : Nat) : Bool := s.coreAwake k && !s.inSend k

/-- Is a 32-bit address a code address (R377). -/
def codeAddr (a : Nat) : Bool := a < 2 ^ 32 && a / 2 ^ 25 == 0 && a % 8 == 0

/-- Core `k` halts at this boundary. -/
def State.haltNow (s : State) (k cause : Nat) : State :=
  State.setF (State.setF { s with stk := { s.stk with haltReq := s.stk.haltReq.set k false, waiting := s.stk.waiting.set k false } }
    STK_STAT_HALTED 1 k) STK_STAT_HALT_CAUSE cause k

/-- A halt request (R382, R391): it waits for the end of a SEND, and an exception of the instruction just ended is entered first. -/
def State.coreHalt (s : State) (k : Nat) : State :=
  if s.on STK_STAT_HALTED k then s
  else if (s.stk.exc.get k).isSome || s.inSend k then { s with stk := { s.stk with haltReq := s.stk.haltReq.set k true } }
  else s.haltNow k 0

/-- CORE_HALT (R391). -/
def execCoreHalt (k : Fin 4) (s : State) : Host.Outcome State Fault Refusal := .next (s.coreHalt k.val)

/-- A halted core resumes at PC (R390). -/
def State.coreRun (s : State) (k : Nat) : State := s.setF STK_STAT_HALTED 0 k

/-- CORE_RUN (R390). -/
def execCoreRun (k : Fin 4) (s : State) : Host.Outcome State Fault Refusal := .next (s.coreRun k.val)

/-- A write of STK_Kk_CTL. -/
def State.stkCtl (s : State) (k : Nat) (v : Word) : State :=
  let s := if wordBits v 30 1 = 1 then s.coreHalt k else s
  if wordBits v 31 1 = 1 then s.coreRun k else s

/-- A core's sequencer goes to an entry point (R407) with ICNT and the micro-stack as a DISPATCH leaves them. -/
def State.seqEnter (s : State) (k a : Nat) : State :=
  { s with uc := { s.uc with seq := s.uc.seq.upd k (fun m => { m with addr := a, dispatched := false, stack := [], icnt := 0 }) } }

/-- Entry into a handler (R391): EPRIV, EIEN, PRIV, IEN, CAUSE, EPC and PC.  The sequencer runs the entry sequence at 0x0008 (R407). -/
def State.enterHandler (s : State) (k : Nat) (int : Bool) (num code epc : Nat) : State :=
  let s := s.seqEnter k 0x0008
  let s := (s.setF STK_STAT_EPRIV (s.f STK_STAT_PRIV k) k).setF STK_STAT_EIEN (s.f STK_STAT_IEN k) k
  let s := (s.setF STK_STAT_PRIV 1 k).setF STK_STAT_IEN 0 k
  let s := ((s.setF STK_CAUSE_INT int.toNat k).setF STK_CAUSE_NUM num k).setF STK_CAUSE_CODE code k
  (s.setF STK_EPC_ADDR epc k).setF STK_PC_ADDR (s.f STK_VEC_ADDR k) k

/-- The return address of a pending exception: the instruction itself for causes 1 to 5, the next for 6 and 7. -/
def State.excReturn (s : State) (k : Nat) (e : StkExc) : Nat :=
  if e.cause ≤ 5 then s.f STK_PC_ADDR k else (s.f STK_PC_ADDR k + 8) % 2 ^ 32

/-- EXCEPTION_ENTRY (R391): the core enters the handler of its exception; a halt request waits for this. -/
def execExceptionEntry (k : Fin 4) (s : State) : Host.Outcome State Fault Refusal :=
  .next (match s.stk.exc.get k.val with
    | none => s
    | some e =>
      let s := { s with stk := { s.stk with exc := s.stk.exc.set k.val none } }
      let s := s.enterHandler k.val false e.cause e.code (s.excReturn k.val e)
      if s.stk.haltReq.get k.val then s.haltNow k.val 0 else s)

/-- The lowest-numbered source that is pending and enabled on core `k`. -/
def State.irqSource (s : State) (k : Nat) : Option Nat :=
  (List.range 13).find? (fun i => natBit (s.f STK_IRQ_PEND_PEND) i && natBit (s.f STK_IE_EN k) i)

/-- Does core `k` take an interrupt at this boundary. -/
def State.takesIrq (s : State) (k : Nat) : Bool :=
  !s.on STK_STAT_HALTED k && (s.stk.exc.get k).isNone && !s.inSend k && s.on STK_STAT_IEN k && (s.irqSource k).isSome

/-- INTERRUPT_ENTRY (R386, R391): EPC takes the next instruction, which a WAITT left at itself. -/
def execInterruptEntry (k : Fin 4) (s : State) : Host.Outcome State Fault Refusal :=
  .next (s.when (s.takesIrq k.val) fun s =>
    let s := { s with stk := { s.stk with waiting := s.stk.waiting.set k.val false } }
    s.enterHandler k.val true ((s.irqSource k.val).getD 0) 0 (s.f STK_PC_ADDR k.val))

/-- SWI (R391): source 12. -/
def execSwi (s : State) : Host.Outcome State Fault Refusal := .next (s.irq 12)

/-- A write of PC, which only a halted core takes (R400). -/
def State.stkPc (s : State) (k : Nat) (v : Word) : State :=
  if s.on STK_STAT_HALTED k && codeAddr v.toNat then s.rset STK_PC v k else s

/-- STK_CNT_CLR (R401). -/
def State.stkCntClr (s : State) : State := s.cclrs [C_STK_MEM_CORR, C_STK_CR_DUP0, C_STK_CR_DUP1, C_STK_RX_DROP, C_STK_SEND_DROP]

/-- STK_CNT_CLR (R401). -/
def execStkCntClr (s : State) : Host.Outcome State Fault Refusal := .next s.stkCntClr

/-! ### Rings (R394, R399, R400) -/

/-- A write of a command ring's TAIL (R391, R394). -/
def State.crTail (s : State) (j idx : Nat) : State := (s.setF STK_CR_TAIL_INDEX idx j).irq j

/-- COMMAND_RING_TAIL_WRITE (R394). -/
def execCommandRingTailWrite (ring : Fin 2) (idx : BitVec 12) (s : State) : Host.Outcome State Fault Refusal :=
  .next (s.crTail ring.val idx.toNat)

/-- A write of a command ring's CFG (R400): HEAD and TAIL clear and the duplicate window empties. -/
def State.crCfg (s : State) (j : Nat) (v : Word) : State :=
  let s := (s.setF STK_CR_CFG_EN (wordBits v 31 1) j).setF STK_CR_CFG_LOG2 (STK_CR_CFG_LOG2.stored (wordBits v 0 4)) j
  let s := (s.setF STK_CR_HEAD_INDEX 0 j).setF STK_CR_TAIL_INDEX 0 j
  { s with stk := { s.stk with dup := s.stk.dup.set j [] } }

/-- A write of a receive ring's CFG (R400). -/
def State.rxCfg (s : State) (r : Nat) (v : Word) : State :=
  let s := (s.setF STK_RX_CFG_EN (wordBits v 31 1) r).setF STK_RX_CFG_SLOT (STK_RX_CFG_SLOT.stored (wordBits v 16 9)) r
  let s := s.setF STK_RX_CFG_LOG2 (STK_RX_CFG_LOG2.stored (wordBits v 0 4)) r
  (s.setF STK_RX_HEAD_INDEX 0 r).setF STK_RX_TAIL_INDEX 0 r

/-- RING_CFG_WRITE (R400): rings 0 and 1 are the command rings, 2 + r receive ring r. -/
def execRingCfgWrite (ring : Fin 36) (v : Word) (s : State) : Host.Outcome State Fault Refusal :=
  .next (if ring.val < 2 then s.crCfg ring.val v else s.rxCfg (ring.val - 2) v)

/-- The 12 bytes of a time in the ring descriptors (R398, R399), from units of 1/65,536 ns. -/
def ringTime (t : Int) : List Byte :=
  let n := (t * 2 ^ 24 % (ntWrap : Int)).toNat
  natBytes 2 (ntSec n / 2 ^ 32) ++ natBytes 2 (ntFrac n) ++ natBytes 4 (ntSec n) ++ natBytes 4 (ntNsField n)

/-- The bytes of a receive slot of `size` bytes (R399): descriptor, C of a punt copy, frame. -/
def rxSlot (r : RxFrame) (size : Nat) : List Byte :=
  let body := (if r.aux then [] else bytesAt r.region 0 64) ++ r.bytes
  let trunc := size < 32 + body.length
  let w0 := (if trunc then 2 ^ 30 else 0) + (if r.aux then 2 ^ 29 else 0) + r.inPort % 512 * 2 ^ 15 + r.len % 2 ^ 14
  (natBytes 4 w0 ++ ringTime r.trx ++ List.replicate 16 0 ++ body).take size

/-- Store bytes into Stoker SRAM; what lies beyond the SRAM is discarded. -/
def State.sramStore (s : State) (o : Nat) (b : List Byte) : State := s.store (stkBase + o) (b.take (2 ^ 24 - o))

/-- Is receive ring `r` out of use or full. -/
def State.rxFull (s : State) (r : Nat) : Bool :=
  !s.on STK_RX_CFG_EN r || (s.f STK_RX_HEAD_INDEX r + 1) % 2 ^ s.f STK_RX_CFG_LOG2 r == s.f STK_RX_TAIL_INDEX r % 2 ^ s.f STK_RX_CFG_LOG2 r

/-- A frame for receive ring `k` is written to slot HEAD, or dropped and counted (R399); a punt copy's reference is released either way. -/
def State.rxWrite (s : State) (k : Nat) (x : RxFrame) : State :=
  let s := if x.aux then s else s.rxGiveUp x
  if s.rxFull k then s.count C_STK_RX_DROP
  else
    let size := 64 * s.f STK_RX_CFG_SLOT k
    let h := s.f STK_RX_HEAD_INDEX k
    let s := s.sramStore (64 * s.f STK_RX_BASE_BASE k + h * size) (rxSlot x size)
    (s.setF STK_RX_HEAD_INDEX ((h + 1) % 2 ^ s.f STK_RX_CFG_LOG2 k) k).irq (if k < 32 then 2 else 3)

/-- RX_RING_WRITE (R399): the oldest frame of the ring that has arrived whole.  The rings of a sleeping AUX port are powered down with it (R109). -/
def execRxRingWrite (ring : Fin 34) (ecc : Fin 3) (s : State) : Host.Outcome State Fault Refusal :=
  .next (match (s.stk.rx.get ring.val).find? (·.ended) with
    | none => s
    | some x =>
      let l := s.stk.rx.get ring.val
      let i := l.findIdx (·.ended)
      let s := if x.aux then s else s.poolMeta ecc
      State.rxWrite { s with stk := { s.stk with rx := s.stk.rx.set ring.val (l.eraseIdx i) } } ring.val x)

end Sys2Proof.Machine
end

