-- ==== Sys2Proof/Machine/Csr.lean ====
section
/-! DEFINITION. Reads and writes of the control and status registers by their chip addresses (R17 to R19, R44, R93, R193, R208, R437): the
stored fields, what a read shows beyond them, and what a write sets in motion.  Command bits that are written together act in ascending
order, but where the register's own description says otherwise. -/

namespace Sys2Proof.Machine

/-! ### Reads -/

/-- The number of the performance counter whose _LO register lies at `lo`. -/
def pmcAt (lo : Nat) : Option Nat :=
  if C_PMC_CNT.lo ≤ lo ∧ lo < C_PMC_CNT.lo + 16 * 256 then some ((lo - C_PMC_CNT.lo) / 16)
  else if C_PMC_SCNT.lo ≤ lo ∧ lo < C_PMC_SCNT.lo + 512 * 32 then
    some (256 + 32 * ((lo - C_PMC_SCNT.lo) / 512) + (lo - C_PMC_SCNT.lo) % 512 / 16)
  else none

/-- A read of a counter register (R93, R371): the state after the snapshot, and the word. -/
def State.counterRead (s : State) (lo : Nat) (hi : Bool) : State × Word :=
  match pmcAt lo with
  | some n => if hi then (s, s.pmcRead n true) else let s := s.pmcLoRead n; (s, s.pmcRead n false)
  | none =>
    if hi then (s, BitVec.ofNat 32 (s.snap.get (lo + 4)))
    else ({ s with snap := s.snap.set (lo + 4) (s.cnt.get lo / 2 ^ 32) }, BitVec.ofNat 32 (s.cnt.get lo))

/-- The word that TRK_FSP_RX reads: VALID and the oldest byte. -/
def State.fspWord (s : State) (k : Nat) : Word :=
  match (s.fsp k).rx with
  | [] => 0
  | b :: _ => BitVec.ofNat 32 (256 + b.toNat)

/-- A read of the register at a place: the state after its side effects, and the word. -/
def State.placeRead (s : State) (p : Place) : State × Word :=
  let stored := s.rget p.reg p.i p.j p.k
  match p.reg.rd with
  | .plain => (s, if p.reg.cfg then (s.slot (if s.on GEN_CTL_RD_ACTIVE then s.active else s.shadow)).rget p.reg p.i p.j p.k else stored)
  | .backoff => (s, s.backoffWord p.i)
  | .bootOtp => (s, s.bootOtp)
  | .chipStep => (s, chipStep)
  | .domSum => (s, s.domSumWord)
  | .energyHi => (s, stored)
  | .energyLo => (s.pwrEnergyReadCmd, BitVec.ofNat 32 s.pwr.energy)
  | .fltRec => (s, s.fltRecWord p.i)
  | .fltSum => (s, s.fltSumWord)
  | .fspRx => (s.fspPop p.i, s.fspWord p.i)
  | .genStat => (s, s.genStatWord)
  | .poolPtr => (s, BitVec.ofNat 32 (s.cc % 64))
  | .prsProg => (s.prsInc p.i, s.prsWord p.i)
  | .semHeld => (s, s.semHeldWord p.i)
  | .semOwn => (s, s.semOwnWord p.i)
  | .timeNow => let s := s.ntSnapshot; (s, s.rget p.reg)
  | .tinEv => let s := s.tinPop p.i; (s, s.rget p.reg p.i)
  | .tmDepth => (s, wordPut stored TM_Q_DEPTH_STATE.lsb TM_Q_DEPTH_STATE.w (s.queueState p.i p.j))
  | .tsqW0 => let s := s.tsqPop p.i; (s, s.rget p.reg p.i)
  | .ucOtp => (s, s.ucOtp)
  | .ucPdata => (s.pdataRead, s.pdata)
  | .ucVer => (s, BitVec.ofNat 32 s.ucVersion)

/-- A read of the CSR at a chip address; none where the address names no register. -/
def State.csrRead (s : State) (a : Nat) : Option (State × Word) :=
  match counterAt a with
  | some (lo, hi) => some (s.counterRead lo hi)
  | none => (placeOf a).map s.placeRead

/-- Does a chip address name a CSR. -/
def isCsr (a : Nat) : Bool := (counterAt a).isSome || (placeOf a).isSome

/-! ### Writes -/

/-- Is bit `b` of a written word 1. -/
def wrBit (v : Word) (b : Nat) : Bool := wordBits v b 1 == 1

/-- Run `f` when a command bit is written. -/
def State.cmd (s : State) (v : Word) (b : Nat) (f : State → State) : State := if wrBit v b then f s else s

/-- The flags of a register that a written word clears (R18, R468). -/
def State.clearFlags (s : State) (p : Place) (v : Word) : State :=
  (p.fields.filter (fun x => x.acc = .w1c)).foldl (fun s x =>
    (List.range x.w).foldl (fun s b => if wrBit v (x.lsb + b) then s.w1c x (p.reg.addr p.i p.j p.k) b else s) s) s

/-- Store the RW fields of a written word. -/
def State.storeRw (s : State) (p : Place) (v : Word) : State :=
  s.rset p.reg (storeFields (s.rget p.reg p.i p.j p.k) v p.fields) p.i p.j p.k

/-- The writes whose fields the acting block stores itself, or which do not always take effect. -/
def Act.storesItself : Act → Bool
  | .auxCfg | .bootFl | .bootStat | .crCfg | .crTail | .fltInj | .fltInjMem | .fltReact | .gateAdm | .gateCtl | .gateEnt | .genCmt
  | .laneCtl | .lanePrbs | .macAux | .macCt | .modeClk | .pmcCfg | .pmcSCfg | .prsProg | .rxCfg | .stkCode | .stkPc | .ucCtl => true
  | _ => false

/-- A write of LANE_CTL (R78, R90, R92). -/
def State.laneCtl (s : State) (p : Place) (v : Word) : State :=
  let s := s.rset p.reg (storeFields (s.rget p.reg p.i) v [LANE_CTL_RX_INV, LANE_CTL_TX_INV, LANE_CTL_PRECODE]) p.i
  let was := s.on LANE_CTL_EN p.i
  let s := if was && !wrBit v 0 then s.laneDisabled p.i else s
  let s := s.loopChange p.i (wordBits v LANE_CTL_LOOP.lsb LANE_CTL_LOOP.w)
  if !was && wrBit v 0 then s.laneEnabled p.i else s

/-- A write of MAC_AUX_CTL (R109). -/
def State.macAux (s : State) (a : Nat) (v : Word) : State :=
  let s := s.setF MAC_AUX_CTL_WAKE_EN (wordBits v 1 1) a
  let was := s.on MAC_AUX_CTL_SLEEP a
  if wrBit v 0 && !was then s.auxSleep a else if !wrBit v 0 && was then s.auxWaken a else s

/-- A write to the administrative gate list's EN, LEN, BASE or CYCLE: ignored while a swap is pending (R261). -/
def State.gateWrite (s : State) (p : Place) (v : Word) : State :=
  if s.on TM_GATE_STAT_PENDING p.i then s.flag TM_GATE_STAT_GL_REFUSED p.i else s.storeRw p v

/-- A write to a gate list entry (R261): the operational list, and while a swap is pending both lists, are closed. -/
def State.gateEntWrite (s : State) (p : Place) (v : Word) : State :=
  if s.on TM_GATE_STAT_PENDING p.i || p.j == s.f TM_GATE_STAT_OPER p.i then s.flag TM_GATE_STAT_GL_REFUSED p.i else s.storeRw p v

/-- A write of GEN_CMT_CTL (R199, R205): GO and CANCEL together act as CANCEL. -/
def State.genCmt (s : State) (v : Word) : State :=
  let s := s.storeRw { reg := GEN_CMT_CTL, fields := [GEN_CMT_CTL_ANYNUM, GEN_CMT_CTL_NOW, GEN_CMT_CTL_SRC] } v
  if wrBit v 30 then s.commitCancel else s.cmd v 31 fun s => s.commitCmd (wordBits v 0 2) (wrBit v 4) (wrBit v 5)

/-- A write of POOL_CTL (R234, R235): REBUILD and CARVE together act as REBUILD. -/
def State.poolCtl (s : State) (v : Word) : State := if wrBit v 2 then s.rebuildCmd else s.cmd v 1 State.carve

/-- A write of FLT_SAFE (R469, R472): EXIT and ENTER together act as ENTER. -/
def State.fltSafe (s : State) (v : Word) : State := if wrBit v 30 then s.enterSafe none else s.cmd v 31 State.exitSafe

/-- A write of TIME_CMD: its bits act in ascending order. -/
def State.timeCmd (s : State) (v : Word) : State :=
  let s := (((s.cmd v 24 State.jumpOvrCmd).cmd v 25 State.servoRequal).cmd v 26 State.servoFreeCmd).cmd v 27 State.servoHoldCmd
  ((s.cmd v 28 State.servoRun).cmd v 29 State.timeSet).cmd v 31 fun s => s.cmdSample (wrBit v 30)

/-- What a written word sets in motion at a place. -/
def State.act (s : State) (p : Place) (v : Word) : State :=
  match p.reg.act with
  | .none => s
  | .auxCfg => s.auxRate p.i (wordBits v 0 3)
  | .bootCtl => s.bootCtl v
  | .bootFl => s.flashCtl v
  | .bootStat => s.bootStat v
  | .bufCntClr => s.cmd v 0 State.bufCntClrCmd
  | .chipMeterClr => s.cmd v 0 State.chipMeterClrCmd
  | .chipModeClr => s.cmd v 0 State.chipModeClrCmd
  | .crCfg => s.crCfg p.i v
  | .crTail => s.crTail p.i (wordBits v 0 12)
  | .domPortClr => s.cmd v 0 (·.domPortClrCmd p.i)
  | .fltAck => s.cmd v 31 (·.ackRecord p.i)
  | .fltCntClr => s.cmd v 0 State.fltCntClrCmd
  | .fltInj => s.inject v
  | .fltInjMem => s.injectMem v
  | .fltReact => s.reactWrite p.i v
  | .fltSafe => s.fltSafe v
  | .fspTx => s.fspPush p.i (BitVec.ofNat 8 v.toNat)
  | .gateAdm => s.gateWrite p v
  | .gateCtl => (s.gateWrite p v).cmd v 31 (·.gateSwapRequest p.i)
  | .gateEnt => s.gateEntWrite p v
  | .genCmt => s.genCmt v
  | .genCntClr => s.cmd v 0 State.genCntClrCmd
  | .hobCntClr => s.cmd v 0 State.hobCntClrCmd
  | .hobCtx => s.cmd v 31 (·.hobGo (wordBits v 28 3) (wordBits v 0 14))
  | .jorCntClr => s.cmd v 0 (·.jorCntClr p.i)
  | .jorMsgAck => s.jorMsgAck p.i (wordBits v 0 8)
  | .laneCntClr => s.cmd v 0 (·.laneCntClrCmd p.i)
  | .laneCtl => s.laneCtl p v
  | .lanePrbs => (s.prbsSet p.i (wrBit v 4) (wrBit v 5) (wordBits v 0 4)).cmd v 7 (·.insertErr p.i)
  | .macAux => s.macAux p.i v
  | .macCntClr => s.cmd v 0 (·.macCntClrCmd p.i)
  | .macCt => s.macCtWriteCmd p.i (wordBits v 8 6)
  | .modeClk => s.clockWrite v
  | .octCfg => s
  | .pmcCfg => s.pmcCfgWrite p.i v
  | .pmcClr => s.pmcClr p.i v
  | .pmcClrS => s.pmcClr (8 + p.i) v
  | .pmcSCfg => s.pmcCfgWrite (256 + 32 * p.i + p.j) v
  | .poolCntClr => s.cmd v 0 State.poolCntClr
  | .poolCtl => s.poolCtl v
  | .prsCntClr => s.cmd v 0 (·.prsCntClrCmd p.i)
  | .prsProg => s.prsWrite p.i v s.shadowOpen
  | .pwrCntClr => s.cmd v 0 State.pwrCntClrCmd
  | .pwrHint => s.hintSubmit (s.f PWR_HINT_MASK_ENG) (wordBits v 0 6) (wordBits v 8 3) (wordBits v 16 16)
  | .pwrPhase => s.cmd v 31 (·.relearnCmd p.i)
  | .refclk => s.refclkWritten p.i
  | .rxCfg => s.rxCfg p.i v
  | .semFree => s.cmd v 31 (·.semFree (wordBits v 0 6))
  | .stgAcc => s.cmd v 31 (·.tblGo p.i)
  | .stgAct => s.cmd v 31 (·.actGo p.i)
  | .stgActCntClr => s.cmd v 0 (·.stgActCntClrCmd p.i)
  | .stgCntClr => s.cmd v 0 (·.stgCntClear p.i)
  | .stkCntClr => s.cmd v 0 State.stkCntClr
  | .stkCode => if codeAddr v.toNat then s.rset p.reg v p.i else s
  | .stkCtl => s.stkCtl p.i v
  | .stkPc => s.stkPc p.i v
  | .stkSwi => s.cmd v 0 (·.irq 12)
  | .timeCmd => s.timeCmd v
  | .timeCntClr => s.cmd v 0 State.timeCntClrCmd
  | .tinCtl => s.cmd v 31 (·.tinLostClrCmd p.i)
  | .tlmCntClr => s.cmd v 0 State.tlmCntClrCmd
  | .tlmEpoch => s.tlmRestart
  | .tmChipClr => s.cmd v 0 State.tmChipClrCmd
  | .tmMc => s.cmd v 31 fun s => s.mcGo (wrBit v 29) (wrBit v 30) (wordBits v 0 16)
  | .tmPortClr => s.cmd v 0 (·.tmPortClrCmd p.i)
  | .toutCtl => (s.cmd v 30 (·.toutStop p.i)).cmd v 31 (·.toutArm p.i)
  | .trkMemClr => s.cmd v 0 (·.trkMemCntClrCmd p.i)
  | .tsqClr => s.cmd v 0 (·.timeTsqClrCmd p.i)
  | .ucCntClr => s.cmd v 0 State.ucCntClrCmd
  | .ucCtl => s.ucCtl v

/-- A write of the register at a place: a configuration register goes to the shadow slot while it is OPEN (R208). -/
def State.placeWrite (s : State) (p : Place) (v : Word) : State :=
  if p.reg.cfg then (if s.shadowOpen then s.cfgStore s.shadow p v else s.shadowRefused)
  else
    let s := s.clearFlags p v
    let s := if p.reg.act.storesItself then s else s.storeRw p v
    s.act p v

/-- A write of the CSR at a chip address; none where the address names no register.  The counters are read only. -/
def State.csrWrite (s : State) (a : Nat) (v : Word) : Option State :=
  if (counterAt a).isSome then some s else (placeOf a).map (fun p => s.placeWrite p v)

/-! ### Rows -/

/-- A countable event of a master (0 JA, 1 JB, 2 to 5 K0 to K3) at an address (R367, R368). -/
def State.evAt (s : State) (code : Nat) (user : Bool) (master addr : Nat) : State :=
  { s with pmc := { s.pmc with events := { code := code, user := user, master := master, addr := addr } :: s.pmc.events } }

/-- Is a master a core at user level; Joring counts as supervisor (R378). -/
def State.userLevel (s : State) (m : Nat) : Bool := 2 ≤ m && !s.on STK_STAT_PRIV (m - 2)

/-- REGISTER_WRITE (R18): a write that a master's access makes, of one aligned word (R17); an address that names no register changes
nothing. -/
def execRegisterWrite (m : Fin 6) (a : BitVec 48) (v : Word) (s : State) : Host.Outcome State Fault Refusal :=
  .next (if a.toNat % 4 ≠ 0 then s
    else (if isCsr a.toNat then ((s.evAt 0x051 false m.val a.toNat).csrWrite a.toNat v).getD s else s))

/-- COUNTER_LO_READ (R93): a read of a counter's _LO register snapshots its _HI half. -/
def execCounterLoRead (m : Fin 6) (a : BitVec 48) (s : State) : Host.Outcome State Fault Refusal :=
  .next (match counterAt a.toNat with
    | some (lo, false) => ((s.evAt 0x051 (s.userLevel m.val) m.val a.toNat).counterRead lo false).1
    | _ => s)

end Sys2Proof.Machine
end

