-- ==== Sys2Proof/Machine/Joring.lean ====
section
/-! DEFINITION. Frames of the Joring link at one chip (R423 to R434): words 0 to n - 1 of a frame as it arrives on a ring, what the chip does,
and the words it sends on. -/

namespace Sys2Proof.Machine

/-! ### The frame format (R423 to R425) -/

/-- The bytes of frame words, in the order sent. -/
def jorBytes (ws : List (BitVec 64)) : List Byte := ws.foldl (fun a w => a ++ natBytes 8 w.toNat) []

/-- Fields of word 0. -/
def jorVer (w : BitVec 64) : Nat := natBits w.toNat 60 4
def jorOp (w : BitVec 64) : Nat := natBits w.toNat 56 4
def jorDest (w : BitVec 64) : Nat := natBits w.toNat 50 6
def jorSeq (w : BitVec 64) : Nat := natBits w.toNat 32 16
def jorLen (w : BitVec 64) : Nat := natBits w.toNat 24 8
def jorReset (w : BitVec 64) : Bool := natBit w.toNat 16

/-- A word of a frame. -/
def jw (ws : List (BitVec 64)) (i : Nat) : BitVec 64 := ws.getD i 0

/-- ADDR in word 1. -/
def jorAddr (ws : List (BitVec 64)) : Nat := natBits (jw ws 1).toNat 0 48

/-- The HCRC of words 0 and 1 (R424). -/
def hcrcOf (w0 w1 : BitVec 64) : Nat := crc16 ((natBytes 8 w0.toNat).take 6 ++ natBytes 8 w1.toNat)

/-- Is the HCRC valid. -/
def hcrcGood (ws : List (BitVec 64)) : Bool := hcrcOf (jw ws 0) (jw ws 1) == (jw ws 0).toNat % 65536

/-- Are HCRC, VER and the reserved bits valid. -/
def headerGood (ws : List (BitVec 64)) : Bool :=
  hcrcGood ws && jorVer (jw ws 0) == 1 && natBits (jw ws 0).toNat 48 2 == 0 && natBits (jw ws 0).toNat 17 7 == 0 &&
  natBits (jw ws 1).toNat 48 16 == 0

/-- The number of payload words that LEN calls for. -/
def payloadWords (ws : List (BitVec 64)) : Nat := (jorLen (jw ws 0) + 1) / 2

/-- Has a frame 3 to 35 words, with the payload that LEN gives. -/
def formGood (ws : List (BitVec 64)) : Bool := 3 ≤ ws.length && ws.length ≤ 35 && payloadWords ws + 3 == ws.length

/-- The trailer's CRC over the words before it. -/
def jorCrc (ws : List (BitVec 64)) : Nat := crc32c (jorBytes ws)

/-- Does the trailer's CRC check. -/
def crcGood (ws : List (BitVec 64)) : Bool := (ws.getLastD 0).toNat / 2 ^ 32 == jorCrc ws.dropLast

/-- A trailer: ACK, DUP and RESP with their complement. -/
def trailerLow (ack : Nat) (dup : Bool) (resp : Nat) : Nat :=
  let h := ack * 256 + dup.toNat * 128 + resp
  h * 65536 + (65535 - h)

/-- The words that a chip sends on when it changes some: the CRC recomputed, or its complement when the one received was wrong (R426). -/
def reseal (good : Bool) (body : List (BitVec 64)) (low : Nat) : List (BitVec 64) :=
  let c := jorCrc body
  body ++ [BitVec.ofNat 64 ((if good then c else 2 ^ 32 - 1 - c) * 2 ^ 32 + low)]

/-- Data words as payload words. -/
def payloadOf : List Word → List (BitVec 64)
  | [] => []
  | [a] => [a ++ (0 : Word)]
  | a :: b :: t => (a ++ b) :: payloadOf t

/-- The data words of a frame. -/
def dataOf (ws : List (BitVec 64)) : List Word :=
  (List.range (jorLen (jw ws 0))).map (fun i => BitVec.ofNat 32 ((jw ws (2 + i / 2)).toNat / (if i % 2 = 0 then 2 ^ 32 else 1)))

/-! ### The chip on its ring -/

/-- Does the chip hold the address in DEST on ring `j`. -/
def State.named (s : State) (j : Nat) (ws : List (BitVec 64)) : Bool :=
  s.on JOR_RING_STAT_ADDRESSED j && s.f JOR_RING_STAT_ADDR j == jorDest (jw ws 0)

/-- Operations that every chip acts on: a COLLECT with an even LEN on an addressed chip, and an ENUM with its LEN. -/
def State.everyChip (s : State) (j : Nat) (ws : List (BitVec 64)) : Bool :=
  let len := jorLen (jw ws 0)
  (jorOp (jw ws 0) == 5 && s.on JOR_RING_STAT_ADDRESSED j && 2 ≤ len && len ≤ 64 && len % 2 == 0) || (jorOp (jw ws 0) == 6 && len == 63)

/-- Does the chip act on a frame that is not malformed. -/
def State.actsOn (s : State) (j : Nat) (ws : List (BitVec 64)) : Bool :=
  if jorOp (jw ws 0) = 5 ∨ jorOp (jw ws 0) = 6 then s.everyChip j ws else s.named j ws

/-- A frame for the chip with one of these OPs arrives whole on an input in UP. -/
def State.frameFor (s : State) (j : Nat) (ws : List (BitVec 64)) (op : Nat → Bool) : Bool :=
  s.ringUp j && formGood ws && headerGood ws && s.actsOn j ws && op (jorOp (jw ws 0))

/-- The words that leave on ring `j`. -/
def State.sendOn (s : State) (j : Nat) (ws : List (BitVec 64)) : State := s.setRing j { s.ring j with tx := ws }

/-- A frame with a valid HCRC is counted, and one whose trailer CRC fails; BRK blocks have ceased. -/
def State.frameSeen (s : State) (j : Nat) (ws : List (BitVec 64)) : State :=
  let s := (s.count C_JOR_RX_FRAMES 1 j).setF JOR_RING_STAT_BRK_RX 0 j
  if crcGood ws then s else s.count C_JOR_CRC_ERR 1 j

/-- Answer a request: payload (for a READ) and trailer. -/
def State.answer (s : State) (j : Nat) (ws : List (BitVec 64)) (data : Option (List Word)) (ack : Nat) (dup : Bool) : State :=
  let body := match data with
    | some d => ws.take 2 ++ payloadOf d
    | none => ws.dropLast
  s.sendOn j (reseal (crcGood ws) body (trailerLow ack dup (s.f JOR_RING_STAT_ADDR j)))

/-- The cached decision of which a request is a duplicate (R434). -/
def State.cached (s : State) (j : Nat) (ws : List (BitVec 64)) : Option CacheEntry :=
  (s.ring j).cache.find? (fun e => e.w0 == jw ws 0 && e.w1 == jw ws 1)

/-- A request reached a decision: it is cached among the last 64, in place of an entry with its SEQ, and answered (R434). -/
def State.decided (s : State) (j : Nat) (ws : List (BitVec 64)) (data : Option (List Word)) (ack : Nat) : State :=
  let r := s.ring j
  let e : CacheEntry := { w0 := jw ws 0, w1 := jw ws 1, ack := ack, data := data.getD [] }
  let l := r.cache.filter (fun x => jorSeq x.w0 != jorSeq (jw ws 0)) ++ [e]
  (s.setRing j { r with cache := l.drop (l.length - 64) }).answer j ws data ack false

/-- A request answered BUSY. -/
def State.busy (s : State) (j : Nat) (ws : List (BitVec 64)) (data : Option (List Word)) : State :=
  (s.count C_JOR_BUSY 1 j).answer j ws data 2 false

/-- The slots of a READ that sends zeros; other requests have none. -/
def zeros (ws : List (BitVec 64)) : Option (List Word) :=
  if jorOp (jw ws 0) = 1 then some (List.replicate (jorLen (jw ws 0)) 0) else none

/-- The shared way of a request (R427 to R434): a bad CRC and a duplicate are answered at once, an invalid LEN with BADOP; `run` does the rest.
`crcData` is what a READ shows when the CRC fails. -/
def State.request' (s : State) (j : Nat) (ws : List (BitVec 64)) (lenOk : Bool) (crcData : State → Option (List Word))
    (run : State → State) : State :=
  let s := s.frameSeen j ws
  match s.cached j ws with
  | some e =>
    let d := if jorOp (jw ws 0) = 1 ∧ e.data.length = jorLen (jw ws 0) then some e.data else none
    if !crcGood ws then s.answer j ws d 4 false
    else ((s.count C_JOR_DUP 1 j).evAt 0x053 false j 0).answer j ws d e.ack true
  | none =>
    if !crcGood ws then s.answer j ws (crcData s) 4 false
    else if !lenOk then s.decided j ws none 5
    else run s

/-- An executed request (event 0x052). -/
def State.executed (s : State) (j : Nat) (ws : List (BitVec 64)) : State := s.evAt 0x052 false j (jorAddr ws)

/-! ### Addresses (R437) -/

/-- Is `a` a word of STK_MEM, CFG0 or CFG1. -/
def isRam (a : Nat) : Bool := stkBase ≤ a && a < stkBase + 3 * 2 ^ 24

/-- The cell of BUF_MEM in which `a` lies. -/
def bufCell (a : Nat) : Option Nat := if 0x200000000 ≤ a ∧ a < 0x220000000 then some ((a - 0x200000000) / 256) else none

/-- The word addresses of a request. -/
def jorWords (ws : List (BitVec 64)) : List Nat := (List.range (jorLen (jw ws 0))).map (fun i => jorAddr ws + 4 * i)

/-- May a request of these words be refused with ADDR. -/
def addrRefused (ws : List (BitVec 64)) (write : Bool) : Bool :=
  jorAddr ws % 4 != 0 || (jorWords ws).any (fun a => !(isCsr a || isRam a || (!write && (bufCell a).isSome)))

/-! ### READ (R428) -/

/-- One word of a READ: the state after its side effects, the word, and whether it was uncorrectable.  An uncorrectable SRAM word comes
with the injected bits inverted, and raises MEMU. -/
def State.readWord (s : State) (j a : Nat) : State × Word × Bool :=
  match s.csrRead a with
  | some (t, v) => (t.evAt 0x051 false j a, v, false)
  | none =>
    if isRam a then
      let v := BitVec.ofNat 32 (beNat (s.load a 4))
      if a < stkBase + 2 ^ 24 then
        match s.sramArm (a - stkBase) 4 with
        | (t, true) => (t.raise 1 2 3, if a % 8 = 4 then v ^^^ 3 else v, true)
        | (t, false) => (t, v, false)
      else (s, v, false)
    else
      match (s.ring j).stage with
      | some (_, d, bad) => (s, BitVec.ofNat 32 (fieldAt d (a % 256) 4), bad)
      | none => (s, 0, false)

/-- The words of a READ, in order. -/
def State.readWords (s : State) (j : Nat) : List Nat → State × List Word × Bool
  | [] => (s, [], false)
  | a :: t =>
    let r := s.readWord j a
    let q := r.1.readWords j t
    (q.1, r.2.1 :: q.2.1, r.2.2 || q.2.2)

/-- The first cell of BUF_MEM that a READ needs and that the ring's stage does not hold. -/
def State.unstaged (s : State) (j : Nat) (ws : List (BitVec 64)) : Option Nat :=
  ((jorWords ws).filterMap bufCell).find? (fun c => match (s.ring j).stage with
    | some (x, _, _) => x != c
    | none => true)

/-- A READ with a good trailer, not decided before. -/
def State.readRun (s : State) (j : Nat) (ws : List (BitVec 64)) : State :=
  if (s.ring j).writes ≠ [] then s.busy j ws (zeros ws)
  else if addrRefused ws false then s.decided j ws (zeros ws) 3
  else
    match s.unstaged j ws with
    | some c => State.busy (s.setRing j { s.ring j with wanted := some c }) j ws (zeros ws)
    | none =>
      let r := s.readWords j (jorWords ws)
      (r.1.executed j ws).decided j ws (some r.2.1) (if r.2.2 then 6 else 1)

/-- LEN of a READ or WRITE. -/
def dataLen (ws : List (BitVec 64)) : Bool := 1 ≤ jorLen (jw ws 0) && jorLen (jw ws 0) ≤ 64

/-- What a READ with a bad CRC shows: the data, with no side effect. -/
def State.readShow (s : State) (j : Nat) (ws : List (BitVec 64)) : Option (List Word) :=
  if dataLen ws && (s.ring j).writes == [] && !addrRefused ws false && (s.unstaged j ws).isNone then some (s.readWords j (jorWords ws)).2.1
  else zeros ws

/-- READ (R428). -/
def execRead (ring : Fin 2) (ws : List (BitVec 64)) (s : State) : Host.Outcome State Fault Refusal :=
  .next (s.when (s.frameFor ring ws (· == 1)) fun s =>
    s.request' ring ws (dataLen ws) (·.readShow ring ws) (·.readRun ring ws))

/-- Is a cell on its way to the stage of a ring. -/
def State.staging (s : State) (j : Nat) : Bool := s.fwd.arriving.any (fun d => d.read.ring == some j)

/-- BUF_MEM_STAGE_FETCH (R216, R217, R428): the cell that a BUSY READ named is read through its stripe's arbiter, as it stands in this cc.  DESIGN
CHOICE (log 120): a stage, which has no requester number, stands behind every reader that has one. -/
def execBufMemStageFetch (ring : Fin 2) (errs : List (Nat × Nat)) (s : State) : Host.Outcome State Fault Refusal :=
  .next (match (s.ring ring).wanted with
    | none => s
    | some c => s.when (!s.staging ring && !s.fwd.stripeR.contains (c % 128) && s.readersOf (c % 128) = []) fun s =>
        let s := State.ev { s with fwd := { s.fwd with stripeR := c % 128 :: s.fwd.stripeR } } 0x032
        s.serveRead { cell := c, ring := some ring.val } errs)

/-! ### WRITE (R429) -/

/-- Does a WRITE meet a configuration bank that a commit in CHECK reads, or STK_MEM while the boot ROM uses it (R429, R451). -/
def State.writeHeldOff (s : State) (ws : List (BitVec 64)) : Bool :=
  let src := match s.gen.req with
    | some r => if s.f GEN_STAT_CSTATE = 4 then r.src else 0
    | none => 0
  let stage := s.f BOOT_STAT_STAGE
  (jorWords ws).any (fun a =>
    (isRam a && a < stkBase + 2 ^ 24 && 1 ≤ stage && stage ≤ 4) ||
    (stkBase + 2 ^ 24 ≤ a && a < stkBase + 2 * 2 ^ 24 && (src == 1 || src == 3)) ||
    (stkBase + 2 * 2 ^ 24 ≤ a && a < stkBase + 3 * 2 ^ 24 && (src == 2 || src == 3)))

/-- A WRITE with a good trailer, not decided before. -/
def State.writeRun (s : State) (j : Nat) (ws : List (BitVec 64)) : State :=
  if addrRefused ws true then s.decided j ws none 3
  else if 4 ≤ (s.ring j).writes.length || s.writeHeldOff ws then s.busy j ws none
  else
    let r := s.ring j
    let s := s.setRing j { r with writes := r.writes ++ [(jorAddr ws, dataOf ws)], writeAt := if r.writes = [] then s.cc + 1 else r.writeAt }
    (s.executed j ws).decided j ws none 1

/-- WRITE (R429). -/
def execWrite (ring : Fin 2) (ws : List (BitVec 64)) (s : State) : Host.Outcome State Fault Refusal :=
  .next (s.when (s.frameFor ring ws (· == 2)) fun s => s.request' ring ws (dataLen ws) (fun _ => none) (·.writeRun ring ws))

/-- One word of a queued WRITE reaches its place. -/
def State.writeWord (s : State) (j a : Nat) (v : Word) : State :=
  if isRam a then s.store a (natBytes 4 v.toNat) else ((s.evAt 0x051 false j a).csrWrite a v).getD s

/-- WRITE_QUEUE_DRAIN (R429): one word of the ring's oldest WRITE, one in a cc, from 1 cc after the trailer. -/
def execWriteQueueDrain (ring : Fin 2) (s : State) : Host.Outcome State Fault Refusal :=
  .next (s.when ((s.ring ring).writeAt ≤ s.cc) fun s =>
    match (s.ring ring).writes with
    | [] => s
    | (_, []) :: t => s.setRing ring { s.ring ring with writes := t }
    | (a, v :: vs) :: t =>
      let rest := if vs = [] then t else (a + 4, vs) :: t
      (s.setRing ring { s.ring ring with writes := rest, writeAt := s.cc + 1 }).writeWord ring a v)

/-! ### TAS and REL (R430) -/

/-- A semaphore request with a good trailer, not decided before. -/
def State.semRun (s : State) (j : Nat) (ws : List (BitVec 64)) (take : Bool) : State :=
  if (s.ring j).writes ≠ [] then s.busy j ws none
  else if 64 ≤ jorAddr ws then s.decided j ws none 3
  else
    let r := if take then s.semTake (jorAddr ws) (j + 1) else s.semGive (jorAddr ws) (j + 1)
    let s := r.1.executed j ws
    if r.2 then s.decided j ws none 1
    else if take then (s.evAt 0x054 false j 0).decided j ws none 7
    else s.decided j ws none 8

/-- TAS (R430). -/
def execTas (ring : Fin 2) (ws : List (BitVec 64)) (s : State) : Host.Outcome State Fault Refusal :=
  .next (s.when (s.frameFor ring ws (· == 3)) fun s => s.request' ring ws (jorLen (jw ws 0) == 0) (fun _ => none) (·.semRun ring ws true))

/-- REL (R430). -/
def execRel (ring : Fin 2) (ws : List (BitVec 64)) (s : State) : Host.Outcome State Fault Refusal :=
  .next (s.when (s.frameFor ring ws (· == 4)) fun s => s.request' ring ws (jorLen (jw ws 0) == 0) (fun _ => none) (·.semRun ring ws false))

/-- BADOP (R427): an invalid OP. -/
def execBadop (ring : Fin 2) (ws : List (BitVec 64)) (s : State) : Host.Outcome State Fault Refusal :=
  .next (s.when (s.frameFor ring ws (fun o => o == 0 || 7 ≤ o)) fun s => s.request' ring ws false (fun _ => none) id)

/-! ### COLLECT and ENUM (R432, R433) -/

/-- A message as a COLLECT slot. -/
def slotOf (src : Nat) (m : HostMsg) : BitVec 64 :=
  BitVec.ofNat 64 (2 ^ 63 + src % 64 * 2 ^ 56 + m.mseq % 256 * 2 ^ 48 + m.kind % 4 * 2 ^ 46 + m.core % 4 * 2 ^ 42 + m.code % 65536)

/-- Messages go into the slots with V = 0, one each. -/
def fillSlots (src : Nat) : List (BitVec 64) → List HostMsg → List (BitVec 64)
  | [], _ => []
  | w :: t, [] => w :: t
  | w :: t, m :: ms => if w.getLsbD 63 then w :: fillSlots src t (m :: ms) else slotOf src m :: fillSlots src t ms

/-- COLLECT (R433): a chip with nothing to say relays the frame unchanged. -/
def execCollect (ring : Fin 2) (ws : List (BitVec 64)) (s : State) : Host.Outcome State Fault Refusal :=
  .next (s.when (s.frameFor ring ws (· == 5)) fun s =>
    let s := (s.frameSeen ring ws).executed ring ws
    let slots := (ws.drop 2).dropLast
    let new := fillSlots (s.f JOR_RING_STAT_ADDR ring) slots (s.ring ring).msgs
    if new = slots then s.sendOn ring ws
    else s.sendOn ring (reseal (crcGood ws) (ws.take 2 ++ new) ((ws.getLastD 0).toNat % 2 ^ 32)))

/-- Words 0 and 1 of an ENUM sent on with another next address; the HCRC covers word 1 and is formed anew. -/
def enumHead (ws : List (BitVec 64)) (next : Nat) : List (BitVec 64) :=
  let w1 := BitVec.ofNat 64 (jorAddr ws / 64 * 64 + next)
  let w0 := jw ws 0
  [BitVec.ofNat 64 (w0.toNat / 65536 * 65536 + hcrcOf w0 w1), w1]

/-- Put a 32-bit data word into payload words. -/
def putSlot (p : List (BitVec 64)) (i v : Nat) : List (BitVec 64) :=
  let w := (p.getD (i / 2) 0).toNat
  p.set (i / 2) (BitVec.ofNat 64 (if i % 2 = 0 then v % 2 ^ 32 * 2 ^ 32 + w % 2 ^ 32 else w / 2 ^ 32 * 2 ^ 32 + v % 2 ^ 32))

/-- ENUM (R432). -/
def execEnum (ring : Fin 2) (ws : List (BitVec 64)) (s : State) : Host.Outcome State Fault Refusal :=
  .next (s.when (s.frameFor ring ws (· == 6)) fun s =>
    let s := (s.frameSeen ring ws).executed ring ws
    let s := if jorReset (jw ws 0) then (s.setF JOR_RING_STAT_ADDRESSED 0 ring).setF JOR_RING_STAT_ADDR 0 ring else s
    let next := jorAddr ws % 64
    if !s.on JOR_RING_STAT_ADDRESSED ring && next == 0 then ((s.flag JOR_RING_STAT_NOADDR ring).raise 11 1 2 ring).sendOn ring ws
    else
      let fresh := !s.on JOR_RING_STAT_ADDRESSED ring
      let s := if fresh then (s.setF JOR_RING_STAT_ADDRESSED 1 ring).setF JOR_RING_STAT_ADDR next ring else s
      let a := s.f JOR_RING_STAT_ADDR ring
      let head := if fresh then enumHead ws ((next + 1) % 64) else ws.take 2
      let v := s.ca DOM_CHIP_CHIP_ID * 65536 + stepping * 256
      s.sendOn ring (reseal (crcGood ws) (head ++ putSlot ((ws.drop 2).dropLast) (a - 1) v) (trailerLow 1 false a)))

/-! ### Relay (R423, R424, R426) -/

/-- JORING_FRAME_RELAY (R426): a malformed frame (`malformed`, or by its length), one with a bad header, and one that names another chip leave
as they came. -/
def execJoringFrameRelay (ring : Fin 2) (ws : List (BitVec 64)) (malformed : Bool) (s : State) : Host.Outcome State Fault Refusal :=
  .next (s.when (s.ringUp ring) fun s =>
    if malformed || !formGood ws then ((s.count C_JOR_CRC_ERR 1 ring).setF JOR_RING_STAT_BRK_RX 0 ring).sendOn ring ws
    else if !headerGood ws then
      let s := (s.count C_JOR_HCRC_ERR 1 ring).setF JOR_RING_STAT_BRK_RX 0 ring
      (if hcrcGood ws then s.count C_JOR_RX_FRAMES 1 ring else s).sendOn ring ws
    else if s.actsOn ring ws then s
    else (s.frameSeen ring ws).sendOn ring ws)

end Sys2Proof.Machine
end

