-- ==== Sys2Proof/Machine/Pins.lean ====
section
/-! DEFINITION. Test access (R487, R488): the JTAG port's instructions and their data registers, as IEEE 1149.1 and 1149.6 give them.  The
spec gives no instruction codes; the model numbers them 0 BYPASS, 1 SAMPLE/PRELOAD, 2 EXTEST, 3 IDCODE, 4 CLAMP, 5 HIGHZ, 6 EXTEST_PULSE,
7 EXTEST_TRAIN, and every other number selects BYPASS. -/

namespace Sys2Proof.Machine

/-- The identification code of the stepping (R488). -/
def idcode : Nat := if stepping = 0x11 then 0x05120A6F else 0x15120A6F

/-- `n` bits of a number, the least significant first. -/
def lsbFirst (v : Nat) : Nat → List Bool
  | 0 => []
  | n + 1 => (v % 2 == 1) :: lsbFirst (v / 2) n

/-- How the pins with boundary cells are driven: by the chip, from the cells, or not at all. -/
inductive PinDrive where
  | chip | cells | highZ
deriving DecidableEq, Repr

/-- The drive that an instruction selects. -/
def pinDrive (ir : Nat) : PinDrive :=
  if ir = 2 ∨ ir = 4 ∨ ir = 6 ∨ ir = 7 then .cells else if ir = 5 then .highZ else .chip

/-- What drives the pins now. -/
def State.pins (s : State) : PinDrive := pinDrive s.jtag.instr

/-- Does an instruction select the boundary-scan register. -/
def scansCells (ir : Nat) : Bool := ir == 1 || ir == 2 || ir == 6 || ir == 7

/-- An instruction is loaded and its data register is scanned once with the bits `dr`, first in first. -/
def State.jtagScan (s : State) (ir : Nat) (dr : List Bool) : State :=
  let ir := if 8 ≤ ir then 0 else ir
  let n := dr.length
  if scansCells ir then { s.fresh with jtag := { instr := ir, cells := dr, tdo := lsbFirst s.freeVal n } }
  else
    let captured := if ir = 3 then lsbFirst idcode 32 else [false]
    { s with jtag := { s.jtag with instr := ir, tdo := (captured ++ dr).take n } }

/-- JTAG_INSTRUCTION (R487): it reaches nothing of the address space. -/
def execJtagInstruction (ir : Nat) (dr : List Bool) (s : State) : Host.Outcome State Fault Refusal := .next (s.jtagScan ir dr)

end Sys2Proof.Machine
end

