-- ==== Sys2Proof/Machine/Sequencer.lean ====
section
/-! DEFINITION. The sequencers of Stoker's cores: what one microword does with its nanoword (R403 to R409, R412).  The ROM words are constants
without a value; what a macroinstruction does to the chip is its own meaning (R380), and only the sequencer's own registers are taken from its
microwords. -/

namespace Sys2Proof.Machine

/-! ### Instruction words -/

/-- The fields of an instruction word. -/
def opcOf (w : BitVec 64) : Nat := w.toNat / 2 ^ 56
def rdOf (w : BitVec 64) : Nat := natBits w.toNat 51 5
def raOf (w : BitVec 64) : Nat := natBits w.toNat 46 5
def rbOf (w : BitVec 64) : Nat := natBits w.toNat 41 5
def xOf (w : BitVec 64) : Nat := natBits w.toNat 32 9
def immOf (w : BitVec 64) : Nat := w.toNat % 2 ^ 32

/-- sext(IMM) and zext(IMM). -/
def sext (imm : Word) : BitVec 64 := imm.signExtend 64
def zext (imm : Word) : BitVec 64 := imm.setWidth 64

/-- A number from a truth value. -/
def bit64 (b : Bool) : BitVec 64 := if b then 1 else 0

/-- The macroinstruction word at PC (R377): from SRAM, or from the boot ROM. -/
def State.fetchWord (s : State) (k : Fin 4) : BitVec 64 :=
  let a := s.f STK_PC_ADDR k
  BitVec.ofNat 64 (beNat (if a < 2 ^ 24 then s.load (stkBase + a) 8 else (List.range 8).map (fun i => Config.rom (a - 2 ^ 24 + i))))

/-! ### The datapath (R404, R405) -/

/-- May user level read the counter at a chip address (R369). -/
def State.userMayRead (s : State) (a : Nat) : Bool :=
  match counterAt a with
  | some (lo, _) =>
    match pmcAt lo with
    | some n =>
      if n < 256 then natBit (s.f PMC_USER_BITS (n / 32)) (n % 32) else natBit (s.f PMC_USER_S_BITS ((n - 256) / 32)) (n % 32)
    | none => false
  | none => false

/-- A core's sequencer. -/
def State.seq (s : State) (k : Fin 4) : MicroCore := s.uc.seq.get k

/-- Change a core's sequencer. -/
def State.setSeq (s : State) (k : Fin 4) (f : MicroCore → MicroCore) : State := { s with uc := { s.uc with seq := s.uc.seq.upd k f } }

/-- The microword at a micro-address and the nanoword at a nano-address (R402). -/
def State.microWord (s : State) (a : Nat) : Word := if a < 0x4000 then BitVec.ofNat 32 (Config.microRom a) else s.uc.micro.get (a - 0x4000)
def State.nanoWord (s : State) (a : Nat) : Nat := if a < 0x800 then Config.nanoRom a % 2 ^ 192 else s.uc.nano.get (a - 0x800)

/-- An ALU operand, by its number in A_SRC and B_SRC; `nano` gives K. -/
def State.microOperand (s : State) (k : Fin 4) (nano src : Nat) : BitVec 64 :=
  let m := s.seq k
  let g (n : Nat) : BitVec 64 := s.reg k (Fin.ofNat 32 n)
  let imm : Word := BitVec.ofNat 32 (immOf m.word)
  if 12 ≤ src ∧ src ≤ 19 then m.temps.get (src - 12)
  else if 20 ≤ src ∧ src ≤ 23 then BitVec.ofNat 64 (m.lc.get (src - 20))
  else
    match src with
    | 1 => g (raOf m.word)
    | 2 => g (rbOf m.word)
    | 3 => g (rdOf m.word)
    | 4 => sext imm
    | 5 => zext imm
    | 6 => BitVec.ofNat 64 (xOf m.word)
    | 7 => BitVec.ofNat 64 (s.f STK_PC_ADDR k)
    | 8 => m.mdr.setWidth 64
    | 9 => m.csrData
    | 10 => BitVec.ofNat 64 (natBits nano 96 32)
    | 11 => m.y
    | 24 => BitVec.ofNat 64 s.ntNs
    | 25 => BitVec.ofNat 64 (ntFrac s.nt)
    | 26 => m.unitData
    | 27 => BitVec.ofNat 64 m.icnt
    | 28 => m.word
    | _ => 0

/-- The value of a condition source (R405); `a` is operand A of the microword. -/
def State.microCond (s : State) (k : Fin 4) (a : BitVec 64) (src : Nat) : Bool :=
  let m := s.seq k
  if 32 ≤ src then m.y.getLsbD (src - 32)
  else if 22 ≤ src then natBit m.unitStatus (src - 22)
  else if 18 ≤ src then natBit m.access (src - 18)
  else if 6 ≤ src ∧ src ≤ 9 then m.lc.get (src - 6) == 0
  else
    match src with
    | 1 => true
    | 2 => m.z
    | 3 => m.n
    | 4 => m.c
    | 5 => m.v
    | 10 => !s.on STK_STAT_PRIV k
    | 11 => s.on STK_STAT_IEN k
    | 12 => m.unitBusy
    | 13 => m.unitResult != 0
    | 14 => m.unitResult == 1
    | 15 => 4088 ≤ m.icnt
    | 16 => a.toNat ≤ s.ntNs
    | 17 => (s.irqSource k).isSome
    | _ => false

/-- C and V of an ALU operation: those of the sum for the additions; for the others the spec states none. -/
def microCarry (op : Nat) (a b : BitVec 64) : Bool × Bool :=
  let sum (b : BitVec 64) : Bool × Bool := (2 ^ 64 ≤ a.toNat + b.toNat, a.msb == b.msb && (a + b).msb != a.msb)
  if op = 2 then sum b else if op = 13 then sum 8 else if op = 14 then sum 32
  else let f := Config.microFlags op a.toNat b.toNat; (natBit f 0, natBit f 1)

/-- Y goes to its destination (Y_DST). -/
def State.microDest (s : State) (k : Fin 4) (dst : Nat) (y : BitVec 64) : State :=
  let w := (s.seq k).word
  let g (n : Nat) : State := s.setReg k (Fin.ofNat 32 n) y
  if 12 ≤ dst ∧ dst ≤ 19 then s.setSeq k (fun m => { m with temps := m.temps.set (dst - 12) y })
  else
    match dst with
    | 1 => g (rdOf w)
    | 2 => g (raOf w)
    | 3 => g (rbOf w)
    | 4 => s.setF STK_PC_ADDR y.toNat k
    | 5 => s.setSeq k (fun m => { m with mar := y })
    | 6 => s.setSeq k (fun m => { m with mdr := y.setWidth 256 })
    | 7 => s.setSeq k (fun m => { m with csrAddr := y })
    | 8 => s.setSeq k (fun m => { m with csrData := y })
    | 9 => s.setF STK_EPC_ADDR y.toNat k
    | 10 => s.setSeq k (fun m => { m with unitData := y })
    | 11 => g (rdOf w + 1)
    | 20 => s.rset STK_STAT (y.setWidth 32) k
    | _ => s

/-- How an access of `n` bytes at S-offset `o` fails, as the four access conditions. -/
def State.microAccess (s : State) (k : Fin 4) (o n : Nat) : Nat :=
  (if o % n = 0 then 0 else 2) + (if o + n ≤ 2 ^ 24 then 0 else 4) +
  (if !s.on STK_STAT_PRIV k && !(s.f STK_UWIN_BASE_SOFS k ≤ o && o + n ≤ s.f STK_UWIN_LIMIT_SOFS k + 1) then 8 else 0)

/-- MEM_OP: MAR and the CSR address as they stood before the microword's own writes. -/
def State.microMem (s : State) (k : Fin 4) (op width : Nat) (m : MicroCore) : State :=
  let n := if width = 1 then 4 else if width = 2 then 32 else 8
  let o := m.mar.toNat
  let bad := s.microAccess k o n
  match op with
  | 1 =>
    if bad ≠ 0 then s.setSeq k (fun m => { m with access := bad })
    else
      let r := s.sramArm o n
      r.1.setSeq k (fun m => { m with access := r.2.toNat, mdr := BitVec.ofNat 256 (beNat (s.load (stkBase + o) n)) })
  | 2 =>
    let s := s.setSeq k (fun m => { m with access := bad })
    if bad ≠ 0 then s else s.store (stkBase + o) (natBytes n (m.mdr.toNat % 256 ^ n))
  | 3 =>
    match s.csrRead m.csrAddr.toNat with
    | none => s.setSeq k (fun m => { m with access := 4 })
    | some (t, v) => t.setSeq k (fun m => { m with access := 0, csrData := zext v })
  | 4 =>
    match s.csrWrite m.csrAddr.toNat (m.csrData.setWidth 32) with
    | none => s.setSeq k (fun m => { m with access := 4 })
    | some t => t.setSeq k (fun m => { m with access := 0 })
  | 5 => s.setSeq k (fun m => { m with word := s.fetchWord k })
  | _ => s

/-- LC_OP on the selected loop counter. -/
def loopCount (op : Nat) (y : BitVec 64) (kval old : Nat) : Nat :=
  match op with
  | 1 => y.toNat % 65536
  | 2 => kval % 65536
  | 3 => old - 1
  | _ => old

/-- A command to a unit: what it answers is free. -/
def State.microUnitOp (s : State) (k : Fin 4) (unit op : Nat) : State :=
  if unit = 0 ∨ 11 ≤ unit then s
  else
    let r := Config.microUnit s.cc unit op (s.seq k).unitData.toNat
    s.setSeq k (fun m => { m with unitBusy := natBit r 0, unitResult := natBits r 1 2, unitStatus := natBits r 3 10, unitData := BitVec.ofNat 64 (r / 2 ^ 13) })

/-- Is a microword's PRIV_CHK met. -/
def State.microAllowed (s : State) (k : Fin 4) (chk : Nat) : Bool :=
  let m := s.seq k
  match chk with
  | 1 => s.on STK_STAT_PRIV k
  | 2 => s.microAccess k m.mar.toNat 1 < 8
  | 3 => s.on STK_STAT_PRIV k || s.userMayRead m.csrAddr.toNat
  | _ => true

/-- The writes of one microword with nanoword `nano`, which land in its last sc. -/
def State.microWrites (s : State) (k : Fin 4) (w : Word) (nano : Nat) : State :=
  let m := s.seq k
  let op := natBits nano 154 6
  let a := s.microOperand k nano (natBits nano 149 5)
  let b := s.microOperand k nano (natBits nano 144 5)
  let y := if op = 10 ∧ microSc w < 4 then 0 else microAlu op a b
  let flags := microCarry op a b
  let sel := natBits nano 91 2
  if !s.microAllowed k (natBits nano 64 2) then s
  else
    let s := s.setSeq k (fun m => { m with y := y, lc := m.lc.set sel (loopCount (natBits nano 93 3) y (natBits nano 96 32) (m.lc.get sel)) })
    let s := if natBit nano 136 then s.setSeq k (fun m => { m with z := y == 0, n := y.msb, c := flags.1, v := flags.2 }) else s
    ((s.microDest k (natBits nano 139 5) y).microMem k (natBits nano 133 3) (natBits nano 137 2) m).microUnitOp k (natBits nano 80 8) (natBits nano 72 8)

/-! ### Sequencing (R406, R407, R409) -/

/-- One microword at the micro-address where the sequencer stands: none when a machine check stops it (R409). -/
def State.microStep (s : State) (k : Fin 4) : Option State :=
  let m := s.seq k
  let at_ := if m.traps then s.trapped m.addr else m.addr
  let w := s.microWord at_
  let nano := s.nanoWord (microNano w)
  let s := s.setSeq k (fun m => { m with icnt := m.icnt + microSc w - 1 })
  let cb := condBits nano (s.microCond k (s.microOperand k nano (natBits nano 149 5)))
  let next := nextMicro w (m.stack.headD 0) 0 cb
  let seq := microSeq w
  if !microMapped 1024 at_ || !nanoMapped 256 (microNano w) || !microMapped 1024 next || (seq == 1 && (4 ≤ m.stack.length || !microMapped 1024 (at_ + 1))) ||
      (seq == 2 && m.stack == []) then none
  else
    let s := s.microWrites k w nano
    some (s.setSeq k (fun x =>
      if seq = 3 then { x with addr := next, dispatched := true, stack := [], icnt := 0, traps := s.on UC_CTL_TRAP_ON }
      else { x with addr := next, icnt := x.icnt + 1, stack := if seq = 1 then (at_ + 1) :: m.stack else if seq = 2 then m.stack.drop 1 else m.stack }))

/-- Microwords up to the DISPATCH that ends an instruction, at most `n`. -/
def State.microGo (s : State) (k : Fin 4) : Nat → State
  | 0 => s
  | n + 1 =>
    match s.microStep k with
    | none => s
    | some t => if (t.seq k).dispatched then t else t.microGo k n

/-- The instruction that PC names is dispatched: its OPC goes into the target (R406). -/
def State.microDispatch (s : State) (k : Fin 4) : State :=
  s.setSeq k (fun m => { m with addr := m.addr ||| opcOf (s.fetchWord k) * 4, dispatched := false, word := s.fetchWord k })

/-- The sequencer of a core goes through an entry sequence that it stands at, if any, and then through an instruction: of all that its
microwords do, what R380 does not say stays, the sequencer's own registers. -/
def State.microRun (s : State) (k : Fin 4) : State :=
  let t := if (s.seq k).dispatched then s else s.microGo k 4095
  let u := (t.microDispatch k).microGo k 4095
  s.setSeq k (fun _ => u.seq k)

end Sys2Proof.Machine
end

