-- ==== Sys2Proof/Machine/Stoker.lean ====
section
/-! DEFINITION. Stoker's instructions (R375 to R398): the fields of an instruction word, how an instruction ends, the plain instructions
and those that act on SRAM, registers and the chip.  An instruction is one command: it runs on a core that is neither halted nor waiting
and has no exception to enter, and moves that core's PC. -/

namespace Sys2Proof.Machine

/-! ### How an instruction ends (R380, R382, R391) -/

/-- The end of an instruction: at the next word, at a jump's target, at itself again, or with an exception (cause and CODE). -/
inductive Ended where
  | next (s : State)
  | jump (s : State) (pc : Nat)
  | stay (s : State)
  | exc (s : State) (cause : Nat) (code : Nat)

/-- PC of core `k`. -/
def State.pc (s : State) (k : Nat) : Nat := s.f STK_PC_ADDR k

/-- Is core `k` at user level. -/
def State.user (s : State) (k : Nat) : Bool := !s.on STK_STAT_PRIV k

/-- An exception of core `k` is pending until its entry (R391). -/
def State.except (s : State) (k cause code : Nat) : State :=
  { s with stk := { s.stk with exc := s.stk.exc.set k (some { cause := cause, code := code }) } }

/-- An instruction of core `k` is retired (event 0x050). -/
def State.retired (s : State) (k : Nat) (user : Bool) : State := s.evAt 0x050 user (2 + k) 0

/-- Bring an instruction's end into the core: PC, or the exception. -/
def Ended.settle (e : Ended) (k pc : Nat) (user : Bool) : State :=
  match e with
  | .next s => (s.retired k user).setF STK_PC_ADDR ((pc + 8) % 2 ^ 32) k
  | .jump s a => (s.retired k user).setF STK_PC_ADDR a k
  | .stay s => s
  | .exc s c d => (if 6 ≤ c then s.retired k user else s).except k c d

/-- Run an instruction's one step on core `k` (R380, R391): `ok` its encoding, `super` whether user level may not run it (R378).  The sequencer
goes through its microwords (R402); what the instruction does is what R380 says. -/
def State.instrStep (s : State) (k : Fin 4) (super ok : Bool) (body : State → Ended) : State :=
  let s := s.microRun k
  let e := if !ok then .exc s 1 0 else if super && s.user k.val then .exc s 2 0 else body s
  e.settle k.val (s.pc k.val) (s.user k.val)

/-- Run an instruction on core `k`. -/
def State.instr (s : State) (k : Fin 4) (super ok : Bool) (body : State → Ended) : Host.Outcome State Fault Refusal :=
  .next (s.when (s.coreRuns k.val) fun s => s.instrStep k super ok body)

/-- An instruction that only writes RD. -/
def State.alu (s : State) (k : Fin 4) (rd : Fin 32) (v : State → BitVec 64) : Host.Outcome State Fault Refusal :=
  s.instr k false true fun s => .next (s.setReg k rd (v s))

/-! ### Arithmetic and logic -/

/-- NOP (R380). -/
def execNop (k : Fin 4) (s : State) : Host.Outcome State Fault Refusal := s.instr k false true fun s => .next s

/-- ADD (R380). -/
def execAdd (k : Fin 4) (rd ra rb : Fin 32) (s : State) : Host.Outcome State Fault Refusal := s.alu k rd fun s => s.reg k ra + s.reg k rb

/-- SUB (R380). -/
def execSub (k : Fin 4) (rd ra rb : Fin 32) (s : State) : Host.Outcome State Fault Refusal := s.alu k rd fun s => s.reg k ra - s.reg k rb

/-- AND (R380). -/
def execStkAnd (k : Fin 4) (rd ra rb : Fin 32) (s : State) : Host.Outcome State Fault Refusal := s.alu k rd fun s => s.reg k ra &&& s.reg k rb

/-- OR (R380). -/
def execStkOr (k : Fin 4) (rd ra rb : Fin 32) (s : State) : Host.Outcome State Fault Refusal := s.alu k rd fun s => s.reg k ra ||| s.reg k rb

/-- XOR (R380). -/
def execStkXor (k : Fin 4) (rd ra rb : Fin 32) (s : State) : Host.Outcome State Fault Refusal := s.alu k rd fun s => s.reg k ra ^^^ s.reg k rb

/-- The shift amount in bits [5:0] of a register. -/
def shamt (v : BitVec 64) : Nat := v.toNat % 64

/-- SHL (R380). -/
def execShl (k : Fin 4) (rd ra rb : Fin 32) (s : State) : Host.Outcome State Fault Refusal :=
  s.alu k rd fun s => s.reg k ra <<< shamt (s.reg k rb)

/-- SHR (R380). -/
def execShr (k : Fin 4) (rd ra rb : Fin 32) (s : State) : Host.Outcome State Fault Refusal :=
  s.alu k rd fun s => s.reg k ra >>> shamt (s.reg k rb)

/-- SRA (R380): copies the sign bit. -/
def execSra (k : Fin 4) (rd ra rb : Fin 32) (s : State) : Host.Outcome State Fault Refusal :=
  s.alu k rd fun s => (s.reg k ra).sshiftRight (shamt (s.reg k rb))

/-- MUL (R380): the low 64 bits. -/
def execMul (k : Fin 4) (rd ra rb : Fin 32) (s : State) : Host.Outcome State Fault Refusal := s.alu k rd fun s => s.reg k ra * s.reg k rb

/-- SLT (R380): signed. -/
def execSlt (k : Fin 4) (rd ra rb : Fin 32) (s : State) : Host.Outcome State Fault Refusal :=
  s.alu k rd fun s => bit64 ((s.reg k ra).slt (s.reg k rb))

/-- SLTU (R380): unsigned. -/
def execSltu (k : Fin 4) (rd ra rb : Fin 32) (s : State) : Host.Outcome State Fault Refusal :=
  s.alu k rd fun s => bit64 ((s.reg k ra).ult (s.reg k rb))

/-- ADDI (R380). -/
def execAddi (k : Fin 4) (rd ra : Fin 32) (imm : Word) (s : State) : Host.Outcome State Fault Refusal := s.alu k rd fun s => s.reg k ra + sext imm

/-- ANDI (R380). -/
def execAndi (k : Fin 4) (rd ra : Fin 32) (imm : Word) (s : State) : Host.Outcome State Fault Refusal := s.alu k rd fun s => s.reg k ra &&& zext imm

/-- ORI (R380). -/
def execOri (k : Fin 4) (rd ra : Fin 32) (imm : Word) (s : State) : Host.Outcome State Fault Refusal := s.alu k rd fun s => s.reg k ra ||| zext imm

/-- XORI (R380). -/
def execXori (k : Fin 4) (rd ra : Fin 32) (imm : Word) (s : State) : Host.Outcome State Fault Refusal := s.alu k rd fun s => s.reg k ra ^^^ zext imm

/-- SHLI (R380): IMM[31:6] must be 0. -/
def execShli (k : Fin 4) (rd ra : Fin 32) (imm : Word) (s : State) : Host.Outcome State Fault Refusal :=
  s.instr k false (imm.toNat / 64 == 0) fun s => .next (s.setReg k rd (s.reg k ra <<< imm.toNat))

/-- SHRI (R380): IMM[31:6] must be 0. -/
def execShri (k : Fin 4) (rd ra : Fin 32) (imm : Word) (s : State) : Host.Outcome State Fault Refusal :=
  s.instr k false (imm.toNat / 64 == 0) fun s => .next (s.setReg k rd (s.reg k ra >>> imm.toNat))

/-- LI (R380). -/
def execLi (k : Fin 4) (rd : Fin 32) (imm : Word) (s : State) : Host.Outcome State Fault Refusal := s.alu k rd fun _ => sext imm

/-- LIH (R380): the upper half. -/
def execLih (k : Fin 4) (rd : Fin 32) (imm : Word) (s : State) : Host.Outcome State Fault Refusal :=
  s.alu k rd fun s => imm ++ (s.reg k rd).setWidth 32

/-! ### Branches and jumps (R377, R380) -/

/-- A jump to `a`, which raises cause 3 when it is no code address; `link` writes RD. -/
def State.goTo (s : State) (a : Nat) (link : State → State) : Ended := if codeAddr a then .jump (link s) a else .exc s 3 0

/-- The target PC + 8 × sext(IMM), as a number below 2^64. -/
def branchTarget (pc : Nat) (imm : Word) : Nat := (BitVec.ofNat 64 pc + 8 * sext imm).toNat

/-- A conditional branch. -/
def State.branch (s : State) (k : Fin 4) (ra rb : Fin 32) (imm : Word) (c : BitVec 64 → BitVec 64 → Bool) : Host.Outcome State Fault Refusal :=
  s.instr k false true fun s => if c (s.reg k ra) (s.reg k rb) then s.goTo (branchTarget (s.pc k) imm) id else .next s

/-- BEQ (R380). -/
def execBeq (k : Fin 4) (ra rb : Fin 32) (imm : Word) (s : State) : Host.Outcome State Fault Refusal := s.branch k ra rb imm fun a b => a == b

/-- BNE (R380). -/
def execBne (k : Fin 4) (ra rb : Fin 32) (imm : Word) (s : State) : Host.Outcome State Fault Refusal := s.branch k ra rb imm fun a b => a != b

/-- BLT (R380): signed. -/
def execBlt (k : Fin 4) (ra rb : Fin 32) (imm : Word) (s : State) : Host.Outcome State Fault Refusal := s.branch k ra rb imm fun a b => a.slt b

/-- BGE (R380): signed. -/
def execBge (k : Fin 4) (ra rb : Fin 32) (imm : Word) (s : State) : Host.Outcome State Fault Refusal := s.branch k ra rb imm fun a b => !a.slt b

/-- BLTU (R380): unsigned. -/
def execBltu (k : Fin 4) (ra rb : Fin 32) (imm : Word) (s : State) : Host.Outcome State Fault Refusal := s.branch k ra rb imm fun a b => a.ult b

/-- BGEU (R380): unsigned. -/
def execBgeu (k : Fin 4) (ra rb : Fin 32) (imm : Word) (s : State) : Host.Outcome State Fault Refusal := s.branch k ra rb imm fun a b => !a.ult b

/-- The address of the next instruction, as RD receives it. -/
def State.linkAddr (s : State) (k : Fin 4) : BitVec 64 := BitVec.ofNat 64 (s.pc k + 8)

/-- JAL (R380). -/
def execJal (k : Fin 4) (rd : Fin 32) (imm : Word) (s : State) : Host.Outcome State Fault Refusal :=
  s.instr k false true fun s => s.goTo (branchTarget (s.pc k) imm) (fun t => t.setReg k rd (s.linkAddr k))

/-- JALR (R380): to (RA + sext(IMM))[31:0]. -/
def execJalr (k : Fin 4) (rd ra : Fin 32) (imm : Word) (s : State) : Host.Outcome State Fault Refusal :=
  s.instr k false true fun s => s.goTo ((s.reg k ra + sext imm).toNat % 2 ^ 32) (fun t => t.setReg k rd (s.linkAddr k))

/-! ### SRAM (R376, R378, R381) -/

/-- Read `n` bytes of SRAM as its code gives them: the state, and the S-offset of an uncorrectable word, which raises MEMU (R376). -/
def State.sramCheck (s : State) (o n : Nat) : State × Option Nat :=
  match s.sramArm o n with
  | (t, true) => (t.raise 1 2 3, s.flt.arm.map (fun a => 8 * a.index))
  | (t, false) => (t, none)

/-- Do bytes [o, o + n) lie in core `k`'s user window (R378, R400). -/
def State.inWindow (s : State) (k o n : Nat) : Bool := s.f STK_UWIN_BASE_SOFS k ≤ o && o + n ≤ s.f STK_UWIN_LIMIT_SOFS k + 1

/-- The cause that refuses an access of `n` bytes at S-offset `o`: window, alignment, SRAM. -/
def State.sramRefuses (s : State) (k o n : Nat) : Option Nat :=
  if s.user k && !s.inWindow k o n then some 2 else if o % n ≠ 0 then some 3 else if 2 ^ 24 < o + n then some 4 else none

/-- A load of `n` bytes. -/
def State.loadInstr (s : State) (k : Fin 4) (rd ra : Fin 32) (imm : Word) (n : Nat) : Host.Outcome State Fault Refusal :=
  s.instr k false true fun s =>
    let o := (s.reg k ra + sext imm).toNat
    match s.sramRefuses k o n with
    | some c => .exc s c 0
    | none =>
      match s.sramCheck o n with
      | (s, some _) => .exc s 5 0
      | (s, none) => .next (s.setReg k rd (BitVec.ofNat 64 (beNat (s.load (stkBase + o) n))))

/-- LD (R380). -/
def execLd (k : Fin 4) (rd ra : Fin 32) (imm : Word) (s : State) : Host.Outcome State Fault Refusal := s.loadInstr k rd ra imm 8

/-- LDW (R380): zero-extended. -/
def execLdw (k : Fin 4) (rd ra : Fin 32) (imm : Word) (s : State) : Host.Outcome State Fault Refusal := s.loadInstr k rd ra imm 4

/-- A store of the low `n` bytes of RB. -/
def State.storeInstr (s : State) (k : Fin 4) (rb ra : Fin 32) (imm : Word) (n : Nat) : Host.Outcome State Fault Refusal :=
  s.instr k false true fun s =>
    let o := (s.reg k ra + sext imm).toNat
    match s.sramRefuses k o n with
    | some c => .exc s c 0
    | none => .next (s.store (stkBase + o) (natBytes n (s.reg k rb).toNat))

/-- ST (R380). -/
def execSt (k : Fin 4) (rb ra : Fin 32) (imm : Word) (s : State) : Host.Outcome State Fault Refusal := s.storeInstr k rb ra imm 8

/-- STW (R380). -/
def execStw (k : Fin 4) (rb ra : Fin 32) (imm : Word) (s : State) : Host.Outcome State Fault Refusal := s.storeInstr k rb ra imm 4

/-- How many bytes BMOV moves. -/
def bmovLen (rd : BitVec 64) : Nat := min rd.toNat 16384

/-- The bytes of a block move, as if all were read before any is written (R383). -/
def State.bmovBytes (s : State) (src dst n : Nat) : State := s.store (stkBase + dst) (s.load (stkBase + src) n)

/-- BMOV (R383): an uncorrectable word ends it before that word. -/
def execBmov (k : Fin 4) (rd ra rb : Fin 32) (s : State) : Host.Outcome State Fault Refusal :=
  s.instr k true true fun s =>
    let n := bmovLen (s.reg k rd)
    let a := (s.reg k ra).toNat
    let b := (s.reg k rb).toNat
    let d := s.reg k rd
    if a % 8 ≠ 0 ∨ b % 8 ≠ 0 ∨ d.toNat % 8 ≠ 0 then .exc s 3 0
    else if 2 ^ 24 < a + n ∨ 2 ^ 24 < b + n then .exc s 4 0
    else
      let r := s.sramCheck a n
      let m := match r.2 with
        | some o => min n (o - a)
        | none => n
      let s := r.1.bmovBytes a b m
      .next (((s.setReg k ra (BitVec.ofNat 64 (a + m))).setReg k rb (BitVec.ofNat 64 (b + m))).setReg k rd (d - BitVec.ofNat 64 m))

/-! ### Registers (R379, R380, R381) -/

/-- CSRR (R380, R381). -/
def execCsrr (k : Fin 4) (rd ra : Fin 32) (imm : Word) (s : State) : Host.Outcome State Fault Refusal :=
  s.instr k false true fun s =>
    let a := (s.reg k ra + sext imm).toNat
    if s.user k && !s.userMayRead a then .exc s 2 0
    else if a % 4 ≠ 0 then .exc s 3 0
    else
      match s.csrRead a with
      | none => .exc s 4 0
      | some (t, v) => .next ((t.evAt 0x051 (s.user k) (2 + k.val) a).setReg k rd (zext v))

/-- A CSRW leaves PC where the write put it: a software reset, or the entry of an image that a HOSTLOAD found good (R443, R451). -/
def keepsPc (a : Nat) (v : Word) (pc pc' : Nat) : Bool := pc' != pc || (a == BOOT_CTL.base && wrBit v 31 && wordBits v 0 16 == 0xB007)

/-- CSRW (R379 to R381). -/
def execCsrw (k : Fin 4) (ra rb : Fin 32) (imm : Word) (s : State) : Host.Outcome State Fault Refusal :=
  s.instr k true true fun s =>
    let a := (s.reg k ra + sext imm).toNat
    let v := (s.reg k rb).setWidth 32
    if a % 4 ≠ 0 then .exc s 3 0
    else
      match (s.evAt 0x051 false (2 + k.val) a).csrWrite a v with
      | none => .exc s 4 0
      | some t => if keepsPc a v (s.pc k) (t.pc k) then .stay t else .next t

/-! ### Time, calls and returns (R386, R391, R392) -/

/-- RDNT (R380): RD even, 2 to 30. -/
def execRdnt (k : Fin 4) (rd : Fin 32) (s : State) : Host.Outcome State Fault Refusal :=
  s.instr k false (rd.val % 2 == 0 && rd.val != 0) fun s =>
    .next ((s.setReg k rd (BitVec.ofNat 64 s.ntNs)).setReg k (rd + 1) (BitVec.ofNat 64 (ntFrac s.nt)))

/-- WAITT (R386): goes on once NT in whole ns has reached RA. -/
def execWaitt (k : Fin 4) (ra : Fin 32) (s : State) : Host.Outcome State Fault Refusal :=
  s.instr k false true fun s => if (s.reg k ra).toNat ≤ s.ntNs then .next s else .stay s

/-- SYSC (R380): cause 6 with CODE IMM[15:0]. -/
def execSysc (k : Fin 4) (imm : Word) (s : State) : Host.Outcome State Fault Refusal := s.instr k false true fun s => .exc s 6 (imm.toNat % 65536)

/-- BRK (R380): cause 7. -/
def execBrk (k : Fin 4) (s : State) : Host.Outcome State Fault Refusal := s.instr k false true fun s => .exc s 7 0

/-- RETI (R392): from a machine check while MC_ACTIVE is 1, else from a handler. -/
def execReti (k : Fin 4) (s : State) : Host.Outcome State Fault Refusal :=
  s.instr k true true fun s =>
    if s.on STK_STAT_MC_ACTIVE k then
      .jump (((s.setF STK_STAT_PRIV (s.f STK_STAT_MC_PRIV k) k).setF STK_STAT_IEN (s.f STK_STAT_MC_IEN k) k).setF STK_STAT_MC_ACTIVE 0 k)
        (s.f STK_MC_RESUME_ADDR k)
    else .jump ((s.setF STK_STAT_PRIV (s.f STK_STAT_EPRIV k) k).setF STK_STAT_IEN (s.f STK_STAT_EIEN k) k) (s.f STK_EPC_ADDR k)

/-- WAITI (R386): the core waits; an interrupt's return address is the next instruction. -/
def execWaiti (k : Fin 4) (s : State) : Host.Outcome State Fault Refusal :=
  s.instr k true true fun s => .next { s with stk := { s.stk with waiting := s.stk.waiting.set k true } }

/-! ### Host interrupts, semaphores, commits, hints (R387 to R390) -/

/-- Queue a host interrupt and tell RD whether there was room. -/
def State.hostInt (s : State) (k : Fin 4) (rd : Fin 32) (ring : Fin 2) (imm : Word) : State :=
  (s.hostMsg ring 0 k (imm.toNat % 65536)).setReg k rd (bit64 (s.msgRoom ring))

/-- HOSTI (R390): IMM[15] must be 0. -/
def execHosti (k : Fin 4) (rd : Fin 32) (ring : Fin 2) (imm : Word) (s : State) : Host.Outcome State Fault Refusal :=
  s.instr k true (!imm.getLsbD 15) fun s => .next (s.hostInt k rd ring imm)

/-- HOSTIS (R390): halts with HALT_CAUSE 1 and PC at the next instruction. -/
def execHostis (k : Fin 4) (rd : Fin 32) (ring : Fin 2) (imm : Word) (s : State) : Host.Outcome State Fault Refusal :=
  s.instr k true (!imm.getLsbD 15) fun s => .next ((s.hostInt k rd ring imm).haltNow k 1)

/-- SEMTS (R389). -/
def execSemts (k : Fin 4) (rd : Fin 32) (imm : Word) (s : State) : Host.Outcome State Fault Refusal :=
  s.instr k true (imm.toNat / 64 == 0) fun s =>
    let r := s.semTake imm.toNat (3 + k.val)
    .next ((if r.2 then r.1 else r.1.evAt 0x054 false (2 + k.val) 0).setReg k rd (bit64 r.2))

/-- SEMREL (R389). -/
def execSemrel (k : Fin 4) (rd : Fin 32) (imm : Word) (s : State) : Host.Outcome State Fault Refusal :=
  s.instr k true (imm.toNat / 64 == 0) fun s =>
    let r := s.semGive imm.toNat (3 + k.val)
    .next (r.1.setReg k rd (bit64 r.2))

/-- What RD receives for a commit request: accepted into CHECK, held, or refused. -/
def commitAnswer (s t : State) : Nat :=
  if s.f GEN_STAT_CSTATE ≠ 4 ∧ t.f GEN_STAT_CSTATE = 4 then 0 else if s.gen.held.isNone && t.gen.held.isSome then 1 else 2

/-- The writes of R387's steps 1 and 2: GEN_CMT_NUM and t_c from whole ns. -/
def State.commitWords (s : State) (num tc : Nat) : State :=
  (((s.setF GEN_CMT_NUM_NUM num).setF GEN_CMT_AT_HI_SEC_HI (tc / 1000000000 / 2 ^ 32)).setF GEN_CMT_AT_MID_SEC_LO (tc / 1000000000)).setF
    GEN_CMT_AT_LO_NS (tc % 1000000000)

/-- CMT (R387). -/
def execCmt (k : Fin 4) (rd ra rb : Fin 32) (x : BitVec 9) (s : State) : Host.Outcome State Fault Refusal :=
  s.instr k true true fun s =>
    let s := s.commitWords (s.reg k ra).toNat (s.reg k rb).toNat
    let v := x.toNat
    if natBit v 4 then
      let s := ((s.setF GEN_CMT_CTL_SRC v).setF GEN_CMT_CTL_NOW (natBits v 2 1)).setF GEN_CMT_CTL_ANYNUM (natBits v 3 1)
      let t := s.commitCancel
      .next (t.setReg k rd (if t.gen = s.gen then 4 else 3))
    else
      let t := s.commitCmd (v % 4) (natBit v 2) (natBit v 3)
      .next (t.setReg k rd (BitVec.ofNat 64 (commitAnswer s t)))

/-- PHASE (R388): IMM[7:6] and IMM[15:11] must be 0. -/
def execPhase (k : Fin 4) (rd ra : Fin 32) (imm : Word) (s : State) : Host.Outcome State Fault Refusal :=
  s.instr k true (wordBits imm 6 2 == 0 && wordBits imm 11 5 == 0) fun s =>
    let t := s.hintSubmit ((s.reg k ra).toNat % 2 ^ 32) (wordBits imm 0 6) (wordBits imm 8 3) (wordBits imm 16 16)
    .next (t.setReg k rd (bit64 (s.pwr.hints.length != t.pwr.hints.length)))

/-! ### Table instructions (R384, R385) -/

/-- Is the port that a TBW entry names BUSY. -/
def State.tbwWaits (s : State) (b : List Byte) : Bool :=
  let w0 := fieldAt b 0 4
  s.on (if natBit w0 30 then STG_ACT_STAT_BUSY else STG_ACC_STAT_BUSY) (natBits w0 25 5)

/-- One TBW entry (64 bytes) through its port: the state and RESULT. -/
def State.tbwEntry (s : State) (b : List Byte) : State × Nat :=
  let w0 := fieldAt b 0 4
  let sl := natBits w0 25 5
  let data (r : Reg) (n : Nat) (s : State) : State := (List.range n).foldl (fun s i => s.rset r (BitVec.ofNat 32 (fieldAt b (8 + 4 * i) 4)) sl i) s
  if natBit w0 30 then
    let s := (data STG_ACT_DATA 4 s).setF STG_ACT_ADDR_ADDR (fieldAt b 4 4) sl
    let s := ((s.setF STG_ACT_CTL_BCAST (natBits w0 31 1) sl).setF STG_ACT_CTL_READ 0 sl).setF STG_ACT_CTL_ACTIVE 0 sl
    let s := (s.setF STG_ACT_CTL_SPACE (natBits w0 20 4) sl).setF STG_ACT_CTL_STAGE (natBits w0 13 5) sl
    let s := (s.actGo sl).actDone sl
    (s, s.f STG_ACT_STAT_RESULT sl)
  else
    let s := (data STG_ACC_DATA 12 s).setF STG_ACC_ADDR_ADDR (fieldAt b 4 4) sl
    let s := (s.setF STG_ACC_CTL_BCAST (natBits w0 31 1) sl).setF STG_ACC_CTL_READ 0 sl
    let s := (s.setF STG_ACC_CTL_SPACE (natBits w0 20 4) sl).setF STG_ACC_CTL_STAGE (natBits w0 13 5) sl
    let s := (s.tblGo sl).tblDone sl
    (s, s.f STG_ACC_STAT_RESULT sl)

/-- TBW from entry `i` on, with `n` entries left: the state, CODE and COUNT. -/
def State.tbwRun (s : State) (o i : Nat) : Nat → State × Nat × Nat
  | 0 => (s, 0, i)
  | n + 1 =>
    match s.sramCheck (o + 64 * i) 64 with
    | (s, some _) => (s, 2, i)
    | (s, none) =>
      match s.tbwEntry (s.load (stkBase + o + 64 * i) 64) with
      | (s, 0) => s.tbwRun o (i + 1) n
      | (s, r) => (s, if r = 1 then 1 else 2, i)

/-- RD of TBW and TSCAN (R382). -/
def longResult (code count : Nat) : BitVec 64 := BitVec.ofNat 64 (code * 2 ^ 62 + count % 65536)

/-- TBW (R384): it waits while a port that it is to use is BUSY. -/
def execTbw (k : Fin 4) (rd ra rb : Fin 32) (s : State) : Host.Outcome State Fault Refusal :=
  s.instr k true true fun s =>
    let n := (s.reg k rb).toNat
    let o := (s.reg k ra).toNat
    if n = 0 ∨ 256 < n then .exc s 1 0
    else if o % 64 ≠ 0 then .exc s 3 0
    else if 2 ^ 24 < o + 64 * n then .exc s 4 0
    else if (List.range n).any (fun i => s.tbwWaits (s.load (stkBase + o + 64 * i) 64)) then .stay s
    else
      let r := s.tbwRun o 0 n
      .next (r.1.setReg k rd (longResult r.2.1 r.2.2))

/-- The 128-bit mask and value of a TSCAN descriptor: word 2 + i holds bits [32 i + 31 : 32 i]. -/
def scanNum (b : List Byte) (o : Nat) : Nat := (List.range 4).foldl (fun a i => a + fieldAt b (o + 4 * i) 4 * 2 ^ (32 * i)) 0

/-- The first of `n` rows from `row` that matches, as its distance. -/
def State.scanRows (s : State) (sl g row n mask value : Nat) : Option Nat :=
  (List.range n).find? (fun i => (s.tab.sram.get (sramKey sl g ((row + i) % 32768))) &&& mask == value &&& mask)

/-- TSCAN (R385): it sees rows as they were before a write of this cc. -/
def execTscan (k : Fin 4) (rd ra : Fin 32) (s : State) : Host.Outcome State Fault Refusal :=
  s.instr k true true fun s =>
    let o := (s.reg k ra).toNat
    if o % 16 ≠ 0 then .exc s 3 0
    else if 2 ^ 24 < o + 48 then .exc s 4 0
    else
      match s.sramCheck o 48 with
      | (s, some _) => .next (s.setReg k rd (longResult 2 0))
      | (s, none) =>
        let b := s.load (stkBase + o) 48
        let w0 := fieldAt b 0 4
        let count := fieldAt b 6 2
        let sl := natBits w0 27 5
        let g := natBits w0 22 5
        let row := natBits w0 0 15
        if count = 0 ∨ 32768 < count ∨ 17 < g then .exc s 1 0
        else
          let n := min count 2048
          let hit := s.beforeWrites.scanRows sl g row n (scanNum b 8) (scanNum b 24)
          let done := match hit with
            | some i => i + 1
            | none => n
          let s := (s.setSram32 o (w0 - row + (row + done) % 32768)).setSram32 (o + 4) (fieldAt b 4 4 - done)
          .next (s.setReg k rd (match hit with
            | some i => longResult 0 ((row + i) % 32768)
            | none => longResult 1 0))

/-! ### Command rings (R394 to R397) -/

/-- S-offset of entry `i` of command ring `j`. -/
def State.crEntry (s : State) (j i : Nat) : Nat := (64 * s.f STK_CR_BASE_BASE j + 64 * i) % 2 ^ 24

/-- Entries of command ring `j`. -/
def State.crSize (s : State) (j : Nat) : Nat := 2 ^ s.f STK_CR_CFG_LOG2 j

/-- Queue a completion interrupt when the entry's IRQ is 1. -/
def State.crIrq (s : State) (k j o i : Nat) : State := if natBit (s.sram32 (o + 4)) 31 then s.hostMsg j 1 k (0x8000 + i) else s

/-- Give a ring a duplicate window. -/
def State.setDup (s : State) (j : Nat) (l : List DupEntry) : State := { s with stk := { s.stk with dup := s.stk.dup.set j l } }

/-- A duplicate on ring `j` is counted. -/
def State.dupCount (s : State) (j : Nat) : State := s.count (if j = 0 then C_STK_CR_DUP0 else C_STK_CR_DUP1)

/-- CRNEXT's settling of the entry at S-offset `o`, number `i`: the state and RD. -/
def State.crTake (s : State) (k j o i : Nat) : State × Nat :=
  let id := s.sram32 o
  let l := s.stk.dup.get j
  match l.find? (fun e => e.id == id) with
  | none => (s.setDup j ((l ++ [({ id := id } : DupEntry)]).drop (l.length - 255)), o)
  | some e =>
    if e.done then
      let s := (s.setSram32 (o + 52) e.result).setSram32 (o + 48) (e.status ||| 2 ^ 30)
      ((s.crIrq k j o i).dupCount j, 2 ^ 62 + o)
    else ((s.setSram32 (o + 48) (2 ^ 30)).dupCount j, 2 ^ 62 + o)

/-- CRNEXT (R396). -/
def execCrnext (k : Fin 4) (rd : Fin 32) (ring : Fin 2) (s : State) : Host.Outcome State Fault Refusal :=
  s.instr k true true fun s =>
    let h := s.f STK_CR_HEAD_INDEX ring
    if !s.on STK_CR_CFG_EN ring || h == s.f STK_CR_TAIL_INDEX ring % s.crSize ring then .next (s.setReg k rd (BitVec.ofNat 64 (2 ^ 63)))
    else
      let o := s.crEntry ring h
      match s.sramCheck o 8 with
      | (s, some _) => .exc s 5 0
      | (s, none) =>
        let s := s.setF STK_CR_HEAD_INDEX ((h + 1) % s.crSize ring) ring
        let r := s.crTake k ring o h
        .next (r.1.setReg k rd (BitVec.ofNat 64 r.2))

/-- CRDONE's record in the window: the state and RD. -/
def State.crRecord (s : State) (j id status result : Nat) : State × Nat :=
  let l := s.stk.dup.get j
  if l.any (fun e => e.id == id && !e.done) then
    (s.setDup j (l.map (fun e => if e.id == id then { e with done := true, status := status, result := result } else e)), 0)
  else (s, 1)

/-- CRDONE (R397). -/
def execCrdone (k : Fin 4) (rd ra rb : Fin 32) (ring : Fin 2) (s : State) : Host.Outcome State Fault Refusal :=
  s.instr k true true fun s =>
    let o := (s.reg k ra).toNat
    let base := 64 * s.f STK_CR_BASE_BASE ring
    if o % 64 ≠ 0 ∨ o < base ∨ base + 64 * s.crSize ring ≤ o ∨ 2 ^ 24 ≤ o then .exc s 3 0
    else
      match s.sramCheck o 8 with
      | (s, some _) => .exc s 5 0
      | (s, none) =>
        let v := (s.reg k rb).toNat
        let status := 2 ^ 31 + v % 65536
        let s := (s.setSram32 (o + 52) (v / 2 ^ 32)).setSram32 (o + 48) status
        let r := s.crRecord ring (s.sram32 o) status (v / 2 ^ 32)
        .next ((r.1.crIrq k ring o ((o - base) / 64)).setReg k rd (BitVec.ofNat 64 r.2))

/-! ### SEND (R353, R398) -/

/-- A send descriptor. -/
structure SendDesc where
  direct : Bool
  stamp : Bool
  aux : Bool
  tag : Nat
  queue : Nat
  port : Nat
  len : Nat
  buf : Nat
  tref : Nat

/-- The descriptor in 32 bytes; T_REF in units of 1/65,536 ns, and an AUX port as MAC port 512 or 513. -/
def sendDesc (b : List Byte) : SendDesc :=
  let w0 := fieldAt b 0 4
  { direct := natBit w0 31, stamp := natBit w0 30, aux := natBit w0 29, tag := natBits w0 20 8, queue := natBits w0 16 4
    port := if natBit w0 29 then 512 + w0 % 2 else natBits w0 0 9, len := natBits (fieldAt b 4 4) 0 14, buf := natBits (fieldAt b 8 4) 0 24
    tref := nt16 (ntOf (fieldAt b 16 2 * 2 ^ 32 + fieldAt b 20 4) (fieldAt b 24 4) (fieldAt b 18 2)) }

/-- Is a descriptor valid. -/
def SendDesc.valid (d : SendDesc) : Bool := 60 ≤ d.len && d.len ≤ 15996 && d.queue < 12 && d.buf + d.len ≤ 2 ^ 24

/-- The stamp request of a descriptor. -/
def SendDesc.stampTag (d : SendDesc) : Option Nat := if d.stamp then some d.tag else none

/-- Send on the direct path: a queue of 4 per port. -/
def State.sendDirect (s : State) (d : SendDesc) (b : List Byte) : State × Nat :=
  if 4 ≤ ((s.mp d.port).gen.filter (·.direct)).length then (s, 1)
  else (s.queueGen d.port { bytes := b, made := s.cc, direct := true, stamp := d.stampTag, tref := d.tref }, 0)

/-- How a SEND stands in a cc: it cannot go on in this cc, waits for a larger pool, or has ended with a code. -/
inductive Sent where
  | later | waits (s : State) | ended (s : State) (code : Nat)

/-- The SEND of core `k` is over with its block request. -/
def State.sendOver (s : State) (k : Nat) : State := { s with stk := { s.stk with sending := s.stk.sending.set k (0, 0, 0) } }

/-- The frame of a SEND enters its queue in block `a` (R196, R398). -/
def State.sendEnqueue (s : State) (d : SendDesc) (b : List Byte) (a : Nat) : Sent :=
  let c := s.fwd.nextCopy
  match s.originate (b ++ [0, 0, 0, 0]) d.port d.queue a (sliceOf d.port) true with
  | (s, .enqueued) => .ended (s.setCopy c { s.copy c with stamp := d.stampTag, tref := d.tref }) 0
  | (s, _) => .ended s 1

/-- Send on the queued path (R398): core `k` asks for a block in its turn, one pool in one cc (R226, R227). -/
def State.sendQueued (s : State) (k : Nat) (d : SendDesc) (b : List Byte) (cells : List Nat) (ecc : Nat) : Sent :=
  let n := 64 + b.length + 4
  let want := poolFor n
  let sl := sliceOf d.port
  if !s.turn (sendStanding k sl) || (s.inSend k && s.cc < (s.stk.sending.get k).2.1) then .later
  else
    let p := if s.inSend k then (s.stk.sending.get k).1 else want
    match ((s.poolMeta ecc).sendOver k).request want p n (sliceTag 3 sl) cells with
    | (s, .granted) => s.sendEnqueue d b (cells.headD 0)
    | (s, .fallback) => .waits { s with stk := { s.stk with sending := s.stk.sending.set k (p + 1, s.cc + 1, sl) } }
    | (s, .refused) => .ended s 1
    | (_, .noOccasion) => .later

/-- A SEND with descriptor `d`.  What its request waits for has been found good when it began. -/
def State.sendFrame (s : State) (k : Nat) (d : SendDesc) (cells : List Nat) (ecc : Nat) : Sent :=
  if !d.valid then .ended s 3
  else
    let b := s.load (stkBase + d.buf) d.len
    let quarantined := !d.aux && s.macUp d.port && !s.portUp d.port
    if s.inSend k then s.sendQueued k d b cells ecc
    else if !s.macUp d.port || (d.aux && s.on MAC_AUX_CTL_SLEEP (d.port - 512)) then .ended s 2
    else if quarantined && directHeaders (s.f TIME_CFG_PTP_TYPE) b == [] then .ended s 2
    else if d.direct || d.aux || quarantined then let r := s.sendDirect d b; .ended r.1 r.2
    else s.sendQueued k d b cells ecc

/-- Count a SEND that ended with code 1 or 2. -/
def State.sendCount (s : State) (code : Nat) : State := if code = 1 ∨ code = 2 then s.count C_STK_SEND_DROP else s

/-- SEND's whole effect but RD. -/
def State.sendRun (s : State) (k o : Nat) (cells : List Nat) (ecc : Nat) : Sent :=
  match s.sendFrame k (sendDesc (s.load (stkBase + o) 32)) cells ecc with
  | .ended s c => .ended ((s.sendOver k).sendCount c) c
  | r => r

/-- SEND's end in its core: RD receives the code; a SEND that cannot end in this cc is run again. -/
def Sent.settle (r : Sent) (s : State) (k : Fin 4) (rd : Fin 32) : Ended :=
  match r with
  | .later => .stay s
  | .waits s => .stay s
  | .ended s c => .next (s.setReg k rd (BitVec.ofNat 64 c))

/-- The body of SEND (R398): an uncorrectable word of the descriptor or the frame makes the descriptor useless, and nothing is sent. -/
def State.sendBody (s : State) (k : Fin 4) (rd ra : Fin 32) (cells : List Nat) (ecc : Nat) : Ended :=
  let o := (s.reg k ra).toNat
  if o % 32 ≠ 0 then .exc s 3 0
  else if 2 ^ 24 < o + 32 then .exc s 4 0
  else
    match s.sramCheck o 32 with
    | (s, some _) => .next ((s.sendOver k).setReg k rd 3)
    | (s, none) =>
      let d := sendDesc (s.load (stkBase + o) 32)
      match (if d.valid then s.sramCheck d.buf d.len else (s, none)) with
      | (s, some _) => .next ((s.sendOver k).setReg k rd 3)
      | (s, none) => (s.sendRun k o cells ecc).settle s k rd

/-- A halt request that waited for the end of core `k`'s SEND. -/
def State.haltAfterSend (s : State) (k : Nat) : State :=
  if s.stk.haltReq.get k && !s.inSend k && (s.stk.exc.get k).isNone then s.haltNow k 0 else s

/-- SEND (R398): a core whose SEND waits for a larger pool goes on with it. -/
def execSend (k : Fin 4) (rd ra : Fin 32) (cells : List Nat) (ecc : Fin 3) (s : State) : Host.Outcome State Fault Refusal :=
  .next (s.when (s.coreAwake k.val) fun s => (s.instrStep k true true fun s => s.sendBody k rd ra cells ecc).haltAfterSend k)

/-! ### Illegal words (R380) and machine checks (R393, R409 to R412) -/

/-- Which of RD, RA, RB an opcode uses, and the bits of X and IMM that it uses; none for a reserved one. -/
def opcUses (o : Nat) : Option (Bool × Bool × Bool × Nat × Nat) :=
  let all := 2 ^ 32 - 1
  if o = 0x00 then some (false, false, false, 0, 0)
  else if 0x01 ≤ o ∧ o ≤ 0x0B then some (true, true, true, 0, 0)
  else if 0x10 ≤ o ∧ o ≤ 0x13 then some (true, true, false, 0, all)
  else if o = 0x14 ∨ o = 0x15 then some (true, true, false, 0, 63)
  else if o = 0x16 ∨ o = 0x17 then some (true, false, false, 0, all)
  else if 0x20 ≤ o ∧ o ≤ 0x25 then some (false, true, true, 0, all)
  else if o = 0x26 then some (true, false, false, 0, all)
  else if o = 0x27 ∨ o = 0x30 ∨ o = 0x32 ∨ o = 0x34 then some (true, true, false, 0, all)
  else if o = 0x31 ∨ o = 0x33 ∨ o = 0x35 then some (false, true, true, 0, all)
  else if o = 0x36 ∨ o = 0x50 then some (true, true, true, 0, 0)
  else if o = 0x40 then some (true, false, false, 0, 0)
  else if o = 0x41 then some (false, true, false, 0, 0)
  else if o = 0x48 then some (false, false, false, 0, all)
  else if 0x49 ≤ o ∧ o ≤ 0x4B then some (false, false, false, 0, 0)
  else if o = 0x4C ∨ o = 0x4D then some (true, false, false, 1, all - 2 ^ 15)
  else if o = 0x51 ∨ o = 0x56 then some (true, true, false, 0, 0)
  else if o = 0x52 then some (true, true, true, 511, 0)
  else if o = 0x53 then some (true, true, false, 0, 0xFFFF073F)
  else if o = 0x54 ∨ o = 0x55 then some (true, false, false, 0, 63)
  else if o = 0x57 then some (true, false, false, 1, 0)
  else if o = 0x58 then some (true, true, true, 1, 0)
  else none

/-- Is a word illegal: a reserved OPC, or a field that the opcode does not use is not 0. -/
def illegalWord (w : BitVec 64) : Bool :=
  match opcUses (opcOf w) with
  | none => true
  | some (d, a, b, x, i) =>
    (!d && rdOf w != 0) || (!a && raOf w != 0) || (!b && rbOf w != 0) || (xOf w &&& x) != xOf w || (immOf w &&& i) != immOf w ||
    (opcOf w == 0x40 && (rdOf w % 2 == 1 || rdOf w == 0))

/-- ILLEGAL_OPCODE (R380): cause 1; a legal word is no such event. -/
def execIllegalOpcode (k : Fin 4) (w : BitVec 64) (s : State) : Host.Outcome State Fault Refusal :=
  .next (s.when (s.coreRuns k.val && illegalWord w) fun s => (s.microRun k).except k.val 1 0)

/-- Register `r` of core `k` by number. -/
def State.regN (s : State) (k : Fin 4) (r : Nat) : Nat := (s.reg k (Fin.ofNat 32 r)).toNat

/-- The effects that an aborted long instruction completed, and how many they are (R393): bytes of BMOV, entries of TBW, rows of TSCAN, 1
for a SEND whose frame was enqueued. -/
def State.partDone (s : State) (k : Fin 4) (w : BitVec 64) (done : Nat) (cells : List Nat) : State × Nat :=
  let a := s.regN k (raOf w)
  let b := s.regN k (rbOf w)
  let d := s.regN k (rdOf w)
  let long : Bool := !illegalWord w && !s.user k.val
  if long && opcOf w == 0x36 then
    let n := min (done / 8 * 8) (min d 16384)
    if a % 8 = 0 ∧ b % 8 = 0 ∧ d % 8 = 0 ∧ a + min d 16384 ≤ 2 ^ 24 ∧ b + min d 16384 ≤ 2 ^ 24 then (s.bmovBytes a b n, n) else (s, 0)
  else if long && opcOf w == 0x50 then
    if 1 ≤ b ∧ b ≤ 256 ∧ a % 64 = 0 ∧ a + 64 * b ≤ 2 ^ 24 then let r := s.tbwRun a 0 (min done b); (r.1, r.2.2) else (s, 0)
  else if long && opcOf w == 0x51 then (s, min done 2048)
  else if long && opcOf w == 0x56 && done == 1 && a % 32 == 0 && a + 32 ≤ 2 ^ 24 then
    match s.sendRun k a cells 0 with
    | .ended t 0 => (t, 1)
    | _ => (s, 0)
  else (s, 0)

/-- The word that failed goes into UC_ERR (R410, R412). -/
def State.ucError (s : State) (k kind store addr : Nat) (lost : Bool) : State :=
  let s := ((s.setF UC_ERR_STORE store).setF UC_ERR_CORE k).setF UC_ERR_KIND kind
  (s.setF UC_ERR_EXC_LOST lost.toNat).setF UC_ERR_ADDR addr

/-- An armed control-store injection on this word is used up (R474). -/
def State.ucArm (s : State) (store addr : Nat) : State :=
  match s.flt.arm with
  | some a => if (a.target = 2 ∧ store < 2 ∨ a.target = 3 ∧ 2 ≤ store) ∧ a.index = addr then { s with flt := { s.flt with arm := none } } else s
  | none => s

/-- The saving of a machine check (R393) with the resume address `pc`; the sequencer goes to 0x0010 (R407). -/
def State.enterMc (s : State) (k pc done : Nat) : State :=
  let s := s.seqEnter k 0x0010
  let s := (s.setF STK_MC_DONE_COUNT done k).setF STK_MC_RESUME_ADDR pc k
  let s := (s.setF STK_STAT_MC_PRIV (s.f STK_STAT_PRIV k) k).setF STK_STAT_MC_IEN (s.f STK_STAT_IEN k) k
  let s := ((s.setF STK_STAT_MC_ACTIVE 1 k).setF STK_STAT_PRIV 1 k).setF STK_STAT_IEN 0 k
  (s.setF STK_PC_ADDR (s.f STK_MCVEC_ADDR k) k).raise 9 2 1

/-- A machine check of a running core: the entry of a pending exception is lost with it (R411), and one in a machine-check handler halts
the core. -/
def State.machineCheck (s : State) (k : Fin 4) (w : BitVec 64) (done : Nat) (cells : List Nat) : State :=
  if s.on STK_STAT_MC_ACTIVE k then (State.haltNow { s with stk := { s.stk with exc := s.stk.exc.set k none } } k 2).raise 9 2 3
  else
    match s.stk.exc.get k with
    | some e => State.enterMc { s with stk := { s.stk with exc := s.stk.exc.set k none } } k (s.excReturn k e) 0
    | none =>
      if s.stk.waiting.get k then
        State.enterMc { s with stk := { s.stk with waiting := s.stk.waiting.set k false } } k ((s.pc k + 2 ^ 32 - 8) % 2 ^ 32) 0
      else
        let r := s.partDone k w done cells
        r.1.enterMc k (s.pc k) r.2

/-- A trap register's parity fails (R412): it is recorded, and its stored parity no longer checks. -/
def State.trapParity (s : State) (k addr : Nat) : State :=
  let n := addr % 64
  let t := (s.rget UC_TRAP n).toNat
  let s := if parityBit 32 t = 0 then s.rset UC_TRAP (BitVec.ofNat 32 (t ^^^ 2 ^ 30)) n else s
  ((s.ucError k 4 0 n false).count C_UC_PAR_ERR).raise 9 1 2

/-- MACHINE_CHECK (R393, R409 to R412): kinds 0 to 3 stop the instruction `w` of core `k`, and a halt request that waited is taken after the entry;
kind 4 is a trap register's parity. -/
def execMachineCheck (k : Fin 4) (kind : Fin 16) (store : Fin 4) (addr : BitVec 15) (w : BitVec 64) (done : Nat) (cells : List Nat)
    (s : State) : Host.Outcome State Fault Refusal :=
  .next (if kind.val = 4 then s.trapParity k addr.toNat
    else s.when (kind.val < 4 && !s.on STK_STAT_HALTED k) fun s =>
      let lost := (s.stk.exc.get k).isSome
      let s := s.ucError k kind store addr.toNat lost
      let s := if kind.val = 0 then ((s.flag UC_STAT_PAR).count C_UC_PAR_ERR).ucArm store addr.toNat else s
      ((s.machineCheck k w done cells).sendOver k).haltAfterSend k)

end Sys2Proof.Machine
end

