-- ==== Sys2Proof/Machine/Dispatch.lean ====
section
/-! DEFINITION. What each command and event does to everything but the queue: one arm per row of the operation table, each a
direct call of that row's meaning. -/

namespace Sys2Proof.Machine

/-- The effect of a command. -/
def exec (i : Instr) (s : State) : Host.Outcome State Fault Refusal :=
  match i with
  | .receiveFrame p ecc => Sys2Proof.Machine.execReceiveFrame p ecc s
  | .frameEndIngress f => Sys2Proof.Machine.execFrameEndIngress f s
  | .frameEnqueue f cells ecc => Sys2Proof.Machine.execFrameEnqueue f cells ecc s
  | .poolFallback f cells ecc => Sys2Proof.Machine.execPoolFallback f cells ecc s
  | .recircPass f ecc => Sys2Proof.Machine.execRecircPass f ecc s
  | .cellWriteGrant st => Sys2Proof.Machine.execCellWriteGrant st s
  | .cellReadGrant st errs => Sys2Proof.Machine.execCellReadGrant st errs s
  | .dequeueDecision p => Sys2Proof.Machine.execDequeueDecision p s
  | .meteredDequeue p => Sys2Proof.Machine.execMeteredDequeue p s
  | .egressPipeline c ecc => Sys2Proof.Machine.execEgressPipeline c ecc s
  | .egressMacStart c cells => Sys2Proof.Machine.execEgressMacStart c cells s
  | .transmitUnderrun c => Sys2Proof.Machine.execTransmitUnderrun c s
  | .frameTxEnd c ecc cells => Sys2Proof.Machine.execFrameTxEnd c ecc cells s
  | .generatedFrameSend p => Sys2Proof.Machine.execGeneratedFrameSend p s
  | .xoffChange p pr => Sys2Proof.Machine.execXoffChange p pr s
  | .fcResend p => Sys2Proof.Machine.execFcResend p s
  | .pauseDecode p => Sys2Proof.Machine.execPauseDecode p s
  | .pfcDecode p => Sys2Proof.Machine.execPfcDecode p s
  | .pauseTimerExpiry p => Sys2Proof.Machine.execPauseTimerExpiry p s
  | .residueAdmit p q => Sys2Proof.Machine.execResidueAdmit p q s
  | .residueExpiry f => Sys2Proof.Machine.execResidueExpiry f s
  | .gateStateChange p => Sys2Proof.Machine.execGateStateChange p s
  | .gateSwapRequest p => Sys2Proof.Machine.execGateSwapRequest p s
  | .gateSwap p => Sys2Proof.Machine.execGateSwap p s
  | .lpiEntry p => Sys2Proof.Machine.execLpiEntry p s
  | .lpiExit p => Sys2Proof.Machine.execLpiExit p s
  | .lpiWakeEnd p => Sys2Proof.Machine.execLpiWakeEnd p s
  | .portUp p => Sys2Proof.Machine.execPortUp p s
  | .flushDone p ecc => Sys2Proof.Machine.execFlushDone p ecc s
  | .localFaultRx p on => Sys2Proof.Machine.execLocalFaultRx p on s
  | .remoteFaultRx p => Sys2Proof.Machine.execRemoteFaultRx p s
  | .remoteFaultTimeout p => Sys2Proof.Machine.execRemoteFaultTimeout p s
  | .repinStart p => Sys2Proof.Machine.execRepinStart p s
  | .repinDone => Sys2Proof.Machine.execRepinDone s
  | .wholeSecondTick => Sys2Proof.Machine.execWholeSecondTick s
  | .macCtWrite p base => Sys2Proof.Machine.execMacCtWrite p base s
  | .refclkLost k => Sys2Proof.Machine.execRefclkLost k s
  | .refclkPresent k => Sys2Proof.Machine.execRefclkPresent k s
  | .pllLock o => Sys2Proof.Machine.execPllLock o s
  | .laneEnable n => Sys2Proof.Machine.execLaneEnable n s
  | .laneDisable n => Sys2Proof.Machine.execLaneDisable n s
  | .laneLoopChange n loop => Sys2Proof.Machine.execLaneLoopChange n loop s
  | .partnerFrameLock n => Sys2Proof.Machine.execPartnerFrameLock n s
  | .trainConverged n => Sys2Proof.Machine.execTrainConverged n s
  | .partnerReady n => Sys2Proof.Machine.execPartnerReady n s
  | .portAligned p skews => Sys2Proof.Machine.execPortAligned p skews s
  | .trainingSignalLoss n => Sys2Proof.Machine.execTrainingSignalLoss n s
  | .trainTmoExpiry n => Sys2Proof.Machine.execTrainTmoExpiry n s
  | .backoffEnd n => Sys2Proof.Machine.execBackoffEnd n s
  | .backoffSignalPresent n => Sys2Proof.Machine.execBackoffSignalPresent n s
  | .laneFailure n cause fec => Sys2Proof.Machine.execLaneFailure n cause fec s
  | .markerReceived n good m pairs fec => Sys2Proof.Machine.execMarkerReceived n good m pairs fec s
  | .adaptationFreeze n => Sys2Proof.Machine.execAdaptationFreeze n s
  | .adaptationResume n => Sys2Proof.Machine.execAdaptationResume n s
  | .emberEntry n => Sys2Proof.Machine.execEmberEntry n s
  | .rxEmberEntry n => Sys2Proof.Machine.execRxEmberEntry n s
  | .emberRefresh n => Sys2Proof.Machine.execEmberRefresh n s
  | .emberRefreshMiss n => Sys2Proof.Machine.execEmberRefreshMiss n s
  | .emberExit n => Sys2Proof.Machine.execEmberExit n s
  | .prbsEnable n gen chk pattern => Sys2Proof.Machine.execPrbsEnable n gen chk pattern s
  | .insertErr n => Sys2Proof.Machine.execInsertErr n s
  | .prbsCheckerLock n bits => Sys2Proof.Machine.execPrbsCheckerLock n bits s
  | .prbsLockLost n bits => Sys2Proof.Machine.execPrbsLockLost n bits s
  | .laneAuxCfgWrite a rate => Sys2Proof.Machine.execLaneAuxCfgWrite a rate s
  | .laneCntClr n => Sys2Proof.Machine.execLaneCntClr n s
  | .counterLoRead m a => Sys2Proof.Machine.execCounterLoRead m a s
  | .auxSleep a => Sys2Proof.Machine.execAuxSleep a s
  | .auxWakePattern a => Sys2Proof.Machine.execAuxWakePattern a s
  | .macCntClr p => Sys2Proof.Machine.execMacCntClr p s
  | .trunkFrameRx n bytes gap => Sys2Proof.Machine.execTrunkFrameRx n bytes gap s
  | .trunkFrameTx sl g td => Sys2Proof.Machine.execTrunkFrameTx sl g td s
  | .deskewRelease sl g => Sys2Proof.Machine.execDeskewRelease sl g s
  | .flueRxRead k => Sys2Proof.Machine.execFlueRxRead k s
  | .flueTxWrite k b => Sys2Proof.Machine.execFlueTxWrite k b s
  | .trkMemCntClr n => Sys2Proof.Machine.execTrkMemCntClr n s
  | .prsProgDataAccess sl wr v => Sys2Proof.Machine.execPrsProgDataAccess sl wr v s
  | .prsCntClr sl => Sys2Proof.Machine.execPrsCntClr sl s
  | .tableSramWrite sl bcast g => Sys2Proof.Machine.execTableSramWrite sl bcast g s
  | .tableSramRead sl g => Sys2Proof.Machine.execTableSramRead sl g s
  | .ternaryWrite sl bcast g => Sys2Proof.Machine.execTernaryWrite sl bcast g s
  | .ternaryRead sl g => Sys2Proof.Machine.execTernaryRead sl g s
  | .keymapWrite sl bcast g => Sys2Proof.Machine.execKeymapWrite sl bcast g s
  | .keymapRead sl g => Sys2Proof.Machine.execKeymapRead sl g s
  | .tableAccessDone sl action => Sys2Proof.Machine.execTableAccessDone sl action s
  | .stgCntClr sl => Sys2Proof.Machine.execStgCntClr sl s
  | .actBundleWrite sl bcast g => Sys2Proof.Machine.execActBundleWrite sl bcast g s
  | .actBundleRead sl g active => Sys2Proof.Machine.execActBundleRead sl g active s
  | .actCounterRead sl g => Sys2Proof.Machine.execActCounterRead sl g s
  | .actCounterClear sl bcast g => Sys2Proof.Machine.execActCounterClear sl bcast g s
  | .actMeterCfgWrite sl bcast g => Sys2Proof.Machine.execActMeterCfgWrite sl bcast g s
  | .actMeterCfgRead sl g => Sys2Proof.Machine.execActMeterCfgRead sl g s
  | .actMeterTokensRead sl g => Sys2Proof.Machine.execActMeterTokensRead sl g s
  | .actMeterTokensWrite sl bcast g => Sys2Proof.Machine.execActMeterTokensWrite sl bcast g s
  | .actDropReasonRead sl => Sys2Proof.Machine.execActDropReasonRead sl s
  | .actDropReasonClear sl bcast => Sys2Proof.Machine.execActDropReasonClear sl bcast s
  | .stgActCntClr sl => Sys2Proof.Machine.execStgActCntClr sl s
  | .commitRequest src now anynum => Sys2Proof.Machine.execCommitRequest src now anynum s
  | .commitCancel => Sys2Proof.Machine.execCommitCancel s
  | .checkComplete => Sys2Proof.Machine.execCheckComplete s
  | .commitTakeEffect => Sys2Proof.Machine.execCommitTakeEffect s
  | .commitMissed => Sys2Proof.Machine.execCommitMissed s
  | .staleSweep => Sys2Proof.Machine.execStaleSweep s
  | .retireSyncStart => Sys2Proof.Machine.execRetireSyncStart s
  | .syncComplete => Sys2Proof.Machine.execSyncComplete s
  | .genCntClr => Sys2Proof.Machine.execGenCntClr s
  | .drainFlush => Sys2Proof.Machine.execDrainFlush s
  | .drainEnd => Sys2Proof.Machine.execDrainEnd s
  | .chipModeClkWrite v => Sys2Proof.Machine.execChipModeClkWrite v s
  | .clockRequestApply => Sys2Proof.Machine.execClockRequestApply s
  | .chipMeterClr => Sys2Proof.Machine.execChipMeterClr s
  | .chipModeClr => Sys2Proof.Machine.execChipModeClr s
  | .carve => Sys2Proof.Machine.execCarve s
  | .carvingComplete => Sys2Proof.Machine.execCarvingComplete s
  | .rebuild => Sys2Proof.Machine.execRebuild s
  | .rebuildComplete => Sys2Proof.Machine.execRebuildComplete s
  | .bufCntClr => Sys2Proof.Machine.execBufCntClr s
  | .poolCntClr => Sys2Proof.Machine.execPoolCntClr s
  | .mcGroupWrite grp => Sys2Proof.Machine.execMcGroupWrite grp s
  | .mcGroupRead grp active => Sys2Proof.Machine.execMcGroupRead grp active s
  | .tmPortClr p => Sys2Proof.Machine.execTmPortClr p s
  | .tmChipClr => Sys2Proof.Machine.execTmChipClr s
  | .ntSnapshotRead => Sys2Proof.Machine.execNtSnapshotRead s
  | .sample pdValid => Sys2Proof.Machine.execSample pdValid s
  | .sampleProcess => Sys2Proof.Machine.execSampleProcess s
  | .set => Sys2Proof.Machine.execSet s
  | .run => Sys2Proof.Machine.execRun s
  | .hold => Sys2Proof.Machine.execHold s
  | .free => Sys2Proof.Machine.execFree s
  | .requal => Sys2Proof.Machine.execRequal s
  | .jumpOvr => Sys2Proof.Machine.execJumpOvr s
  | .ppsEdge rise sub => Sys2Proof.Machine.execPpsEdge rise sub s
  | .sampleTimeout => Sys2Proof.Machine.execSampleTimeout s
  | .holdMaxExpiry => Sys2Proof.Machine.execHoldMaxExpiry s
  | .tsqPop q => Sys2Proof.Machine.execTsqPop q s
  | .toutArm n => Sys2Proof.Machine.execToutArm n s
  | .toutStop n => Sys2Proof.Machine.execToutStop n s
  | .toutEdge n => Sys2Proof.Machine.execToutEdge n s
  | .tinEdge n rise sub => Sys2Proof.Machine.execTinEdge n rise sub s
  | .tinEventRead n => Sys2Proof.Machine.execTinEventRead n s
  | .tinLostClr n => Sys2Proof.Machine.execTinLostClr n s
  | .timeCntClr => Sys2Proof.Machine.execTimeCntClr s
  | .timeTsqClr q => Sys2Proof.Machine.execTimeTsqClr q s
  | .hobContrib eng cells => Sys2Proof.Machine.execHobContrib eng cells s
  | .hobResult eng cells => Sys2Proof.Machine.execHobResult eng cells s
  | .hobAck eng cells => Sys2Proof.Machine.execHobAck eng cells s
  | .hobAbortFrame eng cells => Sys2Proof.Machine.execHobAbortFrame eng cells s
  | .hobLd eng ctx => Sys2Proof.Machine.execHobLd eng ctx s
  | .hobCmb2 eng ctx => Sys2Proof.Machine.execHobCmb2 eng ctx s
  | .hobCmba eng ctx => Sys2Proof.Machine.execHobCmba eng ctx s
  | .hobCvt eng ctx => Sys2Proof.Machine.execHobCvt eng ctx s
  | .hobBsq eng ctx => Sys2Proof.Machine.execHobBsq eng ctx s
  | .hobBsxt eng ctx => Sys2Proof.Machine.execHobBsxt eng ctx s
  | .stepBoundary ctx cells => Sys2Proof.Machine.execStepBoundary ctx cells s
  | .contribResend ctx cells => Sys2Proof.Machine.execContribResend ctx cells s
  | .stepDeadline ctx cells => Sys2Proof.Machine.execStepDeadline ctx cells s
  | .hobPoolRetry ctx cells ecc => Sys2Proof.Machine.execHobPoolRetry ctx cells ecc s
  | .hobCtxRead ctx => Sys2Proof.Machine.execHobCtxRead ctx s
  | .hobCtxWrite ctx => Sys2Proof.Machine.execHobCtxWrite ctx s
  | .activate ctx => Sys2Proof.Machine.execActivate ctx s
  | .hobCtxAbort ctx => Sys2Proof.Machine.execHobCtxAbort ctx s
  | .hobCtxFree ctx => Sys2Proof.Machine.execHobCtxFree ctx s
  | .nbrRead idx => Sys2Proof.Machine.execNbrRead idx s
  | .nbrWrite idx => Sys2Proof.Machine.execNbrWrite idx s
  | .hobCtxInvalidCmd idx => Sys2Proof.Machine.execHobCtxInvalidCmd idx s
  | .hobCtxAccessDone cells => Sys2Proof.Machine.execHobCtxAccessDone cells s
  | .hobCntClr => Sys2Proof.Machine.execHobCntClr s
  | .powerEpoch => Sys2Proof.Machine.execPowerEpoch s
  | .powerMeasurement total hob valid => Sys2Proof.Machine.execPowerMeasurement total hob valid s
  | .vgoodReport => Sys2Proof.Machine.execVgoodReport s
  | .bellowsAbandon => Sys2Proof.Machine.execBellowsAbandon s
  | .damperDeferEnd e => Sys2Proof.Machine.execDamperDeferEnd e s
  | .hintSubmit v => Sys2Proof.Machine.execHintSubmit v s
  | .hintDue => Sys2Proof.Machine.execHintDue s
  | .relearn ph => Sys2Proof.Machine.execRelearn ph s
  | .thermalReading temps => Sys2Proof.Machine.execThermalReading temps s
  | .pwrEnergyRead => Sys2Proof.Machine.execPwrEnergyRead s
  | .pwrCntClr => Sys2Proof.Machine.execPwrCntClr s
  | .helloSend p => Sys2Proof.Machine.execHelloSend p s
  | .helloReceive p => Sys2Proof.Machine.execHelloReceive p s
  | .helloSilence p => Sys2Proof.Machine.execHelloSilence p s
  | .domPortClr p => Sys2Proof.Machine.execDomPortClr p s
  | .telemetryEpoch cells => Sys2Proof.Machine.execTelemetryEpoch cells s
  | .tlmCntClr => Sys2Proof.Machine.execTlmCntClr s
  | .pmcCount => Sys2Proof.Machine.execPmcCount s
  | .pmcCarry => Sys2Proof.Machine.execPmcCarry s
  | .pmcCfgWrite idx v => Sys2Proof.Machine.execPmcCfgWrite idx v s
  | .pmcClr w v => Sys2Proof.Machine.execPmcClr w v s
  | .freeze on => Sys2Proof.Machine.execFreeze on s
  | .pmcLoRead idx => Sys2Proof.Machine.execPmcLoRead idx s
  | .nop k => Sys2Proof.Machine.execNop k s
  | .add k rd ra rb => Sys2Proof.Machine.execAdd k rd ra rb s
  | .sub k rd ra rb => Sys2Proof.Machine.execSub k rd ra rb s
  | .stkAnd k rd ra rb => Sys2Proof.Machine.execStkAnd k rd ra rb s
  | .stkOr k rd ra rb => Sys2Proof.Machine.execStkOr k rd ra rb s
  | .stkXor k rd ra rb => Sys2Proof.Machine.execStkXor k rd ra rb s
  | .shl k rd ra rb => Sys2Proof.Machine.execShl k rd ra rb s
  | .shr k rd ra rb => Sys2Proof.Machine.execShr k rd ra rb s
  | .sra k rd ra rb => Sys2Proof.Machine.execSra k rd ra rb s
  | .mul k rd ra rb => Sys2Proof.Machine.execMul k rd ra rb s
  | .slt k rd ra rb => Sys2Proof.Machine.execSlt k rd ra rb s
  | .sltu k rd ra rb => Sys2Proof.Machine.execSltu k rd ra rb s
  | .addi k rd ra imm => Sys2Proof.Machine.execAddi k rd ra imm s
  | .andi k rd ra imm => Sys2Proof.Machine.execAndi k rd ra imm s
  | .ori k rd ra imm => Sys2Proof.Machine.execOri k rd ra imm s
  | .xori k rd ra imm => Sys2Proof.Machine.execXori k rd ra imm s
  | .shli k rd ra imm => Sys2Proof.Machine.execShli k rd ra imm s
  | .shri k rd ra imm => Sys2Proof.Machine.execShri k rd ra imm s
  | .li k rd imm => Sys2Proof.Machine.execLi k rd imm s
  | .lih k rd imm => Sys2Proof.Machine.execLih k rd imm s
  | .beq k ra rb imm => Sys2Proof.Machine.execBeq k ra rb imm s
  | .bne k ra rb imm => Sys2Proof.Machine.execBne k ra rb imm s
  | .blt k ra rb imm => Sys2Proof.Machine.execBlt k ra rb imm s
  | .bge k ra rb imm => Sys2Proof.Machine.execBge k ra rb imm s
  | .bltu k ra rb imm => Sys2Proof.Machine.execBltu k ra rb imm s
  | .bgeu k ra rb imm => Sys2Proof.Machine.execBgeu k ra rb imm s
  | .jal k rd imm => Sys2Proof.Machine.execJal k rd imm s
  | .jalr k rd ra imm => Sys2Proof.Machine.execJalr k rd ra imm s
  | .ld k rd ra imm => Sys2Proof.Machine.execLd k rd ra imm s
  | .ldw k rd ra imm => Sys2Proof.Machine.execLdw k rd ra imm s
  | .st k rb ra imm => Sys2Proof.Machine.execSt k rb ra imm s
  | .stw k rb ra imm => Sys2Proof.Machine.execStw k rb ra imm s
  | .csrr k rd ra imm => Sys2Proof.Machine.execCsrr k rd ra imm s
  | .csrw k ra rb imm => Sys2Proof.Machine.execCsrw k ra rb imm s
  | .bmov k rd ra rb => Sys2Proof.Machine.execBmov k rd ra rb s
  | .rdnt k rd => Sys2Proof.Machine.execRdnt k rd s
  | .waitt k ra => Sys2Proof.Machine.execWaitt k ra s
  | .sysc k imm => Sys2Proof.Machine.execSysc k imm s
  | .brk k => Sys2Proof.Machine.execBrk k s
  | .reti k => Sys2Proof.Machine.execReti k s
  | .waiti k => Sys2Proof.Machine.execWaiti k s
  | .hosti k rd ring imm => Sys2Proof.Machine.execHosti k rd ring imm s
  | .hostis k rd ring imm => Sys2Proof.Machine.execHostis k rd ring imm s
  | .tbw k rd ra rb => Sys2Proof.Machine.execTbw k rd ra rb s
  | .tscan k rd ra => Sys2Proof.Machine.execTscan k rd ra s
  | .cmt k rd ra rb x => Sys2Proof.Machine.execCmt k rd ra rb x s
  | .phase k rd ra imm => Sys2Proof.Machine.execPhase k rd ra imm s
  | .semts k rd imm => Sys2Proof.Machine.execSemts k rd imm s
  | .semrel k rd imm => Sys2Proof.Machine.execSemrel k rd imm s
  | .send k rd ra cells ecc => Sys2Proof.Machine.execSend k rd ra cells ecc s
  | .crnext k rd ring => Sys2Proof.Machine.execCrnext k rd ring s
  | .crdone k rd ra rb ring => Sys2Proof.Machine.execCrdone k rd ra rb ring s
  | .illegalOpcode k w => Sys2Proof.Machine.execIllegalOpcode k w s
  | .exceptionEntry k => Sys2Proof.Machine.execExceptionEntry k s
  | .interruptEntry k => Sys2Proof.Machine.execInterruptEntry k s
  | .machineCheck k kind store addr w done cells => Sys2Proof.Machine.execMachineCheck k kind store addr w done cells s
  | .coreHalt k => Sys2Proof.Machine.execCoreHalt k s
  | .coreRun k => Sys2Proof.Machine.execCoreRun k s
  | .swi => Sys2Proof.Machine.execSwi s
  | .commandRingTailWrite ring idx => Sys2Proof.Machine.execCommandRingTailWrite ring idx s
  | .ringCfgWrite ring v => Sys2Proof.Machine.execRingCfgWrite ring v s
  | .rxRingWrite ring ecc => Sys2Proof.Machine.execRxRingWrite ring ecc s
  | .stkCntClr => Sys2Proof.Machine.execStkCntClr s
  | .loadGo => Sys2Proof.Machine.execLoadGo s
  | .patchLoadDone => Sys2Proof.Machine.execPatchLoadDone s
  | .trapOn => Sys2Proof.Machine.execTrapOn s
  | .lock => Sys2Proof.Machine.execLock s
  | .ucPdataRead => Sys2Proof.Machine.execUcPdataRead s
  | .ucCntClr => Sys2Proof.Machine.execUcCntClr s
  | .ringBlockLock ring => Sys2Proof.Machine.execRingBlockLock ring s
  | .ringInputUp ring => Sys2Proof.Machine.execRingInputUp ring s
  | .ringInputDown ring => Sys2Proof.Machine.execRingInputDown ring s
  | .brkBlockRx ring a => Sys2Proof.Machine.execBrkBlockRx ring a s
  | .read ring ws => Sys2Proof.Machine.execRead ring ws s
  | .write ring ws => Sys2Proof.Machine.execWrite ring ws s
  | .tas ring ws => Sys2Proof.Machine.execTas ring ws s
  | .rel ring ws => Sys2Proof.Machine.execRel ring ws s
  | .collect ring ws => Sys2Proof.Machine.execCollect ring ws s
  | .enum ring ws => Sys2Proof.Machine.execEnum ring ws s
  | .badop ring ws => Sys2Proof.Machine.execBadop ring ws s
  | .joringFrameRelay ring ws malformed => Sys2Proof.Machine.execJoringFrameRelay ring ws malformed s
  | .writeQueueDrain ring => Sys2Proof.Machine.execWriteQueueDrain ring s
  | .bufMemStageFetch ring errs => Sys2Proof.Machine.execBufMemStageFetch ring errs s
  | .semRingTimeout ring => Sys2Proof.Machine.execSemRingTimeout ring s
  | .jorSemFree n => Sys2Proof.Machine.execJorSemFree n s
  | .jorMsgAck ring mseq => Sys2Proof.Machine.execJorMsgAck ring mseq s
  | .jorCntClr ring => Sys2Proof.Machine.execJorCntClr ring s
  | .powerOnReset testEn => Sys2Proof.Machine.execPowerOnReset testEn s
  | .systemReset => Sys2Proof.Machine.execSystemReset s
  | .softwareReset => Sys2Proof.Machine.execSoftwareReset s
  | .watchdogReset => Sys2Proof.Machine.execWatchdogReset s
  | .hardwareInitialisation => Sys2Proof.Machine.execHardwareInitialisation s
  | .bootRomStart => Sys2Proof.Machine.execBootRomStart s
  | .wdogKick => Sys2Proof.Machine.execWdogKick s
  | .hostload => Sys2Proof.Machine.execHostload s
  | .flashRead => Sys2Proof.Machine.execFlashRead s
  | .flashProgram => Sys2Proof.Machine.execFlashProgram s
  | .flashErase => Sys2Proof.Machine.execFlashErase s
  | .flashTransferDone timeout => Sys2Proof.Machine.execFlashTransferDone timeout s
  | .faultRecord c => Sys2Proof.Machine.execFaultRecord c s
  | .safeStateCommand => Sys2Proof.Machine.execSafeStateCommand s
  | .safeEnter => Sys2Proof.Machine.execSafeEnter s
  | .safeExit => Sys2Proof.Machine.execSafeExit s
  | .ack c => Sys2Proof.Machine.execAck c s
  | .faultInject v => Sys2Proof.Machine.execFaultInject v s
  | .memInjectArm v => Sys2Proof.Machine.execMemInjectArm v s
  | .fltCntClr => Sys2Proof.Machine.execFltCntClr s
  | .registerWrite m a v => Sys2Proof.Machine.execRegisterWrite m a v s
  | .startBlockReady p bytes => Sys2Proof.Machine.execStartBlockReady p bytes s
  | .rxEmberExit n => Sys2Proof.Machine.execRxEmberExit n s
  | .remoteFaultClear p => Sys2Proof.Machine.execRemoteFaultClear p s
  | .hobVgoodLoss => Sys2Proof.Machine.execHobVgoodLoss s
  | .jtagInstruction ir dr => Sys2Proof.Machine.execJtagInstruction ir dr s

end Sys2Proof.Machine
end

