-- ==== Sys2Proof/Machine/Tick.lean ====
section
/-! DEFINITION. The clock: what passes with one cycle of CCLK whatever is commanded (R20, R22, R93, R217, R227, R228, R269, R367, R468). -/

namespace Sys2Proof.Machine

/-- Telemetry and the performance counters take this cc, and the domain's compared fields are looked at, before the cc ends. -/
def State.endCounts (s : State) : State := s.viewSync.tlmTick.pmcTick

/-- What the cc has let go of takes effect at its end: charges (R246), releases (R231), and the frames that wrote to blocks now free. -/
def State.endLetting (s : State) : State :=
  let s := s.settleCharges.applyReleases
  s.fwd.frames.foldl (fun s e => s.letFrame e.1) s

/-- What holds for one cc only ends with it: flags set and cleared (R468), counts (R93), header slots and stripes taken (R40, R136, R139, R217),
judgements of the traffic manager (R250 to R252, R264), blocks released (R228), and faults raised. -/
def State.endCycle (s : State) : State :=
  let freed := s.fwd.freed
  let s := { s with
    hwSet := [], swClr := [], cntNew := []
    tab := { s.tab with countsNew := [], dropsNew := [], undo := [], undoTern := [] }
    fwd := { s.fwd with slotUsed := [], returnUsed := [], stripeW := [], stripeR := [], granted := 0, freed := [] }
    tm := { s.tm with judged := [], admitted := [], expired := [], flushGone := [], heldEmpty := s.draining && s.heldAreEmpty }
    flt := { s.flt with raised := [], oldReact := [] } }
  s.settleFreed freed

/-- NT after one more cc (R269): the increment, and a servo step that lands (R271, R283). -/
def State.advanceNt (s : State) : State :=
  let s := { s with nt := (s.nt + s.ntInc) % ntWrap }
  match s.time.jump with
  | none => s.noteEpoch
  | some d => State.applyJump { s with time := { s.time with jump := none } } (((s.nt : Int) + d) % (ntWrap : Int)).toNat

/-- The end of a cc for the access ports (R157, R267): those whose access has landed in it are free, and an access of the multicast port lands
four cc after its GO. -/
def State.endAccess (s : State) : State :=
  let s := s.tab.acc.foldl (fun s e => s.tblFree e.1) s
  let s := s.tab.actAcc.foldl (fun s e => s.actFree e.1) s
  s.when (s.accessDue (s.on TM_MC_STAT_BUSY) s.tab.mcAcc) State.mcDone

/-- The MACs take a cc: lines whose end has become known, generated frames that have left, and idle time towards LPI (R38, R105, R110). -/
def State.portsTick (s : State) : State :=
  let s := s.linesTick
  let s := s.mac.foldl (fun s e => s.genDone e.1) s
  s.lpiPorts.foldl State.lpiTrack s

/-- What a new cc brings: bytes across the ingress MAC planes (R27), cells to their readers (R41), and reads that the egress MACs ask for. -/
def State.dataTick (s : State) : State :=
  let s := s.framesTick.arrivals
  s.fwd.copies.foldl (fun s e => s.askMore e.1) s

/-- One cycle of CCLK. -/
def State.tick (s : State) : State :=
  let s := s.portsTick.endAccess.endCounts.endLetting.endCycle
  let s := { s with cc := s.cc + 1, hob := { s.hob with hc := s.hob.hc + 12 + s.point } }
  s.advanceNt.dataTick.noteLive

end Sys2Proof.Machine
end

