-- ==== Sys2Proof/Machine/Step.lean ====
section
/-! DEFINITION. One step of the machine: the command at the front of the queue, or, when none waits, one cycle of the clock. -/

namespace Sys2Proof.Machine

/-- The state with the front command taken off the queue. -/
def State.pop (s : State) : State := { s with pending := s.pending.tail }

/-- One step: take the command at the front of the queue and run it on the state that holds the queue's rest; on an empty queue
one cycle of CCLK passes. -/
def step (s : State) : Host.Outcome State Fault Refusal :=
  match s.pending with
  | [] => .next s.tick
  | c :: _ => exec c s.pop

/-- The state with the command that a word spells put at the front of its queue; unchanged where the word spells none. -/
def State.withFetchWord (s : State) (nbits w : Nat) : State :=
  match Sys2Proof.decodeTableWord nbits w with
  | some c => { s with pending := c :: s.pending }
  | none => s

end Sys2Proof.Machine
end

