-- ==== Sys2Proof/Safety.lean ====
section
/-! DEFINITION. The vocabulary of the claims: states reached by steps that answer a next state, properties that every step keeps, what it
is for a command to complete, and what a command leaves alone. -/

namespace Sys2Proof.Machine

/-- `t` is reached from `s` by steps that each answered a next state. -/
inductive Reaches : State → State → Prop where
  | refl (s : State) : Reaches s s
  | step {s t u : State} : Reaches s t → Host.Outcome.next u = step t → Reaches s u

/-- A property of states that every step keeps. -/
def Kept (P : State → Prop) : Prop := ∀ s t : State, P s → step s = .next t → P t

/-- What every step keeps (`Kept`): memory, registers and counters in canonical form, every 48-bit counter within its width (R93), and NT
within the range of its 48-bit seconds (R269). -/
def State.Sound (s : State) : Prop :=
  s.mem.wf = true ∧ s.csr.wf = true ∧ s.cnt.wf = true ∧ (∀ e ∈ s.cnt, e.2 < 2 ^ 48) ∧ s.nt < ntWrap

/-- Command `c` on state `s` answers a next state, and that state is as `Q` says. -/
def Completes (c : Instr) (s : State) (Q : State → Prop) : Prop := ∃ t, exec c s = .next t ∧ Q t

/-- The chip address of a field's register. -/
def Fld.at (x : Fld) (i : Nat := 0) (j : Nat := 0) (k : Nat := 0) : Nat := x.reg.addr i j k

/-- The registers outside the listed chip addresses are as they were. -/
def RegsBut (as : List Nat) (s t : State) : Prop := ∀ a, a ∉ as → t.csr.get a = s.csr.get a

/-- The 48-bit counters outside the listed chip addresses are as they were. -/
def CountersBut (as : List Nat) (s t : State) : Prop := ∀ a, a ∉ as → t.cnt.get a = s.cnt.get a

/-- `t` is `s` but for the registers at the chip addresses `as`, the 48-bit counters whose _LO registers lie at `cs`, what these have counted in
this cc, and the marks of the flags that hardware set in this cc. -/
def Only (as cs : List Nat) (s t : State) : Prop :=
  t = { s with csr := t.csr, hwSet := t.hwSet, cnt := t.cnt, cntNew := t.cntNew } ∧ RegsBut as s t ∧ CountersBut cs s t ∧
  ∀ a, a ∉ as → a ∉ cs → t.cntNew.get a = s.cntNew.get a

/-- A fault has been detected: class, raised level, cause code and INFO, with the reactions in force, wait for FAULT_RECORD. -/
def FaultRaised (s t : State) (cls level code info : Nat) : Prop :=
  t.flt = { s.flt with
    pend := s.flt.pend ++ [{ cls := cls, level := level, code := code, info := info, inj := false, react := s.reactWord cls, cc := s.cc }],
    raised := cls :: s.flt.raised }

/-- What an instruction of core `k` that writes the registers `rds` leaves alone: everything but PC and the sequencer of that core, those
registers, and the events that wait to be counted. -/
def CoreStep (k : Fin 4) (rds : List (Fin 32)) (s t : State) : Prop :=
  t = { s with
    csr := t.csr
    pmc := { s.pmc with events := t.pmc.events }
    stk := { s.stk with regs := t.stk.regs }
    uc := { s.uc with seq := t.uc.seq } } ∧
  RegsBut [STK_PC_ADDR.at k] s t ∧ (∀ k' r, ¬ (k' = k ∧ r ∈ rds) → t.reg k' r = s.reg k' r) ∧
  ∀ c, c ≠ k.val → t.uc.seq.get c = s.uc.seq.get c

/-- PC of core `k` has moved to the next word. -/
def PcNext (k : Fin 4) (s t : State) : Prop := t.pc k = (s.pc k + 8) % 2 ^ 32

/-- An instruction of core `k` completes, writes `v` to RD (r0 stays 0), moves PC to the next word, and changes nothing else. -/
def WritesRd (s : State) (k : Fin 4) (rd : Fin 32) (c : Instr) (v : BitVec 64) : Prop :=
  Completes c s fun t => t.reg k rd = (if rd = 0 then 0 else v) ∧ PcNext k s t ∧ CoreStep k [rd] s t

/-- An instruction of core `k` leaves an exception pending, and changes nothing else but the core's sequencer, which has gone through its
microwords. -/
def Excepts (s : State) (k : Fin 4) (c : Instr) (cause code : Nat) : Prop :=
  exec c s = .next { s.microRun k with stk := { s.stk with exc := s.stk.exc.set k (some { cause := cause, code := code }) } }

end Sys2Proof.Machine
end

