-- ==== Sys2Proof/Certificates/Slice0/Obligations.lean ====
section
/-! DEFINITION. The statements for the provers.  Each docstring says what the statement claims and which rules of the specification it
comes from. -/


open Sys2Proof
open Sys2Proof.Machine

/-- For every command c and state s whose queue has c at its front, a step of s is exec of c on s with the queue's rest.
(spec/95_what_each_step_holds.md) -/
def Obligations.StepRunsFrontCommand : Prop :=
  ∀ (c : Instr) (s : State) (rest : List Instr), s.pending = c :: rest → step s = exec c { s with pending := rest }

/-- On an empty queue a step completes: cc grows by one, NT grows by its increment (plus a servo step that lands, none here) modulo its
wrap, the marks of what the cc that ends has set, cleared and counted are forgotten, the queue stays empty, and Stoker's memory and
general registers stay. That the step on an empty queue is one cc is the model's choice (log 20). (spec/01_cycle_ledger.md,
spec/11_network_time.md, spec/20_faults.md) -/
def Obligations.EmptyQueuePassesOneCycle : Prop :=
  ∀ s : State, s.pending = [] → s.time.jump = none → s.on TM_MC_STAT_BUSY = false →
      ∃ t, step s = .next t ∧ t.cc = s.cc + 1 ∧ t.nt = (s.nt + s.ntInc) % ntWrap ∧ 
        (s.fwd.frames = [] → s.fwd.copies = [] → s.fwd.arriving = [] → t.hwSet = [] ∧ t.cntNew = []) ∧ t.swClr = [] ∧ t.pending = [] ∧
        t.mem = s.mem ∧ t.stk.regs = s.stk.regs

/-- Whatever the command and the state, exec answers a next state: no row of the table faults or refuses. (spec/95_what_each_step_holds.md) -/
def Obligations.NoCommandStopsTheChip : Prop :=
  ∀ (c : Instr) (s : State), ∃ t, exec c s = .next t

/-- Whatever the command and the state, the next state of exec has the queue that it was given. The queue is the model's (log 20).
(spec/95_what_each_step_holds.md) -/
def Obligations.CommandsLeaveTheQueue : Prop :=
  ∀ (c : Instr) (s t : State), exec c s = .next t → t.pending = s.pending

/-- On a core that runs, each three-register instruction completes: RD takes the result of R380's table (shifts by bits [5:0] of RB, SLT and
SLTU 1 or 0), r0 stays 0, PC moves to the next word, and no other register of any core, CSR, memory byte or block changes. On a core
that runs, each immediate instruction completes: RD takes the result of R380's table with IMM sign- or zero-extended as it says, PC
moves to the next word, nothing else changes; SHLI and SHRI with IMM[31:6] not 0 leave cause 1 pending; NOP only moves PC.
(spec/16_stoker_instructions.md) -/
def Obligations.ArithmeticInstructionsWriteRd : Prop :=
  let registerInstructionsWriteRd : Prop :=
    ∀ (s : State) (k : Fin 4) (rd ra rb : Fin 32), s.coreRuns k = true →
        let a := s.reg k ra
        let b := s.reg k rb
        WritesRd s k rd (.add k rd ra rb) (a + b) ∧ WritesRd s k rd (.sub k rd ra rb) (a - b) ∧
        WritesRd s k rd (.stkAnd k rd ra rb) (a &&& b) ∧ WritesRd s k rd (.stkOr k rd ra rb) (a ||| b) ∧
        WritesRd s k rd (.stkXor k rd ra rb) (a ^^^ b) ∧
        WritesRd s k rd (.shl k rd ra rb) (a <<< (b.toNat % 64)) ∧ WritesRd s k rd (.shr k rd ra rb) (a >>> (b.toNat % 64)) ∧
        WritesRd s k rd (.sra k rd ra rb) (a.sshiftRight (b.toNat % 64)) ∧ WritesRd s k rd (.mul k rd ra rb) (a * b) ∧
        WritesRd s k rd (.slt k rd ra rb) (if a.toInt < b.toInt then 1 else 0) ∧
        WritesRd s k rd (.sltu k rd ra rb) (if a.toNat < b.toNat then 1 else 0);
  let immediateInstructionsWriteRd : Prop :=
    ∀ (s : State) (k : Fin 4) (rd ra : Fin 32) (imm : Word), s.coreRuns k = true →
        let a := s.reg k ra
        WritesRd s k rd (.addi k rd ra imm) (a + imm.signExtend 64) ∧ WritesRd s k rd (.andi k rd ra imm) (a &&& imm.zeroExtend 64) ∧
        WritesRd s k rd (.ori k rd ra imm) (a ||| imm.zeroExtend 64) ∧ WritesRd s k rd (.xori k rd ra imm) (a ^^^ imm.zeroExtend 64) ∧
        WritesRd s k rd (.li k rd imm) (imm.signExtend 64) ∧
        WritesRd s k rd (.lih k rd imm) (BitVec.ofNat 64 (imm.toNat * 2 ^ 32 + (s.reg k rd).toNat % 2 ^ 32)) ∧
        (imm.toNat < 64 → WritesRd s k rd (.shli k rd ra imm) (a <<< imm.toNat) ∧ WritesRd s k rd (.shri k rd ra imm) (a >>> imm.toNat)) ∧
        (64 ≤ imm.toNat → Excepts s k (.shli k rd ra imm) 1 0 ∧ Excepts s k (.shri k rd ra imm) 1 0) ∧
        Completes (.nop k) s fun t => PcNext k s t ∧ CoreStep k [] s t;
  registerInstructionsWriteRd ∧ immediateInstructionsWriteRd

/-- On a core that runs, a conditional branch that is not taken moves PC to the next word; a taken one goes to PC + 8 x sext(IMM) when that
is a code address by R377 (bits [31:25] and [2:0] are 0), else leaves cause 3 pending; nothing else changes. On a core that runs, JAL
goes to PC + 8 x sext(IMM) and JALR to (RA + sext(IMM))[31:0] when that is a code address by R377, with PC + 8 in RD; else cause 3 is
left pending and RD keeps its value; nothing else changes. (spec/16_stoker_instructions.md) -/
def Obligations.ControlFlowInstructionsMovePc : Prop :=
  let branchesMovePc : Prop :=
    ∀ (s : State) (k : Fin 4) (ra rb : Fin 32) (imm : Word), s.coreRuns k = true →
        let a := s.reg k ra
        let b := s.reg k rb
        let dst : Int := (s.pc k : Int) + 8 * imm.toInt
        ∀ p ∈ [(Instr.beq k ra rb imm, decide (a = b)), (.bne k ra rb imm, decide (a ≠ b)), (.blt k ra rb imm, decide (a.toInt < b.toInt)),
            (.bge k ra rb imm, decide (b.toInt ≤ a.toInt)), (.bltu k ra rb imm, decide (a.toNat < b.toNat)),
            (.bgeu k ra rb imm, decide (b.toNat ≤ a.toNat))],
          (p.2 = false → Completes p.1 s fun t => PcNext k s t ∧ CoreStep k [] s t) ∧
          (p.2 = true → 0 ≤ dst → dst < 2 ^ 25 → dst % 8 = 0 → Completes p.1 s fun t => (t.pc k : Int) = dst ∧ CoreStep k [] s t) ∧
          (p.2 = true → ¬ (0 ≤ dst ∧ dst < 2 ^ 25 ∧ dst % 8 = 0) → Excepts s k p.1 3 0);
  let jumpsLinkAndGo : Prop :=
    ∀ (s : State) (k : Fin 4) (rd ra : Fin 32) (imm : Word), s.coreRuns k = true →
        let dst : Int := (s.pc k : Int) + 8 * imm.toInt
        let into : Nat := (s.reg k ra + imm.signExtend 64).toNat % 2 ^ 32
        let link : BitVec 64 := BitVec.ofNat 64 (s.pc k + 8)
        (0 ≤ dst → dst < 2 ^ 25 → dst % 8 = 0 → Completes (.jal k rd imm) s fun t =>
          (t.pc k : Int) = dst ∧ t.reg k rd = (if rd = 0 then 0 else link) ∧ CoreStep k [rd] s t) ∧
        (¬ (0 ≤ dst ∧ dst < 2 ^ 25 ∧ dst % 8 = 0) → Excepts s k (.jal k rd imm) 3 0) ∧
        (into < 2 ^ 25 → into % 8 = 0 → Completes (.jalr k rd ra imm) s fun t =>
          t.pc k = into ∧ t.reg k rd = (if rd = 0 then 0 else link) ∧ CoreStep k [rd] s t) ∧
        (¬ (into < 2 ^ 25 ∧ into % 8 = 0) → Excepts s k (.jalr k rd ra imm) 3 0);
  branchesMovePc ∧ jumpsLinkAndGo

/-- On a core that runs, with no memory error armed, a load of n bytes (LD 8, LDW 4, zero-extended) at S-offset o = RA + sext(IMM) that is
n-aligned, within the SRAM and, at user level, within the user window, puts the big-endian number of bytes o to o + n - 1 into RD; a
user-level load outside the window leaves cause 2, a misaligned one cause 3 and one beyond the SRAM cause 4 pending, in that order. On a
core that runs, a store of n bytes (ST 8, STW 4) at S-offset o = RA + sext(IMM) that is n-aligned, within the SRAM and, at user level,
within the user window, writes the low n bytes of RB, most significant first, to bytes o to o + n - 1 of STK_MEM; every other byte of
memory, every register of every core and every CSR but this core's PC keep their values; the refused forms leave causes 2, 3 and 4
pending. On a running core in supervisor, with no memory error armed and RA, RB and RD 8-aligned within the SRAM, BMOV copies n =
min(RD, 16384) bytes from S-offset RA to S-offset RB as they stood before it, leaves every other byte alone, and moves PC; with RD, RB
and RA three different registers other than r0, RA and RB grow by n and RD falls by n, and every other register keeps its value (where
names coincide, RD's write comes last and RB's before it, log 35). (spec/16_stoker_instructions.md) -/
def Obligations.MemoryInstructionsMoveBytes : Prop :=
  let loadsReadSram : Prop :=
    ∀ (s : State) (k : Fin 4) (rd ra : Fin 32) (imm : Word), s.coreRuns k = true → s.flt.arm = none →
        ∀ p ∈ [(Instr.ld k rd ra imm, 8), (Instr.ldw k rd ra imm, 4)],
          let o := (s.reg k ra + imm.signExtend 64).toNat
          let reach : Prop := s.user k = true → s.f STK_UWIN_BASE_SOFS k ≤ o ∧ o + p.2 ≤ s.f STK_UWIN_LIMIT_SOFS k + 1
          (reach → o % p.2 = 0 → o + p.2 ≤ 2 ^ 24 → WritesRd s k rd p.1 (BitVec.ofNat 64 (beNat (s.load (stkBase + o) p.2)))) ∧
          (¬ reach → Excepts s k p.1 2 0) ∧ (reach → o % p.2 ≠ 0 → Excepts s k p.1 3 0) ∧
          (reach → o % p.2 = 0 → 2 ^ 24 < o + p.2 → Excepts s k p.1 4 0);
  let storesWriteTheirBytesAlone : Prop :=
    ∀ (s : State) (k : Fin 4) (rb ra : Fin 32) (imm : Word), s.coreRuns k = true →
        ∀ p ∈ [(Instr.st k rb ra imm, 8), (Instr.stw k rb ra imm, 4)],
          let o := (s.reg k ra + imm.signExtend 64).toNat
          let reach : Prop := s.user k = true → s.f STK_UWIN_BASE_SOFS k ≤ o ∧ o + p.2 ≤ s.f STK_UWIN_LIMIT_SOFS k + 1
          (reach → o % p.2 = 0 → o + p.2 ≤ 2 ^ 24 → Completes p.1 s fun t =>
            (∀ i, i < p.2 → (t.mem.get (stkBase + o + i)).toNat = (s.reg k rb).toNat / 256 ^ (p.2 - 1 - i) % 256) ∧
            (∀ a, a < stkBase + o ∨ stkBase + o + p.2 ≤ a → t.mem.get a = s.mem.get a) ∧
            PcNext k s t ∧ RegsBut [STK_PC_ADDR.at k] s t ∧ t.stk = s.stk) ∧
          (¬ reach → Excepts s k p.1 2 0) ∧ (reach → o % p.2 ≠ 0 → Excepts s k p.1 3 0) ∧
          (reach → o % p.2 = 0 → 2 ^ 24 < o + p.2 → Excepts s k p.1 4 0);
  let blockMoveCopiesAndAdvances : Prop :=
    ∀ (s : State) (k : Fin 4) (rd ra rb : Fin 32), s.coreRuns k = true → s.user k = false → s.flt.arm = none →
        let a := (s.reg k ra).toNat
        let b := (s.reg k rb).toNat
        let d := s.reg k rd
        let n := min d.toNat 16384
        a % 8 = 0 → b % 8 = 0 → d.toNat % 8 = 0 → a + n ≤ 2 ^ 24 → b + n ≤ 2 ^ 24 →
        Completes (.bmov k rd ra rb) s fun t =>
          (∀ i, i < n → t.mem.get (stkBase + b + i) = s.mem.get (stkBase + a + i)) ∧
          (∀ x, x < stkBase + b ∨ stkBase + b + n ≤ x → t.mem.get x = s.mem.get x) ∧
          t.reg k rd = (if rd = 0 then 0 else d - BitVec.ofNat 64 n) ∧
          (rb ≠ rd → t.reg k rb = (if rb = 0 then 0 else BitVec.ofNat 64 (b + n))) ∧
          (ra ≠ rd → ra ≠ rb → t.reg k ra = (if ra = 0 then 0 else BitVec.ofNat 64 (a + n))) ∧
          (∀ k' r, ¬ (k' = k ∧ r ∈ [rd, ra, rb]) → t.reg k' r = s.reg k' r) ∧ PcNext k s t ∧ RegsBut [STK_PC_ADDR.at k] s t;
  loadsReadSram ∧ storesWriteTheirBytesAlone ∧ blockMoveCopiesAndAdvances

/-- On a core that runs at user level, BMOV, CSRW, RETI, WAITI, HOSTI, HOSTIS, TBW, TSCAN, CMT, PHASE, SEMTS, SEMREL, SEND, CRNEXT and
CRDONE, with a legal encoding, leave cause 2 pending and change nothing else. On a running core in supervisor, at a 4-aligned chip
address that names a register: CSRR puts the word that the register reads, zero-extended, into RD and moves PC; CSRW leaves the state
that a write of the low 32 bits of RB to the register by this core leaves (after the sequencer of the core has gone through its
microwords), with the instruction retired and PC moved (a write that itself moves PC or is a software reset keeps its own). An address
that is not 4-aligned leaves cause 3, one that names nothing cause 4 pending. (spec/16_stoker_instructions.md, spec/18_joring_link.md) -/
def Obligations.PrivilegedInstructionsReachTheChip : Prop :=
  let privilegedInstructionsTrapAtUserLevel : Prop :=
    ∀ (s : State) (k : Fin 4) (rd ra rb : Fin 32) (imm : Word) (x : BitVec 9) (ring : Fin 2) (cells : List Nat) (ecc : Fin 3),
        s.coreRuns k = true → s.user k = true → imm.toNat < 64 →
        ∀ c ∈ [Instr.bmov k rd ra rb, .csrw k ra rb imm, .reti k, .waiti k, .hosti k rd ring imm, .hostis k rd ring imm, .tbw k rd ra rb,
            .tscan k rd ra, .cmt k rd ra rb x, .phase k rd ra imm, .semts k rd imm, .semrel k rd imm, .send k rd ra cells ecc,
            .crnext k rd ring, .crdone k rd ra rb ring], Excepts s k c 2 0;
  let registerInstructionsReachTheChip : Prop :=
    ∀ (s : State) (k : Fin 4) (rd ra rb : Fin 32) (imm : Word), s.coreRuns k = true → s.user k = false →
        let a := (s.reg k ra + imm.signExtend 64).toNat
        let v := (s.reg k rb).setWidth 32
        let m := s.microRun k
        (∀ t w, a % 4 = 0 → m.csrRead a = some (t, w) →
          Completes (.csrr k rd ra imm) s fun u => u.reg k rd = (if rd = 0 then 0 else w.zeroExtend 64) ∧ PcNext k s u) ∧
        (∀ t, a % 4 = 0 → (m.evAt 0x051 false (2 + k.val) a).csrWrite a v = some t → keepsPc a v (s.pc k) (t.pc k) = false →
          exec (.csrw k ra rb imm) s = .next ((t.evAt 0x050 false (2 + k.val) 0).setF STK_PC_ADDR ((s.pc k + 8) % 2 ^ 32) k)) ∧
        (a % 4 ≠ 0 → Excepts s k (.csrr k rd ra imm) 3 0 ∧ Excepts s k (.csrw k ra rb imm) 3 0) ∧
        (a % 4 = 0 → isCsr a = false → Excepts s k (.csrr k rd ra imm) 4 0 ∧
          Excepts s k (.csrw k ra rb imm) 4 0);
  privilegedInstructionsTrapAtUserLevel ∧ registerInstructionsReachTheChip

/-- On a core that runs: RDNT with an even RD from 2 to 30 puts NT in whole ns into RD and its 16-bit fraction into RD + 1, and with any
other RD leaves cause 1 pending; WAITT moves PC to the next word once NT in whole ns is at or above RA, and before that the instruction
stays where it is and only the sequencer of the core goes through its microwords; WAITI in supervisor moves PC to the next word and
leaves the core waiting. On a core that runs, SYSC leaves cause 6 with CODE IMM[15:0] pending and BRK cause 7, each counted as retired,
with PC where it was; ILLEGAL_OPCODE with a reserved OPC (0x0C to 0x0F, 0x18 to 0x1F, 0x28 to 0x2F, 0x37 to 0x3F, 0x42 to 0x47, 0x4E,
0x4F, 0x59 to 0xFF) or with a non-zero unused field of NOP leaves cause 1 pending; the sequencer goes through its microwords, and
nothing else changes. A core that is not halted and has no exception pending halts with HALT_CAUSE 0 and waits no longer; with an
exception pending, or in a SEND that waits for a block, the halt is left requested; CORE_RUN clears HALTED alone; SWI sets bit 12 of
STK_IRQ_PEND alone; PC stays in each. (spec/16_stoker_instructions.md, spec/11_network_time.md) -/
def Obligations.CoresWaitTrapAndHalt : Prop :=
  let timeInstructionsReadAndWait : Prop :=
    ∀ (s : State) (k : Fin 4) (rd ra : Fin 32), s.coreRuns k = true →
        (rd.val % 2 = 0 → rd ≠ 0 → Completes (.rdnt k rd) s fun t =>
          t.reg k rd = BitVec.ofNat 64 (s.nt / 2 ^ 40) ∧ t.reg k (rd + 1) = BitVec.ofNat 64 (s.nt / 2 ^ 24 % 2 ^ 16) ∧
          PcNext k s t ∧ CoreStep k [rd, rd + 1] s t) ∧
        (rd.val % 2 = 1 ∨ rd = 0 → Excepts s k (.rdnt k rd) 1 0) ∧
        ((s.reg k ra).toNat ≤ s.nt / 2 ^ 40 → Completes (.waitt k ra) s fun t => PcNext k s t ∧ CoreStep k [] s t) ∧
        (s.nt / 2 ^ 40 < (s.reg k ra).toNat → exec (.waitt k ra) s = .next (s.microRun k)) ∧
        (s.user k = false → Completes (.waiti k) s fun t =>
          t.stk = { s.stk with waiting := s.stk.waiting.set k true } ∧ PcNext k s t ∧
          Only [STK_PC_ADDR.at k] [] { s.microRun k with stk := t.stk, pmc := t.pmc } t);
  let trapsAreLeftPending : Prop :=
    ∀ (s : State) (k : Fin 4) (imm : Word) (w : BitVec 64), s.coreRuns k = true →
        (Completes (.sysc k imm) s fun t =>
          t.stk = { s.stk with exc := s.stk.exc.set k (some { cause := 6, code := imm.toNat % 65536 }) } ∧
          t = { s.microRun k with stk := t.stk, pmc := { s.pmc with events := t.pmc.events } }) ∧
        (Completes (.brk k) s fun t => t.stk = { s.stk with exc := s.stk.exc.set k (some { cause := 7, code := 0 }) } ∧
          t = { s.microRun k with stk := t.stk, pmc := { s.pmc with events := t.pmc.events } }) ∧
        (∀ r ∈ [(0x0C, 0x0F), (0x18, 0x1F), (0x28, 0x2F), (0x37, 0x3F), (0x42, 0x47), (0x4E, 0x4F), (0x59, 0xFF)],
          r.1 ≤ w.toNat / 2 ^ 56 → w.toNat / 2 ^ 56 ≤ r.2 → Excepts s k (.illegalOpcode k w) 1 0) ∧
        (w.toNat / 2 ^ 56 = 0 → natBits w.toNat 41 15 ≠ 0 ∨ w.toNat % 2 ^ 41 ≠ 0 → Excepts s k (.illegalOpcode k w) 1 0);
  let coresHaltAndRun : Prop :=
    ∀ (s : State) (k : Fin 4),
        (s.on STK_STAT_HALTED k = false → s.stk.exc.get k = none → s.inSend k = false → Completes (.coreHalt k) s fun t =>
          t.f STK_STAT_HALTED k = 1 ∧ t.f STK_STAT_HALT_CAUSE k = 0 ∧
          t.stk = { s.stk with haltReq := s.stk.haltReq.set k false, waiting := s.stk.waiting.set k false } ∧
          Only [STK_STAT.addr k 0 0] [] { s with stk := t.stk } t) ∧
        (s.stk.exc.get k ≠ none ∨ s.inSend k = true → s.on STK_STAT_HALTED k = false →
          exec (.coreHalt k) s = .next { s with stk := { s.stk with haltReq := s.stk.haltReq.set k true } }) ∧
        (Completes (.coreRun k) s fun t => t.f STK_STAT_HALTED k = 0 ∧ t.f STK_STAT_HALT_CAUSE k = s.f STK_STAT_HALT_CAUSE k ∧
          Only [STK_STAT.addr k 0 0] [] s t) ∧
        (Completes .swi s fun t => natBit (t.f STK_IRQ_PEND_PEND) 12 = true ∧
          (∀ n, n < 12 → natBit (t.f STK_IRQ_PEND_PEND) n = natBit (s.f STK_IRQ_PEND_PEND) n) ∧ Only [STK_IRQ_PEND.addr 0 0 0] [] s t);
  timeInstructionsReadAndWait ∧ trapsAreLeftPending ∧ coresHaltAndRun

/-- A core with a pending exception enters its handler: EPRIV and EIEN take PRIV and IEN, PRIV becomes supervisor and IEN 0, CAUSE takes
INT, NUM and CODE, EPC the instruction itself for causes 1 to 5 and the next one for 6 and 7, PC the value of VEC, the sequencer goes to
micro-address 0x0008 with an empty micro-stack, and without a halt request no other register changes. A core with IEN 1 that is not
halted, has no exception pending and is not in a SEND that waits for a block takes the lowest-numbered source that is pending and
enabled in the same way, with INT 1, CODE 0 and EPC the address of the next instruction, and no longer waits. A halt request taken with
an exception halts the core after the entry. On a core that is not halted, has no exception pending and does not wait, and without a
halt request, a check of kind 0 to 3 on an instruction that completes no effects in part (here one of opcode below 0x30) saves PC in
MC_RESUME, PRIV and IEN in MC_PRIV and MC_IEN and 0 in MC_DONE, sets MC_ACTIVE and PRIV, clears IEN, goes to MCVEC with the sequencer at
micro-address 0x0010, records kind, store, core and address in UC_ERR and raises class 9 at level 2 with cause 1; with MC_ACTIVE already
1 the core halts with HALT_CAUSE 2 and raises cause 3; kind 4 counts a parity error, raises class 9 at level 1 with cause 2 and INFO 0
and touches no core. (spec/16_stoker_instructions.md, spec/17_microcode.md) -/
def Obligations.HandlersAndMachineChecksAreEntered : Prop :=
  let handlerEntrySavesAndVectors : Prop :=
    ∀ (s : State) (k : Fin 4),
        (∀ e, s.stk.exc.get k = some e → Completes (.exceptionEntry k) s fun t =>
          t.f STK_STAT_EPRIV k = s.f STK_STAT_PRIV k ∧ t.f STK_STAT_EIEN k = s.f STK_STAT_IEN k ∧ t.f STK_STAT_PRIV k = 1 ∧
          t.f STK_STAT_IEN k = 0 ∧ t.f STK_CAUSE_INT k = 0 ∧ t.f STK_CAUSE_NUM k = e.cause % 32 ∧ t.f STK_CAUSE_CODE k = e.code % 65536 ∧
          t.f STK_EPC_ADDR k = (if e.cause ≤ 5 then s.pc k else (s.pc k + 8) % 2 ^ 32) ∧ t.pc k = s.f STK_VEC_ADDR k ∧
          t.stk.exc = s.stk.exc.set k none ∧
          (s.stk.haltReq.get k = false → t.f STK_STAT_HALTED k = s.f STK_STAT_HALTED k) ∧
          (s.stk.haltReq.get k = true → t.on STK_STAT_HALTED k = true ∧ t.f STK_STAT_HALT_CAUSE k = 0) ∧
          Only [STK_STAT.addr k 0 0, STK_CAUSE.addr k 0 0, STK_EPC.addr k 0 0, STK_PC.addr k 0 0] [] { s.seqEnter k 0x0008 with stk := t.stk } t ∧
          (t.uc.seq.get k).addr = 8 ∧ (t.uc.seq.get k).stack = []) ∧
        (∀ n, n < 13 → s.on STK_STAT_HALTED k = false → s.stk.exc.get k = none → s.inSend k = false → s.on STK_STAT_IEN k = true →
          natBit (s.f STK_IRQ_PEND_PEND) n = true → natBit (s.f STK_IE_EN k) n = true →
          (∀ m, m < n → natBit (s.f STK_IRQ_PEND_PEND) m = false ∨ natBit (s.f STK_IE_EN k) m = false) →
          Completes (.interruptEntry k) s fun t =>
            t.f STK_STAT_EPRIV k = s.f STK_STAT_PRIV k ∧ t.f STK_STAT_EIEN k = 1 ∧ t.f STK_STAT_PRIV k = 1 ∧ t.f STK_STAT_IEN k = 0 ∧
            t.f STK_CAUSE_INT k = 1 ∧ t.f STK_CAUSE_NUM k = n ∧ t.f STK_CAUSE_CODE k = 0 ∧ t.f STK_EPC_ADDR k = s.pc k ∧
            t.pc k = s.f STK_VEC_ADDR k ∧ t.stk = { s.stk with waiting := s.stk.waiting.set k false } ∧
            Only [STK_STAT.addr k 0 0, STK_CAUSE.addr k 0 0, STK_EPC.addr k 0 0, STK_PC.addr k 0 0] [] { s.seqEnter k 0x0008 with stk := t.stk } t ∧
            (t.uc.seq.get k).addr = 8 ∧ (t.uc.seq.get k).stack = []);
  let machineChecksAreEntered : Prop :=
    ∀ (s : State) (k : Fin 4) (kind : Fin 16) (store : Fin 4) (addr : BitVec 15) (w : BitVec 64) (done : Nat) (cells : List Nat),
        (kind.val < 4 → s.on STK_STAT_HALTED k = false → s.stk.exc.get k = none → s.stk.waiting.get k = false → s.stk.haltReq.get k = false →
          w.toNat / 2 ^ 56 < 0x30 →
          Completes (.machineCheck k kind store addr w done cells) s fun t =>
            t.f UC_ERR_KIND = kind ∧ t.f UC_ERR_STORE = store ∧ t.f UC_ERR_CORE = k ∧ t.f UC_ERR_ADDR = addr.toNat ∧ t.f UC_ERR_EXC_LOST = 0 ∧
            t.mem = s.mem ∧ t.stk.regs = s.stk.regs ∧
            (s.on STK_STAT_MC_ACTIVE k = false →
              t.f STK_MC_RESUME_ADDR k = s.pc k ∧ t.f STK_MC_DONE_COUNT k = 0 ∧ t.f STK_STAT_MC_PRIV k = s.f STK_STAT_PRIV k ∧
              t.f STK_STAT_MC_IEN k = s.f STK_STAT_IEN k ∧ t.f STK_STAT_MC_ACTIVE k = 1 ∧ t.f STK_STAT_PRIV k = 1 ∧ t.f STK_STAT_IEN k = 0 ∧
              t.pc k = s.f STK_MCVEC_ADDR k ∧ t.f STK_STAT_HALTED k = 0 ∧ FaultRaised s t 9 2 1 0 ∧ (t.uc.seq.get k).addr = 16 ∧
              (t.stk.sending.get k).1 = 0) ∧
            (s.on STK_STAT_MC_ACTIVE k = true →
              t.f STK_STAT_HALTED k = 1 ∧ t.f STK_STAT_HALT_CAUSE k = 2 ∧ t.pc k = s.pc k ∧ FaultRaised s t 9 2 3 0)) ∧
        (kind.val = 4 → Completes (.machineCheck k kind store addr w done cells) s fun t =>
          t.f UC_ERR_KIND = 4 ∧ t.f UC_ERR_ADDR = addr.toNat % 64 ∧ t.cval C_UC_PAR_ERR = min (s.cval C_UC_PAR_ERR + 1) (2 ^ 48 - 1) ∧
          FaultRaised s t 9 1 2 0 ∧ t.stk = s.stk ∧ t.pc k = s.pc k);
  handlerEntrySavesAndVectors ∧ machineChecksAreEntered

/-- On a core that runs in supervisor: with MC_ACTIVE 0, RETI sets PC, PRIV and IEN to EPC, EPRIV and EIEN; with MC_ACTIVE 1, to MC_RESUME,
MC_PRIV and MC_IEN, and MC_ACTIVE becomes 0; no register but STK_Kk_STAT and STK_Kk_PC changes. (R392) -/
def Obligations.RetiRestores : Prop :=
  ∀ (s : State) (k : Fin 4), s.coreRuns k = true → s.user k = false → Completes (.reti k) s fun t =>
      (s.f STK_STAT_MC_ACTIVE k = 0 → t.pc k = s.f STK_EPC_ADDR k ∧ t.f STK_STAT_PRIV k = s.f STK_STAT_EPRIV k ∧
        t.f STK_STAT_IEN k = s.f STK_STAT_EIEN k ∧ t.f STK_STAT_MC_ACTIVE k = 0) ∧
      (s.f STK_STAT_MC_ACTIVE k = 1 → t.pc k = s.f STK_MC_RESUME_ADDR k ∧ t.f STK_STAT_PRIV k = s.f STK_STAT_MC_PRIV k ∧
        t.f STK_STAT_IEN k = s.f STK_STAT_MC_IEN k ∧ t.f STK_STAT_MC_ACTIVE k = 0) ∧
      Only [STK_STAT.addr k 0 0, STK_PC.addr k 0 0] [] { s.microRun k with pmc := t.pmc } t

/-- On a running core in supervisor with IMM[15] 0: while the ring holds fewer than 16 messages, HOSTI appends one with the ring's next
MSEQ, kind 0, the core and the code IMM[15:0], MSEQ advances and RD takes 1; when it holds 16, the message is discarded and counted and
RD takes 0. HOSTIS does the same and halts the core with HALT_CAUSE 1 and PC at the next word. IMM[15] = 1 leaves cause 1 pending. On a
running core in supervisor, with IMM below 64: SEMTS gives a free semaphore IMM to the core with RD 1, and when any master holds it
changes nothing with RD 0; SEMREL frees it when the core holds it with RD 1, and else changes nothing with RD 0; every other semaphore,
register and byte of memory stays. IMM of 64 or more leaves cause 1 pending. (spec/16_stoker_instructions.md, spec/18_joring_link.md) -/
def Obligations.HostsAndSemaphoresAreServedByCores : Prop :=
  let hostInterruptsAreQueued : Prop :=
    ∀ (s : State) (k : Fin 4) (rd : Fin 32) (ring : Fin 2) (imm : Word), s.coreRuns k = true → s.user k = false →
        let code := imm.toNat % 65536
        (32768 ≤ code → Excepts s k (.hosti k rd ring imm) 1 0 ∧ Excepts s k (.hostis k rd ring imm) 1 0) ∧
        (code < 32768 → ∀ p ∈ [(Instr.hosti k rd ring imm, false), (.hostis k rd ring imm, true)], Completes p.1 s fun t =>
          ((s.ring ring).msgs.length < 16 →
            (t.ring ring) = { s.ring ring with
              msgs := (s.ring ring).msgs ++ [{ mseq := s.f JOR_MSG_NEXT_MSEQ ring, kind := 0, core := k, code := code }] } ∧
            t.f JOR_MSG_NEXT_MSEQ ring = (s.f JOR_MSG_NEXT_MSEQ ring + 1) % 256 ∧ t.f JOR_MSG_QUEUED ring = (s.ring ring).msgs.length + 1 ∧
            t.reg k rd = (if rd = 0 then 0 else 1) ∧ t.cnt = s.cnt) ∧
          (16 ≤ (s.ring ring).msgs.length → t.jor = s.jor ∧ t.reg k rd = 0 ∧
            t.cval C_JOR_MSG_DROP ring = min (s.cval C_JOR_MSG_DROP ring + 1) (2 ^ 48 - 1)) ∧
          PcNext k s t ∧ (p.2 = true → t.f STK_STAT_HALTED k = 1 ∧ t.f STK_STAT_HALT_CAUSE k = 1) ∧
          (p.2 = false → t.f STK_STAT_HALTED k = 0) ∧
          (∀ k' r, ¬ (k' = k ∧ r = rd) → t.reg k' r = s.reg k' r) ∧
          Only [STK_PC_ADDR.at k, STK_STAT.addr k 0 0, JOR_MSG.addr ring 0 0] [C_JOR_MSG_DROP.addr ring 0]
            { s.microRun k with stk := t.stk, jor := t.jor, pmc := t.pmc } t);
  let semaphoresAreTakenAndReleased : Prop :=
    ∀ (s : State) (k : Fin 4) (rd : Fin 32) (imm : Word), s.coreRuns k = true → s.user k = false →
        let n := imm.toNat
        let me := 3 + k.val
        (64 ≤ n → Excepts s k (.semts k rd imm) 1 0 ∧ Excepts s k (.semrel k rd imm) 1 0) ∧
        (n < 64 → ∀ p ∈ [(Instr.semts k rd imm, 0, me), (.semrel k rd imm, me, 0)], Completes p.1 s fun t =>
          (s.sem n = p.2.1 → t.sem n = p.2.2 ∧ t.reg k rd = (if rd = 0 then 0 else 1)) ∧
          (s.sem n ≠ p.2.1 → t.sem n = s.sem n ∧ t.reg k rd = 0) ∧
          (∀ m, m ≠ n → t.sem m = s.sem m) ∧ (∀ j, t.ring j = s.ring j) ∧ PcNext k s t ∧
          (∀ k' r, ¬ (k' = k ∧ r = rd) → t.reg k' r = s.reg k' r) ∧
          Only [STK_PC_ADDR.at k] [] { s.microRun k with stk := t.stk, jor := t.jor, pmc := t.pmc } t);
  hostInterruptsAreQueued ∧ semaphoresAreTakenAndReleased

/-- JOR_SEM_FREE frees the semaphore it names, whoever holds it, and sets FORCED; when a ring's input has been out of UP for TMO_MS (in
force when not 0, and once per outage), SEM_RING_TIMEOUT frees every semaphore held by that ring, leaves the others and sets LOST;
halting a core frees none. (R431) -/
def Obligations.SemaphoresAreFreedWithoutTheirHolder : Prop :=
  ∀ s : State,
      (∀ n : Fin 64, Completes (.jorSemFree n) s fun t => t.sem n = 0 ∧ (∀ m, m ≠ n.val → t.sem m = s.sem m) ∧
        t.on JOR_SEM_EV_FORCED = true ∧ Only [JOR_SEM_EV.addr 0 0 0] [] { s with jor := t.jor } t) ∧
      (∀ ring : Fin 2, s.f JOR_RING_STAT_STATE ring ≠ 2 → s.f JOR_SEM_CFG_TMO_MS ≠ 0 → (s.ring ring).timedOut = false →
        (s.ring ring).downFrom + s.f JOR_SEM_CFG_TMO_MS * 1500000 ≤ s.cc → Completes (.semRingTimeout ring) s fun t =>
          (∀ n, n < 64 → t.sem n = if s.sem n = ring.val + 1 then 0 else s.sem n) ∧ t.on JOR_SEM_EV_LOST = true ∧
          Only [JOR_SEM_EV.addr 0 0 0] [] { s with jor := t.jor } t) ∧
      (∀ k : Fin 4, Completes (.coreHalt k) s fun t => t.jor = s.jor)

/-- On a running core in supervisor with no memory error armed, a TBW of one 64-byte entry at a 64-aligned S-offset, for a port that is not
BUSY, leaves the state that the port leaves when its DATA, ADDR and CTL words are written from the entry and the access is begun and
completed, with RD taking CODE and COUNT (0 and 1 when RESULT is 0, else 1 or 2 and 0) and PC moved; for a BUSY port the instruction
stays where it is (log 42). A count of 0 or above 256 leaves cause 1, a misaligned descriptor cause 3, one beyond the SRAM cause 4
pending. On a running core in supervisor with no memory error armed, at a 16-aligned descriptor within the SRAM whose COUNT is 1 to
32,768 and whose group is at most 17: when row i is the first among min(COUNT, 2048) rows from ROW (modulo 32,768) whose bits under
MASK, as they stood before this cc wrote any, equal VALUE, RD takes that row with code 0, ROW moves past it and COUNT falls by i + 1;
when none matches, RD takes code 1, ROW moves past the rows scanned and COUNT falls by their number. A misaligned descriptor leaves
cause 3, one beyond the SRAM cause 4, another COUNT or group cause 1 pending. (spec/16_stoker_instructions.md,
spec/06_parser_and_tables.md) -/
def Obligations.TableInstructionsWriteAndScan : Prop :=
  let tableWriteInstructionPassesThePort : Prop :=
    ∀ (s : State) (k : Fin 4) (rd ra rb : Fin 32), s.coreRuns k = true → s.user k = false → s.flt.arm = none →
        let o := (s.reg k ra).toNat
        let n := (s.reg k rb).toNat
        (n = 0 ∨ 256 < n → Excepts s k (.tbw k rd ra rb) 1 0) ∧
        (1 ≤ n → n ≤ 256 → o % 64 ≠ 0 → Excepts s k (.tbw k rd ra rb) 3 0) ∧
        (1 ≤ n → n ≤ 256 → o % 64 = 0 → 2 ^ 24 < o + 64 * n → Excepts s k (.tbw k rd ra rb) 4 0) ∧
        (n = 1 → o % 64 = 0 → o + 64 ≤ 2 ^ 24 → s.tbwWaits (s.load (stkBase + o) 64) = true → exec (.tbw k rd ra rb) s = .next (s.microRun k)) ∧
        (n = 1 → o % 64 = 0 → o + 64 ≤ 2 ^ 24 → s.tbwWaits (s.load (stkBase + o) 64) = false → Completes (.tbw k rd ra rb) s fun t =>
          let r := (s.microRun k).tbwEntry (s.load (stkBase + o) 64)
          let code := if r.2 = 0 then 0 else if r.2 = 1 then 1 else 2
          t.reg k rd = (if rd = 0 then 0 else BitVec.ofNat 64 (code * 2 ^ 62 + (if code = 0 then 1 else 0))) ∧ PcNext k r.1 t ∧
          t.tab = r.1.tab ∧ t.slot0 = r.1.slot0 ∧ t.slot1 = r.1.slot1 ∧ t.mem = r.1.mem ∧ RegsBut [STK_PC_ADDR.at k] r.1 t);
  let tableScanFindsTheFirstRow : Prop :=
    ∀ (s : State) (k : Fin 4) (rd ra : Fin 32), s.coreRuns k = true → s.user k = false → s.flt.arm = none →
        let o := (s.reg k ra).toNat
        let w0 := s.sram32 o
        let count := s.sram32 (o + 4) % 65536
        let n := min count 2048
        let sl := natBits w0 27 5
        let g := natBits w0 22 5
        let row := w0 % 32768
        let hit (i : Nat) : Prop := s.beforeWrites.tab.sram.get (sramKey sl g ((row + i) % 32768)) &&& scanNum (s.load (stkBase + o) 48) 8 =
          scanNum (s.load (stkBase + o) 48) 24 &&& scanNum (s.load (stkBase + o) 48) 8
        (o % 16 ≠ 0 → Excepts s k (.tscan k rd ra) 3 0) ∧ (o % 16 = 0 → 2 ^ 24 < o + 48 → Excepts s k (.tscan k rd ra) 4 0) ∧
        (o % 16 = 0 → o + 48 ≤ 2 ^ 24 → count = 0 ∨ 32768 < count ∨ 17 < g → Excepts s k (.tscan k rd ra) 1 0) ∧
        (o % 16 = 0 → o + 48 ≤ 2 ^ 24 → 1 ≤ count → count ≤ 32768 → g ≤ 17 →
          (∀ i, i < n → hit i → (∀ i', i' < i → ¬ hit i') → Completes (.tscan k rd ra) s fun t =>
            t.reg k rd = (if rd = 0 then 0 else BitVec.ofNat 64 ((row + i) % 32768)) ∧ PcNext k s t ∧
            t.sram32 o % 32768 = (row + i + 1) % 32768 ∧ t.sram32 (o + 4) % 65536 = count - (i + 1) ∧ t.tab = s.tab) ∧
          ((∀ i, i < n → ¬ hit i) → Completes (.tscan k rd ra) s fun t =>
            t.reg k rd = (if rd = 0 then 0 else BitVec.ofNat 64 (2 ^ 62)) ∧ PcNext k s t ∧
            t.sram32 o % 32768 = (row + n) % 32768 ∧ t.sram32 (o + 4) % 65536 = count - n ∧ t.tab = s.tab));
  tableWriteInstructionPassesThePort ∧ tableScanFindsTheFirstRow

/-- On a running core in supervisor, with X holding SRC, NOW, ANYNUM and CANCEL: CMT writes NUM from RA[31:0] and t_c from RB in whole ns,
and without CANCEL leaves what a COMMIT_REQUEST with SRC, NOW and ANYNUM leaves there, with RD 0 when the slot has entered CHECK, 1 when
the request is held, else 2; with CANCEL and a request that runs and whose t_c is not reached, it leaves what COMMIT_CANCEL leaves
there, with RD 3, and when nothing runs it leaves the generations as they are, with RD 4; PC moves to the next word. On a running core
in supervisor with no memory error armed and no halt requested, at a 32-aligned descriptor within the SRAM: an invalid descriptor (LEN
outside 60 to 15,996, QUEUE 12 to 15 or a buffer beyond the SRAM) gives RD 3; a port that is not UP gives RD 2; a DIRECT frame for a
port that is UP and AGREED or EDGE is appended to the port's generated frames with RD 0 while fewer than four direct ones wait, and
gives RD 1 when four do; codes 1 and 2 are counted in STK_SEND_DROP; PC moves. A misaligned descriptor leaves cause 3, one beyond the
SRAM cause 4 pending. (spec/16_stoker_instructions.md, spec/08_table_generations.md, spec/04_mac.md) -/
def Obligations.CommitAndSendInstructionsAct : Prop :=
  let commitInstructionRequestsACommit : Prop :=
    ∀ (s : State) (k : Fin 4) (rd ra rb : Fin 32) (src : Fin 4) (now any : Bool), s.coreRuns k = true → s.user k = false →
        let x := src.val + 4 * now.toNat + 8 * any.toNat
        let s1 := (s.microRun k).commitWords (s.reg k ra).toNat (s.reg k rb).toNat
        s1.f GEN_CMT_NUM_NUM = (s.reg k ra).toNat % 2 ^ 32 ∧
        s1.getNs3 GEN_CMT_AT_HI_SEC_HI GEN_CMT_AT_MID_SEC_LO GEN_CMT_AT_LO_NS = (s.reg k rb).toNat ∧
        let u := s1.commitCmd src now any
        exec (.commitRequest src now any) s1 = .next u ∧
        (Completes (.cmt k rd ra rb (BitVec.ofNat 9 x)) s fun t =>
          t.gen = u.gen ∧ RegsBut [STK_PC_ADDR.at k] u t ∧ PcNext k s t ∧
          t.reg k rd = (if rd = 0 then 0
            else if s.f GEN_STAT_CSTATE ≠ 4 ∧ u.f GEN_STAT_CSTATE = 4 then 0 else if s.gen.held = none ∧ u.gen.held ≠ none then 1 else 2)) ∧
        (s.gen.held = none → ∀ r, s.gen.req = some r → (r.now = true ∨ s.nt < r.tc * nsUnit) →
          Completes (.cmt k rd ra rb (BitVec.ofNat 9 (x + 16))) s fun t =>
            t.gen = { s.gen with req := none } ∧ t.f GEN_STAT_CSTATE = 3 ∧ t.f GEN_STAT_RESULT = 5 ∧ PcNext k s t ∧
            t.reg k rd = (if rd = 0 then 0 else 3)) ∧
        (s.gen.held = none → s.gen.req = none → Completes (.cmt k rd ra rb (BitVec.ofNat 9 (x + 16))) s fun t =>
          t.gen = s.gen ∧ t.f GEN_STAT_RESULT = s.f GEN_STAT_RESULT ∧ PcNext k s t ∧ t.reg k rd = (if rd = 0 then 0 else 4));
  let sendTakesTheDirectPathOrSaysWhyNot : Prop :=
    ∀ (s : State) (k : Fin 4) (rd ra : Fin 32) (cells : List Nat) (ecc : Fin 3),
        s.coreRuns k = true → s.user k = false → s.flt.arm = none → s.stk.haltReq.get k = false →
        let o := (s.reg k ra).toNat
        let d := sendDesc (s.load (stkBase + o) 32)
        let good : Prop := 60 ≤ d.len ∧ d.len ≤ 15996 ∧ d.queue < 12 ∧ d.buf + d.len ≤ 2 ^ 24
        let direct := (s.mp d.port).gen.filter (·.direct)
        let answers (c drops : Nat) (t : State) : Prop := t.reg k rd = (if rd = 0 then 0 else BitVec.ofNat 64 c) ∧ PcNext k s t ∧
          t.cval C_STK_SEND_DROP = min (s.cval C_STK_SEND_DROP + drops) (2 ^ 48 - 1) ∧ t.mem = s.mem ∧
          (∀ k' r, ¬ (k' = k ∧ r = rd) → t.reg k' r = s.reg k' r) ∧ RegsBut [STK_PC_ADDR.at k] s t
        (o % 32 ≠ 0 → Excepts s k (.send k rd ra cells ecc) 3 0) ∧ (o % 32 = 0 → 2 ^ 24 < o + 32 → Excepts s k (.send k rd ra cells ecc) 4 0) ∧
        (o % 32 = 0 → o + 32 ≤ 2 ^ 24 →
          (s.cval C_STK_SEND_DROP ≤ 2 ^ 48 - 1 → ¬ good → Completes (.send k rd ra cells ecc) s fun t => answers 3 0 t ∧ t.mac = s.mac) ∧
          (good → s.macUp d.port = false → Completes (.send k rd ra cells ecc) s fun t => answers 2 1 t ∧ t.mac = s.mac) ∧
          (good → d.direct = true → d.aux = false → s.macUp d.port = true → s.portUp d.port = true →
            (4 ≤ direct.length → Completes (.send k rd ra cells ecc) s fun t => answers 1 1 t ∧ t.mac = s.mac) ∧
            (s.cval C_STK_SEND_DROP ≤ 2 ^ 48 - 1 → direct.length < 4 → Completes (.send k rd ra cells ecc) s fun t => answers 0 0 t ∧
              let b := s.load (stkBase + d.buf) d.len
              let tag := if d.stamp then some d.tag else none
              (t.mp d.port).gen = (s.mp d.port).gen ++ [{ bytes := b, made := s.cc, direct := true, stamp := tag, tref := d.tref }] ∧
              ∀ p, p ≠ d.port → t.mp p = s.mp p)));
  commitInstructionRequestsACommit ∧ sendTakesTheDirectPathOrSaysWhyNot

/-- On a running core in supervisor with no memory error armed: CRNEXT of a ring that is disabled or whose HEAD equals TAIL answers EMPTY
and changes nothing else; otherwise HEAD advances modulo 2^LOG2, and an entry whose REQ_ID is not in the window enters it as TAKEN with
RD its S-offset, while one that is TAKEN there gets STATUS DUP, HANDLED in RD and a count, and one that is DONE there gets its RESULT
and its STATUS with DUP, with HANDLED in RD and a count. CRDONE of an entry whose ID is TAKEN writes RESULT and STATUS, marks the ID
DONE with both and answers 0; of an ID that is not TAKEN it answers 1 and leaves the window; an RA that is no entry of the ring leaves
cause 3 pending. COMMAND_RING_TAIL_WRITE stores TAIL and raises source CRA or CRB; RING_CFG_WRITE stores EN and LOG2 (3 and less as 4,
13 and more as 12), clears HEAD and TAIL, and empties a command ring's window; RX_RING_WRITE takes the ring's oldest frame that has
ended, and with none changes nothing: on a ring that is disabled or full the frame is dropped and counted in STK_RX_DROP, else its slot
is written, HEAD advances modulo 2^LOG2 and source PUNT (rings 0 to 31) or AUX is raised; a punt copy lets go of its block and its
slot's count either way, an AUX frame has none. (spec/16_stoker_instructions.md) -/
def Obligations.StokerRingsAreServed : Prop :=
  let commandRingsHandOutAndTakeBackEntries : Prop :=
    ∀ (s : State) (k : Fin 4) (rd ra rb : Fin 32) (j : Fin 2), s.coreRuns k = true → s.user k = false → s.flt.arm = none →
        let h := s.f STK_CR_HEAD_INDEX j
        let size := 2 ^ s.f STK_CR_CFG_LOG2 j
        let idle : Prop := s.on STK_CR_CFG_EN j = false ∨ h = s.f STK_CR_TAIL_INDEX j % size
        let e := (64 * s.f STK_CR_BASE_BASE j + 64 * h) % 2 ^ 24
        let l := s.stk.dup.get j
        let dups := if j = 0 then C_STK_CR_DUP0 else C_STK_CR_DUP1
        let o := (s.reg k ra).toNat
        let v := (s.reg k rb).toNat
        (idle → WritesRd s k rd (.crnext k rd j) (BitVec.ofNat 64 (2 ^ 63))) ∧
        (¬ idle → Completes (.crnext k rd j) s fun t => PcNext k s t ∧ t.f STK_CR_HEAD_INDEX j = (h + 1) % size % 4096 ∧
          ((∀ x ∈ l, x.id ≠ s.sram32 e) → t.reg k rd = (if rd = 0 then 0 else BitVec.ofNat 64 e) ∧ t.mem = s.mem ∧
            ({ id := s.sram32 e } : DupEntry) ∈ t.stk.dup.get j) ∧
          (∀ x, l.find? (fun x => x.id == s.sram32 e) = some x → x.done = false →
            t.reg k rd = (if rd = 0 then 0 else BitVec.ofNat 64 (2 ^ 62 + e)) ∧ t.sram32 (e + 48) = 2 ^ 30 ∧ t.stk.dup = s.stk.dup ∧
              t.cval dups = min (s.cval dups + 1) (2 ^ 48 - 1)) ∧
          (∀ x, l.find? (fun x => x.id == s.sram32 e) = some x → x.done = true →
            t.reg k rd = (if rd = 0 then 0 else BitVec.ofNat 64 (2 ^ 62 + e)) ∧ t.sram32 (e + 48) = (x.status ||| 2 ^ 30) % 2 ^ 32 ∧
              t.sram32 (e + 52) = x.result % 2 ^ 32 ∧ t.stk.dup = s.stk.dup ∧ t.cval dups = min (s.cval dups + 1) (2 ^ 48 - 1))) ∧
        (o % 64 ≠ 0 ∨ o < 64 * s.f STK_CR_BASE_BASE j ∨ 64 * s.f STK_CR_BASE_BASE j + 64 * size ≤ o → Excepts s k (.crdone k rd ra rb j) 3 0) ∧
        (o % 64 = 0 → 64 * s.f STK_CR_BASE_BASE j ≤ o → o < 64 * s.f STK_CR_BASE_BASE j + 64 * size → o < 2 ^ 24 →
          Completes (.crdone k rd ra rb j) s fun t => PcNext k s t ∧
            t.sram32 (o + 52) = v / 2 ^ 32 ∧ t.sram32 (o + 48) = 2 ^ 31 + v % 2 ^ 16 ∧
            (l.any (fun x => x.id == s.sram32 o && !x.done) = true → t.reg k rd = 0 ∧
              ∀ x ∈ t.stk.dup.get j, x.id = s.sram32 o → x.done = true ∧ x.status = 2 ^ 31 + v % 2 ^ 16 ∧ x.result = v / 2 ^ 32) ∧
            (l.any (fun x => x.id == s.sram32 o && !x.done) = false → t.reg k rd = (if rd = 0 then 0 else 1) ∧ t.stk.dup = s.stk.dup));
  let ringsAreSetUpAndFilled : Prop :=
    ∀ s : State,
        (∀ (j : Fin 2) (i : BitVec 12), Completes (.commandRingTailWrite j i) s fun t => t.f STK_CR_TAIL_INDEX j = i.toNat ∧
          natBit (t.f STK_IRQ_PEND_PEND) j = true ∧ Only [STK_CR_TAIL.addr j 0 0, STK_IRQ_PEND.addr 0 0 0] [] s t) ∧
        (∀ (j : Fin 2) (v : Word), Completes (.ringCfgWrite (j.castLE (by decide)) v) s fun t =>
          t.f STK_CR_CFG_EN j = wordBits v 31 1 ∧ t.f STK_CR_CFG_LOG2 j = max 4 (min 12 (wordBits v 0 4)) ∧ t.f STK_CR_HEAD_INDEX j = 0 ∧
          t.f STK_CR_TAIL_INDEX j = 0 ∧ t.stk.dup.get j = [] ∧
          Only [STK_CR_CFG.addr j 0 0, STK_CR_HEAD.addr j 0 0, STK_CR_TAIL.addr j 0 0] [] { s with stk := t.stk } t) ∧
        (∀ (r : Fin 34) (v : Word), Completes (.ringCfgWrite ⟨r.val + 2, by omega⟩ v) s fun t =>
          t.f STK_RX_CFG_EN r = wordBits v 31 1 ∧ t.f STK_RX_CFG_LOG2 r = max 4 (min 12 (wordBits v 0 4)) ∧
          t.f STK_RX_CFG_SLOT r = max 2 (min 258 (wordBits v 16 9)) ∧ t.f STK_RX_HEAD_INDEX r = 0 ∧ t.f STK_RX_TAIL_INDEX r = 0 ∧
          Only [STK_RX_CFG.addr r 0 0, STK_RX_HEAD.addr r 0 0, STK_RX_TAIL.addr r 0 0] [] s t) ∧
        (∀ r : Fin 34,
          let h := s.f STK_RX_HEAD_INDEX r
          let size := 2 ^ s.f STK_RX_CFG_LOG2 r
          let full : Prop := s.on STK_RX_CFG_EN r = false ∨ (h + 1) % size = s.f STK_RX_TAIL_INDEX r % size
          let l := s.stk.rx.get r
          ∀ ecc : Fin 3, (l.find? (·.ended) = none → exec (.rxRingWrite r ecc) s = .next s) ∧
          ∀ x, l.find? (·.ended) = some x →
            let s' := if x.aux then s else (s.poolMeta ecc).rxGiveUp x
            Completes (.rxRingWrite r ecc) s fun t => t.stk.rx.get r = l.eraseIdx (l.findIdx (·.ended)) ∧
            t = { s' with csr := t.csr, hwSet := t.hwSet, cnt := t.cnt, cntNew := t.cntNew, mem := t.mem, stk := t.stk } ∧
            (full → t.cval C_STK_RX_DROP = min (s'.cval C_STK_RX_DROP + 1) (2 ^ 48 - 1) ∧ t.mem = s.mem ∧ t.csr = s'.csr) ∧
            (¬ full → t.f STK_RX_HEAD_INDEX r = (h + 1) % size % 4096 ∧ natBit (t.f STK_IRQ_PEND_PEND) (if r.val < 32 then 2 else 3) = true ∧
              t.cnt = s'.cnt ∧
              (∀ i, i < 64 * s.f STK_RX_CFG_SLOT r → 64 * s.f STK_RX_BASE_BASE r + h * (64 * s.f STK_RX_CFG_SLOT r) + i < 2 ^ 24 →
                i < (rxSlot x (64 * s.f STK_RX_CFG_SLOT r)).length →
                t.mem.get (stkBase + 64 * s.f STK_RX_BASE_BASE r + h * (64 * s.f STK_RX_CFG_SLOT r) + i) =
                  (rxSlot x (64 * s.f STK_RX_CFG_SLOT r)).getD i 0)));
  commandRingsHandOutAndTakeBackEntries ∧ ringsAreSetUpAndFilled

/-- COMMIT_REQUEST stores SRC, NOW and ANYNUM, and: with CSTATE CHECK or ARMED or a request held it only sets REFUSED; else a number that
R192 does not allow gives RESULT 3 and a CONFIG fault with cause 7; else with NOW 0 and t_c at or before NT it gives RESULT 2, MISSED
and a CONFIG fault with cause 8; else with the slot OPEN the request enters CHECK, and with it RETIRING or in SYNC it is held with
STALLED. The number of the start-up commit of a bank is the bank's, and is judged in CHECK. Before t_c, COMMIT_CANCEL discards a held
request and clears STALLED, or returns the slot of a request in CHECK or ARMED to OPEN, with RESULT 5 and content as it was; once t_c is
reached, and with no request, it changes nothing. At t_c, COMMIT_MISSED discards a held request, or one in CHECK whose slot is OPEN
again (with its content, for SRC 0), with RESULT 2, MISSED and a CONFIG fault with cause 8; before t_c it changes nothing.
(spec/08_table_generations.md) -/
def Obligations.CommitsAreJudgedAndMayEndWithoutEffect : Prop :=
  let commitRequestsAreJudgedInOrder : Prop :=
    ∀ (s : State) (src : Fin 4) (now any : Bool),
        let st := s.f GEN_STAT_CSTATE
        let tc := s.getNs3 GEN_CMT_AT_HI_SEC_HI GEN_CMT_AT_MID_SEC_LO GEN_CMT_AT_LO_NS
        let num := s.f GEN_CMT_NUM_NUM
        let act := s.f GEN_ACTIVE_NUM
        let allowed : Prop := if src ≠ 0 ∧ s.f GEN_BANK_STAT_BOOT_BANK = 2 then True else if s.gen.committed = false then num ≠ 0 else if any then num ≠ act
          else 1 ≤ (num + 2 ^ 32 - act) % 2 ^ 32 ∧ (num + 2 ^ 32 - act) % 2 ^ 32 ≤ 2 ^ 31 - 1
        let late : Prop := now = false ∧ tc * 2 ^ 40 ≤ s.nt
        let r : CommitReq := { num := num, tc := tc, src := src, now := now, anynum := any }
        let stored (t : State) : Prop := t.f GEN_CMT_CTL_SRC = src ∧ t.f GEN_CMT_CTL_NOW = now.toNat ∧ t.f GEN_CMT_CTL_ANYNUM = any.toNat ∧
          Only [GEN_CMT_CTL.addr 0 0 0, GEN_STAT.addr 0 0 0] [] { s with gen := t.gen, flt := t.flt } t
        let busy : Prop := st = 4 ∨ st = 5 ∨ s.gen.held ≠ none
        Completes (.commitRequest src now any) s fun t => stored t ∧
          (busy → t.on GEN_STAT_REFUSED = true ∧ t.gen = s.gen ∧ t.flt = s.flt ∧ t.f GEN_STAT_CSTATE = st) ∧
          (¬ busy → ¬ allowed → t.f GEN_STAT_RESULT = 3 ∧ FaultRaised s t 8 1 7 0 ∧ t.gen = s.gen ∧ t.f GEN_STAT_CSTATE = st) ∧
          (¬ busy → allowed → late → t.f GEN_STAT_RESULT = 2 ∧ t.on GEN_STAT_MISSED = true ∧ FaultRaised s t 8 1 8 0 ∧ t.gen = s.gen) ∧
          (¬ busy → allowed → ¬ late → st = 3 → t.f GEN_STAT_CSTATE = 4 ∧ t.gen = { s.gen with req := some r } ∧ t.flt = s.flt) ∧
          (¬ busy → allowed → ¬ late → st ≠ 3 → t.on GEN_STAT_STALLED = true ∧ t.gen = { s.gen with held := some r } ∧ t.flt = s.flt ∧
            t.f GEN_STAT_CSTATE = st);
  let commitsEndWithoutEffectWhenCancelledOrMissed : Prop :=
    ∀ s : State,
        (∀ r, s.gen.held = some r → r.now = true ∨ s.nt < r.tc * 2 ^ 40 → Completes .commitCancel s fun t =>
          t.gen = { s.gen with held := none } ∧ t.on GEN_STAT_STALLED = false ∧ t.f GEN_STAT_RESULT = 5 ∧
          Only [GEN_STAT.addr 0 0 0] [] { s with gen := t.gen } t) ∧
        (∀ r, s.gen.req = some r → s.gen.held = none → r.now = true ∨ s.nt < r.tc * 2 ^ 40 → Completes .commitCancel s fun t =>
          t.gen = { s.gen with req := none } ∧ t.f GEN_STAT_CSTATE = 3 ∧ t.f GEN_STAT_RESULT = 5 ∧
          Only [GEN_STAT.addr 0 0 0] [] { s with gen := t.gen } t) ∧
        (s.gen.held = none → s.gen.req = none → exec .commitCancel s = .next s) ∧
        (∀ r, s.gen.held.or s.gen.req = some r → r.now = false →
          (r.tc * 2 ^ 40 ≤ s.nt → exec .commitCancel s = .next s) ∧ (s.nt < r.tc * 2 ^ 40 → exec .commitMissed s = .next s)) ∧
        (∀ r, s.gen.held = some r → r.now = false → r.tc * 2 ^ 40 ≤ s.nt → Completes .commitMissed s fun t =>
          t.gen = { s.gen with held := none } ∧ t.on GEN_STAT_STALLED = false ∧ t.f GEN_STAT_RESULT = 2 ∧ t.on GEN_STAT_MISSED = true ∧
          FaultRaised s t 8 1 8 0 ∧ Only [GEN_STAT.addr 0 0 0] [] { s with gen := t.gen, flt := t.flt } t) ∧
        (∀ r, s.gen.req = some r → s.gen.held = none → r.now = false → r.tc * 2 ^ 40 ≤ s.nt → s.f GEN_STAT_CSTATE = 4 →
          Completes .commitMissed s fun t =>
            t.gen.req = none ∧ t.f GEN_STAT_CSTATE = 3 ∧ t.f GEN_STAT_RESULT = 2 ∧ t.on GEN_STAT_MISSED = true ∧
            (r.src = 0 → FaultRaised s t 8 1 8 0 ∧ t.gen = { s.gen with req := none } ∧ Only [GEN_STAT.addr 0 0 0] [] { s with gen := t.gen, flt := t.flt } t));
  commitRequestsAreJudgedInOrder ∧ commitsEndWithoutEffectWhenCancelledOrMissed

/-- With a request of SRC 0 in CHECK whose t_c is not reached, CHECK_COMPLETE makes the slot ARMED, keeps the digest of the checked slot and
the request, and leaves the ACTIVE slot, the frames and copies, the queues, table memory and Stoker SRAM as they were.
(spec/08_table_generations.md) -/
def Obligations.CheckNeverTouchesTheActiveSlot : Prop :=
  ∀ (s : State) (r : CommitReq), s.gen.req = some r → r.src = 0 → s.f GEN_STAT_CSTATE = 4 → (r.now = true ∨ s.nt < r.tc * 2 ^ 40) →
      Completes .checkComplete s fun t =>
        t.f GEN_STAT_CSTATE = 5 ∧ t.active = s.active ∧ t.slot s.active = s.slot s.active ∧ t.gen.req = s.gen.req ∧
        t.gen.checkEnd = s.cc ∧ t.gen.newDigest = (t.slot s.shadow).digest ∧ t.fwd = s.fwd ∧ t.tm = s.tm ∧ t.tab = s.tab ∧ t.mem = s.mem ∧
        t.cnt = s.cnt ∧ t.stk = s.stk

/-- With a request ARMED, COMMIT_TAKE_EFFECT at or after t_c (with NOW, after the cc in which CHECK ended) makes the other slot ACTIVE,
gives GEN_ACTIVE and its GEN_SLOT_NUM the request's number, sets CSTATE to RETIRING with t_s = t_c (with NOW, NT), sets DONE and RESULT
1, shows the digest, raises source COMMIT, and changes the content of neither slot (the start-up commit of a bank also shows that bank
in BOOT_BANK); before that, and with no request ARMED, it changes nothing. RETIRE_SYNC_START moves a RETIRING slot with GEN_SLOT_INFL 0
and no drain running to SYNC with number 0; SYNC_COMPLETE, 32,768 cc later and with no request held, makes it OPEN with the
configuration, key maps, action memories, parser program and multicast groups of the ACTIVE slot, which stays as it is, and a request
that was held then enters CHECK at once; STALE_SWEEP at t_s + MAX_AGE leaves no queued, waiting or unsettled copy of the slot; each does
nothing where its conditions do not hold. (spec/08_table_generations.md) -/
def Obligations.CommitsSwitchAndRetireSlots : Prop :=
  let commitSwitchesTheSlots : Prop :=
    ∀ (s : State),
        (s.gen.req = none ∨ s.f GEN_STAT_CSTATE ≠ 5 → exec .commitTakeEffect s = .next s) ∧
        ∀ r, s.gen.req = some r → s.f GEN_STAT_CSTATE = 5 →
        (r.now = true ∧ s.cc ≤ s.gen.checkEnd ∨ r.now = false ∧ s.nt < r.tc * 2 ^ 40 → exec .commitTakeEffect s = .next s) ∧
        ((r.now = true ∧ s.gen.checkEnd < s.cc) ∨ (r.now = false ∧ r.tc * 2 ^ 40 ≤ s.nt) → Completes .commitTakeEffect s fun t =>
          t.active = s.shadow ∧ t.f GEN_ACTIVE_NUM = r.num % 2 ^ 32 ∧ t.f GEN_SLOT_NUM_NUM s.shadow = r.num % 2 ^ 32 ∧
          t.f GEN_STAT_CSTATE = 0 ∧ t.f GEN_STAT_RESULT = 1 ∧ t.on GEN_STAT_DONE = true ∧ t.gen.req = none ∧ t.gen.committed = true ∧
          t.gen.ts = (if r.now then s.nt else r.tc * 2 ^ 40) ∧ natBit (t.f STK_IRQ_PEND_PEND) 6 = true ∧
          t.f GEN_DIGEST_LO_DIGEST = s.gen.newDigest % 2 ^ 32 ∧ t.slot0 = s.slot0 ∧ t.slot1 = s.slot1 ∧
          t.f GEN_BANK_STAT_BOOT_BANK = if r.src ≠ 0 ∧ s.f GEN_BANK_STAT_BOOT_BANK = 2 then r.bank % 4 else s.f GEN_BANK_STAT_BOOT_BANK);
  let retiredSlotsAreCopiedAndReopened : Prop :=
    ∀ s : State,
        (s.f GEN_STAT_CSTATE = 0 → s.f GEN_SLOT_INFL_COUNT s.shadow = 0 → s.on CHIP_MODE_STAT_DRAIN_ACTIVE = false →
          Completes .retireSyncStart s fun t => t.f GEN_STAT_CSTATE = 1 ∧ t.f GEN_SLOT_NUM_NUM s.shadow = 0 ∧
            t.gen = { s.gen with syncStart := s.cc } ∧ Only [GEN_STAT.addr 0 0 0, GEN_SLOT_NUM.addr s.shadow 0 0] [] { s with gen := t.gen } t) ∧
        (s.f GEN_STAT_CSTATE ≠ 0 ∨ s.f GEN_SLOT_INFL_COUNT s.shadow ≠ 0 ∨ s.on CHIP_MODE_STAT_DRAIN_ACTIVE = true →
          exec .retireSyncStart s = .next s) ∧
        (s.f GEN_STAT_CSTATE = 1 → s.gen.syncStart + 32768 ≤ s.cc → s.gen.held = none → Completes .syncComplete s fun t =>
          t.f GEN_STAT_CSTATE = 3 ∧ t.slot s.shadow = s.slot s.active ∧ t.slot s.active = s.slot s.active ∧ t.active = s.active ∧
          t.fwd = s.fwd ∧ t.mem = s.mem) ∧
        (∀ r, s.gen.held = some r → s.f GEN_STAT_CSTATE = 1 → s.gen.syncStart + 32768 ≤ s.cc → Completes .syncComplete s fun t =>
          t.f GEN_STAT_CSTATE = 4 ∧ t.on GEN_STAT_STALLED = false ∧ t.gen.held = none ∧ t.gen.req = some r ∧ t.slot s.shadow = s.slot s.active) ∧
        (s.f GEN_STAT_CSTATE ≠ 1 ∨ s.cc < s.gen.syncStart + 32768 → exec .syncComplete s = .next s) ∧
        (s.f GEN_STAT_CSTATE ≠ 0 ∨ s.gen.swept = true ∨ s.nt < s.gen.ts + s.f GEN_AGE_MAX_AGE * (1000 * 2 ^ 40) → exec .staleSweep s = .next s) ∧
        (s.f GEN_STAT_CSTATE = 0 → s.gen.swept = false → s.gen.ts + s.f GEN_AGE_MAX_AGE * (1000 * 2 ^ 40) ≤ s.nt → s.fwd.copies.wf = true →
          Completes .staleSweep s fun t => t.gen = { s.gen with swept := true } ∧
            ∀ c, (s.copy c).slot = s.shadow → (s.copy c).state = .queued ∨ (s.copy c).state = .residue → (t.copy c).state = .none);
  commitSwitchesTheSlots ∧ retiredSlotsAreCopiedAndReopened

/-- CHIP_MODE_CLK_WRITE stores USE_AT, DAMPER_FIX (0 as 1, above 32 as 32) and FIXED, sets CLK_PENDING and leaves a request for the next
epoch, or with USE_AT for epoch AT when that is later, and AT_PAST when AT has begun; CLOCK_REQUEST_APPLY before that epoch changes
nothing, and from it on clears CLK_PENDING, shows FIXED in CHIP_MODE.MODE[1] with the other bits as they were, and on going to fixed
frequency sets the VDD_HOB point to 0 and every engine's Damper to DAMPER_FIX. With a drain running, DRAIN_FLUSH before t_c + DRAIN_TX
changes nothing, and from then on leaves no queued copy in a held queue that it found there and marks the flush done; DRAIN_END in the
cc in which an epoch that begins later than t_c begins, by NT or by a jump of it, when every held queue was empty as the cc began,
clears DRAIN_ACTIVE, sets DRAIN_DONE, shows the whole µs since t_c in LAST_DRAIN_US and holds no queue any more; it changes nothing
while a held queue is not empty, and in any other cc. (spec/02_eight_modes.md) -/
def Obligations.ClockModesAndDrainsRun : Prop :=
  let clockRequestsTakeEffectAtTheirEpoch : Prop :=
    ∀ s : State,
        (∀ v : Word,
          let useAt := wordBits v 15 1
          let target := s.f CHIP_MODE_AT_HI_EPOCH_HI * 2 ^ 32 + s.f CHIP_MODE_AT_LO_EPOCH_LO
          let e := s.nt / (1000 * 2 ^ 40) % 2 ^ 64
          let d := max 1 (min 32 (wordBits v 8 6))
          Completes (.chipModeClkWrite v) s fun t =>
            t.f CHIP_MODE_CLK_USE_AT = useAt ∧ t.f CHIP_MODE_CLK_DAMPER_FIX = d ∧ t.f CHIP_MODE_CLK_FIXED = wordBits v 0 1 ∧
            t.on CHIP_MODE_STAT_CLK_PENDING = true ∧ (useAt = 1 → target ≤ e → t.on CHIP_MODE_STAT_AT_PAST = true) ∧
            t.clk = some { fixed := wordBits v 0 1 == 1, damper := d, epoch := if useAt = 1 then max target (e + 1) else e + 1 } ∧
            Only [CHIP_MODE_CLK.addr 0 0 0, CHIP_MODE_STAT.addr 0 0 0] [] { s with clk := t.clk } t) ∧
        (∀ r, s.clk = some r → s.nt / (1000 * 2 ^ 40) % 2 ^ 64 < r.epoch → exec .clockRequestApply s = .next s) ∧
        (∀ r, s.clk = some r → r.epoch ≤ s.nt / (1000 * 2 ^ 40) % 2 ^ 64 → Completes .clockRequestApply s fun t =>
          t.clk = none ∧ t.on CHIP_MODE_STAT_CLK_PENDING = false ∧ natBit (t.f CHIP_MODE_MODE) 1 = r.fixed ∧
          natBit (t.f CHIP_MODE_MODE) 0 = natBit (s.f CHIP_MODE_MODE) 0 ∧ natBit (t.f CHIP_MODE_MODE) 2 = natBit (s.f CHIP_MODE_MODE) 2 ∧
          (r.fixed = true → t.f PWR_BELLOWS_POINT = 0 ∧ ∀ e : Fin 32, t.f HOB_ENG_STAT_DAMPER e = r.damper % 64) ∧
          (r.fixed = false → ∀ e : Fin 32, t.f HOB_ENG_STAT_DAMPER e = s.f HOB_ENG_STAT_DAMPER e));
  let drainsFlushAndEnd : Prop :=
    ∀ s : State, s.on CHIP_MODE_STAT_DRAIN_ACTIVE = true →
        (s.nt < s.tm.drainTx → exec .drainFlush s = .next s) ∧
        (s.tm.flushed = false → s.tm.drainTx ≤ s.nt → s.fwd.copies.wf = true → Completes .drainFlush s fun t => t.tm.flushed = true ∧
          t.tm.held = s.tm.held ∧ ∀ c, (s.copy c).state = .queued → s.queueHeld (s.copy c).port (s.copy c).queue = true →
            (t.copy c).state = .none) ∧
        (s.tm.heldEmpty = false ∨ s.time.epochCc ≠ s.cc → exec .drainEnd s = .next s) ∧
        (s.tm.heldEmpty = true → s.time.epochCc = s.cc → s.tm.drainFrom < s.time.epochSeen * (1000 * 2 ^ 40) →
          Completes .drainEnd s fun t => t.on CHIP_MODE_STAT_DRAIN_ACTIVE = false ∧ t.on CHIP_MODE_STAT_DRAIN_DONE = true ∧
            t.f CHIP_MODE_STAT_LAST_DRAIN_US =
              (s.time.epochSeen * (1000 * 2 ^ 40) - s.tm.drainFrom) / (1000 * 2 ^ 40) % 2 ^ CHIP_MODE_STAT_LAST_DRAIN_US.w ∧
            t.tm = { s.tm with held := [], drainFrom := 0, drainTx := 0, flushed := false, heldEmpty := false } ∧
            Only [CHIP_MODE_STAT.addr 0 0 0] [] { s with tm := t.tm } t);
  clockRequestsTakeEffectAtTheirEpoch ∧ drainsFlushAndEnd

/-- LANE_ENABLE of a disabled lane in OFF stores EN and, with its PLL locked, no PRBS, no loopback, not safe and not asleep, begins an
attempt in WAIT_SIG; PARTNER_FRAME_LOCK, TRAIN_CONVERGED and PARTNER_READY move it on to TRAIN, CONFIRM and ALIGN and change nothing in
another state; PORT_ALIGNED with every lane of the port in ALIGN, markers that agree and every skew within 180 ns puts them in DATA with
FAILS 0 (with markers that disagree it changes nothing); TRAINING_SIGNAL_LOSS returns the training lanes of the port to WAIT_SIG;
TRAIN_TMO_EXPIRY after TMO_MS puts a lane that trains alone in BACKOFF with TRAIN_FAIL and FAILS one more; BACKOFF_END after the wait,
and BACKOFF_SIGNAL_PRESENT at once, begin a new attempt; LANE_DISABLE goes to OFF with cause 0 and FAILS 0. Codewords that a lane
receives count: one of 1 to 15 wrong symbols as corrected with its symbols, one of more as uncorrectable, and a ninth uncorrectable one
within 1,024 fails the lane with cause 4. LANE_FAILURE with cause 2, 3 or 6 outside Ember sets LINK_FAIL and FAIL_CAUSE of the lane and
begins a new attempt in WAIT_SIG. A marker of a 425 Gb/s lane is valid by R70's fields and SEQ (MARK, complement, SEQ + 1), one of
another rate as IEEE 802.3 judges it (an operand, log 62); MARKER_RECEIVED, two valid ones in a row at the spacing, gives AM_LOCK, a
third invalid one in a row fails a lane in DATA with cause 3, and WIDTH or LANE_IDX that disagree with the port fail it with cause 6;
neither changes anything in Ember. ADAPTATION_FREEZE and _RESUME set and clear FROZEN; RX_EMBER_ENTRY on a lane in DATA at 106.25 Gb/s
or above sets RX_EMBER and FROZEN, and RX_EMBER_EXIT clears both; EMBER_ENTRY of a lane whose port is in LPI sets TX_EMBER,
EMBER_REFRESH starts a new period when one has passed, EMBER_EXIT once the port has left LPI clears TX_EMBER; EMBER_REFRESH_MISS fails
the lane with cause 2. (spec/03_lanes.md) -/
def Obligations.LanesTrainServeAndFail : Prop :=
  let lanesTrainToData : Prop :=
    ∀ (s : State) (n : Fin 514),
        let st := s.f LANE_STAT_STATE n
        let more (t : State) : Prop := t.f LANE_ATTEMPTS_COUNT n = min (s.f LANE_ATTEMPTS_COUNT n + 1) (2 ^ 32 - 1) ∧ (t.ln n).tmoStart = s.cc
        (s.on LANE_CTL_EN n = false → Completes (.laneEnable n) s fun t => t.on LANE_CTL_EN n = true ∧
          (st = 0 → s.safe = false → s.pllLocked n = true → s.auxAsleep n = false → s.prbsOn n = false → s.f LANE_CTL_LOOP n = 0 →
            t.f LANE_STAT_STATE n = 1 ∧ more t ∧
            Only [LANE_CTL.addr n 0 0, LANE_STAT.addr n 0 0, LANE_ATTEMPTS.addr n 0 0] [] { s with lanes := t.lanes } t) ∧
          (st = 0 → s.pllLocked n = false → t.f LANE_STAT_STATE n = 0)) ∧
        (∀ p ∈ [(Instr.partnerFrameLock n, 1), (.trainConverged n, 2), (.partnerReady n, 3)],
          (st = p.2 → Completes p.1 s fun t => t.f LANE_STAT_STATE n = p.2 + 1 ∧ (p.2 = 1 → t.on LANE_STAT_SIG_DET n = true) ∧
            Only [LANE_STAT.addr n 0 0] [] { s with lanes := t.lanes, free := t.free } t) ∧
          (st ≠ p.2 → exec p.1 s = .next s)) ∧
        (∀ skews : List Nat, (∀ x ∈ skews, x ≤ 1800) → s.siblings n ≠ [] → (s.siblings n).Nodup → (∀ m ∈ s.siblings n, s.f LANE_STAT_STATE m = 4) →
          s.mismatch (s.siblings n) = false → Completes (.portAligned n skews) s fun t => ∀ m ∈ s.siblings n, t.f LANE_STAT_STATE m = 5 ∧ t.f LANE_BACKOFF_FAILS m = 0 ∧
            t.on LANE_STAT_BLOCK_LOCK m = true ∧ t.on LANE_STAT_AM_LOCK m = true) ∧
        (∀ skews : List Nat, s.mismatch (s.siblings n) = true → exec (.portAligned n skews) s = .next s) ∧
        (2 ≤ st → st ≤ 4 → (s.siblings n).Nodup → Completes (.trainingSignalLoss n) s fun t =>
          ∀ m ∈ s.siblings n, s.training m = true → t.f LANE_STAT_STATE m = 1) ∧
        (s.training n = true → s.siblings n = [n] → (s.ln n).tmoStart + s.f LANE_TRAIN_CFG_TMO_MS n * 1500000 ≤ s.cc →
          Completes (.trainTmoExpiry n) s fun t => t.f LANE_STAT_STATE n = 6 ∧ t.on LANE_STAT_TRAIN_FAIL n = true ∧
            t.f LANE_BACKOFF_FAILS n = min (s.f LANE_BACKOFF_FAILS n + 1) 255 ∧
            (t.ln n).backEnd = s.cc + min (s.f LANE_TRAIN_CFG_TMO_MS n * 2 ^ (t.f LANE_BACKOFF_FAILS n - 1)) 8000 * 1500000) ∧
        (s.cc < (s.ln n).tmoStart + s.f LANE_TRAIN_CFG_TMO_MS n * 1500000 → exec (.trainTmoExpiry n) s = .next s) ∧
        (st = 6 → (s.ln n).backEnd ≤ s.cc → Completes (.backoffEnd n) s fun t => t.f LANE_STAT_STATE n = 1 ∧ more t) ∧
        (st = 6 → Completes (.backoffSignalPresent n) s fun t => t.f LANE_STAT_STATE n = 1 ∧ t.on LANE_STAT_SIG_DET n = true ∧ more t) ∧
        (Completes (.laneDisable n) s fun t => t.on LANE_CTL_EN n = false ∧ t.f LANE_STAT_STATE n = 0 ∧ t.f LANE_STAT_FAIL_CAUSE n = 0 ∧
          t.f LANE_BACKOFF_FAILS n = 0);
  let lanesInDataFailFreezeAndSleep : Prop :=
    ∀ (s : State) (n : Fin 514), s.f LANE_STAT_STATE n = 5 →
        let only (t : State) : Prop := Only [LANE_STAT.addr n 0 0] [] { s with lanes := t.lanes } t
        let fails (c : Nat) (t : State) : Prop := t.f LANE_STAT_STATE n = 1 ∧ t.on LANE_STAT_LINK_FAIL n = true ∧ t.f LANE_STAT_FAIL_CAUSE n = c
        let whole : Prop := n.val ∈ s.siblings n ∧ (s.siblings n).Nodup
        (∀ g e : Nat, s.on LANE_STAT_RX_EMBER n = false →
          let k := (s.ln n).codewords + g
          let before := ((s.ln n).spoilt.filter (fun i => k < i + 1024)).length
          (e = 0 → Completes (.laneFailure n 4 [(g, e)]) s fun t => t.cnt = s.cnt ∧ t.csr = s.csr) ∧
          (1 ≤ e → e ≤ 15 → Completes (.laneFailure n 4 [(g, e)]) s fun t => t.csr = s.csr ∧
            t.cval C_LANE_FEC_CORR n = min (s.cval C_LANE_FEC_CORR n + 1) (2 ^ 48 - 1) ∧
            t.cval C_LANE_FEC_SYM n = min (s.cval C_LANE_FEC_SYM n + e) (2 ^ 48 - 1)) ∧
          (16 ≤ e → Completes (.laneFailure n 4 [(g, e)]) s fun t =>
            t.cval C_LANE_FEC_UNCORR n = min (s.cval C_LANE_FEC_UNCORR n + 1) (2 ^ 48 - 1) ∧
            (before < 8 → t.csr = s.csr) ∧ (8 ≤ before → whole → fails 4 t))) ∧
        (∀ (fec : List (Nat × Nat)) (good : Bool) (m : BitVec 257) (pairs : Nat),
          (s.on LANE_STAT_RX_EMBER n = true → (∀ c : Fin 16, exec (.laneFailure n c fec) s = .next s) ∧
            exec (.markerReceived n good m pairs fec) s = .next s) ∧
          (s.on LANE_STAT_RX_EMBER n = false →
            let u := s.codewordsIn n fec
            let fast := s.laneRate s.active n = 0
            let order := (m.extractLsb' 233 24 = 0x5CD1E3#24) ∧ m.extractLsb' 161 48 = ~~~(m.extractLsb' 209 48) ∧
              ∀ q, (u.ln n).seq = some q → (m.extractLsb' 209 8).toNat = (q + 1) % 256
            let valid := (fast ∧ order) ∨ (¬ fast ∧ good = true)
            let v := if s.laneRate s.active n = 0 then u.setLn n (fun x => { x with
                seq := some (m.extractLsb' 209 8).toNat, idx := some (m.extractLsb' 225 8).toNat,
                misWidth := (m.extractLsb' 217 8).toNat != (s.siblings n).length }) else u
            u.f LANE_STAT_STATE n = 5 →
              (∀ c ∈ [2, 3, 6], whole → Completes (.laneFailure n (Fin.ofNat 16 c) fec) s (fails c)) ∧
              (valid → 1 ≤ (u.ln n).goodMarks → (fast → pairs = 4096) → v.mismatch (s.siblings n) = false →
                Completes (.markerReceived n good m pairs fec) s fun t => t.on LANE_STAT_AM_LOCK n = true ∧
                  (t.ln n).badMarks = 0 ∧ (fast → (t.ln n).seq = some (m.extractLsb' 209 8).toNat) ∧
                  Only [LANE_STAT.addr n 0 0] [] { u with lanes := t.lanes } t) ∧
              (valid → v.mismatch (s.siblings n) = true → whole → Completes (.markerReceived n good m pairs fec) s (fails 6)) ∧
              (¬ valid → (u.ln n).badMarks < 2 → Completes (.markerReceived n good m pairs fec) s fun t =>
                t.csr = u.csr ∧ (t.ln n).badMarks = (u.ln n).badMarks + 1 ∧ Only [] [] { u with lanes := t.lanes } t) ∧
              (¬ valid → 2 ≤ (u.ln n).badMarks → whole → Completes (.markerReceived n good m pairs fec) s fun t =>
                fails 3 t ∧ t.on LANE_STAT_AM_LOCK n = false))) ∧
        (Completes (.adaptationFreeze n) s fun t => t.on LANE_STAT_FROZEN n = true ∧ only t) ∧
        (s.on LANE_STAT_RX_EMBER n = false → Completes (.adaptationResume n) s fun t => t.on LANE_STAT_FROZEN n = false ∧ only t) ∧
        (n.val < 512 → s.laneRate s.active n ≤ 2 →
          (Completes (.rxEmberEntry n) s fun t => t.on LANE_STAT_RX_EMBER n = true ∧ t.on LANE_STAT_FROZEN n = true) ∧
          (s.laneLpi n = true → Completes (.emberEntry n) s fun t => t.on LANE_STAT_TX_EMBER n = true ∧ (t.ln n).refreshAt = s.cc ∧ only t)) ∧
        (s.on LANE_STAT_RX_EMBER n = true → Completes (.rxEmberExit n) s fun t =>
          t.on LANE_STAT_RX_EMBER n = false ∧ t.on LANE_STAT_FROZEN n = false) ∧
        (s.on LANE_STAT_TX_EMBER n = true → (s.ln n).refreshAt + s.refreshCc n ≤ s.cc → Completes (.emberRefresh n) s fun t =>
          (t.ln n).refreshAt = s.cc ∧ t.csr = s.csr ∧ only t) ∧
        (s.on LANE_STAT_TX_EMBER n = true → s.laneLpi n = false → Completes (.emberExit n) s fun t => t.on LANE_STAT_TX_EMBER n = false ∧ only t) ∧
        (s.on LANE_STAT_RX_EMBER n = true → n.val ∈ s.siblings n → (s.siblings n).Nodup → Completes (.emberRefreshMiss n) s fun t =>
          t.f LANE_STAT_STATE n = 1 ∧ t.f LANE_STAT_FAIL_CAUSE n = 2 ∧ t.on LANE_STAT_RX_EMBER n = false);
  lanesTrainToData ∧ lanesInDataFailFreezeAndSleep

/-- REFCLK_PRESENT shows the input; REFCLK_LOST clears PRESENT and the PLL lock of every octet it serves and puts their lanes in OFF with
cause 7; PLL_LOCK of an octet with its input present and no conflict shows the lock; PRBS_ENABLE of a lane that may run enters PRBS with
the pattern (codes 9 to 15 as 5), INSERT_ERR inverts one generated bit, PRBS_CHECKER_LOCK shows the lock once 1,024 bits after the seed
follow R88's polynomial, and PRBS_LOCK_LOST counts the errors against the checker's own pattern and above 64 clears the lock and sets
LOCK_LOST; LANE_LOOP_CHANGE stores LOOP (codes 4 to 7 as 0); LANE_AUX_CFG_WRITE stores a new RATE 2 to 4 with the lane in OFF and sets
CFG_ERR for another; AUX_SLEEP sets SLEEP with lane OFF, port DISABLED and no frame left for its ring, and AUX_WAKE_PATTERN with WAKE_EN
ends it, sets WAKE and raises source WAKE. (spec/03_lanes.md, spec/04_mac.md) -/
def Obligations.LaneClocksPatternsAndAuxPorts : Prop :=
  ∀ s : State,
      (∀ k : Fin 8, (Completes (.refclkPresent k) s fun t => t.on LANE_REFCLK_PRESENT k = true ∧ Only [LANE_REFCLK.addr k 0 0] [] s t) ∧
        (s.on LANE_REFCLK_PRESENT k = true → Completes (.refclkLost k) s fun t => t.on LANE_REFCLK_PRESENT k = false ∧
          (∀ o, o < 8 → t.on LANE_OCT_STAT_PLL_LOCK (8 * k.val + o) = false) ∧
          (∀ i, i < 64 → t.f LANE_STAT_STATE (64 * k.val + i) = 0 ∧ t.f LANE_STAT_FAIL_CAUSE (64 * k.val + i) = 7))) ∧
      (∀ o : Fin 64, s.on LANE_REFCLK_PRESENT (o.val / 8) = true → s.on LANE_OCT_STAT_SPREAD_CONFLICT o = false →
        Completes (.pllLock (o.castLE (by decide))) s fun t => t.on LANE_OCT_STAT_PLL_LOCK o = true) ∧
      (∀ (n : Fin 514) (pat : Fin 16), s.safe = false → s.pllLocked n = true → s.auxAsleep n = false →
        Completes (.prbsEnable n true true pat) s fun t => t.f LANE_STAT_STATE n = 8 ∧ t.on LANE_PRBS_GEN_EN n = true ∧
          t.on LANE_PRBS_CHK_EN n = true ∧ t.f LANE_PRBS_PATTERN n = if 9 ≤ pat.val then 5 else pat.val) ∧
      (∀ n : Fin 514, s.f LANE_STAT_STATE n = 8 →
        (s.on LANE_PRBS_GEN_EN n = true → Completes (.insertErr n) s fun t =>
          (t.ln n).inverted.dropLast = (s.ln n).inverted ∧ (t.ln n).inverted.length = (s.ln n).inverted.length + 1 ∧ t = { s with lanes := t.lanes }) ∧
        (∀ bits : List Bool, s.on LANE_PRBS_CHK_EN n = true → s.on LANE_PRBS_CHK_LOCK n = false →
          let taps := [[7, 6], [9, 5], [13, 12, 2, 1], [15, 14], [23, 18], [31, 28], [13, 12, 2, 1], [31, 28]].getD (s.f LANE_PRBS_PATTERN n) [16]
          let d := taps.headD 16
          d + 1024 ≤ bits.length →
          (∀ i, d ≤ i → i < bits.length →
            bits.getD i false = taps.foldl (fun a x => xor a (bits.getD (i - x) false)) (s.f LANE_PRBS_PATTERN n == 8)) →
          Completes (.prbsCheckerLock n bits) s fun t =>
            t.on LANE_PRBS_CHK_LOCK n = true ∧ Only [LANE_PRBS.addr n 0 0] [] { s with lanes := t.lanes } t)) ∧
      (∀ (n : Fin 514) (bits : List Bool), s.on LANE_PRBS_CHK_LOCK n = true → Completes (.prbsLockLost n bits) s fun t =>
        let e := (patternErrors (s.f LANE_PRBS_PATTERN n) (s.ln n).checker bits).1
        t.cval C_LANE_PRBS_ERR n = min (s.cval C_LANE_PRBS_ERR n + e) (2 ^ 48 - 1) ∧
        (64 < e → t.on LANE_PRBS_CHK_LOCK n = false ∧ t.on LANE_PRBS_LOCK_LOST n = true) ∧
        (e ≤ 64 → t.csr = s.csr) ∧ Only [LANE_PRBS.addr n 0 0] [C_LANE_PRBS_ERR.addr n 0] { s with lanes := t.lanes } t) ∧
      (∀ (n : Fin 514) (l : Fin 8), Completes (.laneLoopChange n l) s fun t => t.f LANE_CTL_LOOP n = if 4 ≤ l.val then 0 else l.val) ∧
      (∀ (a : Fin 2) (r : Fin 8),
        (2 ≤ r.val → r.val ≤ 4 → r.val ≠ s.f LANE_AUX_CFG_RATE a → Completes (.laneAuxCfgWrite a r) s fun t =>
          t.f LANE_AUX_CFG_RATE a = r.val ∧ t.f LANE_STAT_STATE (512 + a.val) = 0) ∧
        (r.val < 2 ∨ 4 < r.val → Completes (.laneAuxCfgWrite a r) s fun t => t.on LANE_AUX_CFG_CFG_ERR a = true ∧
          t.f LANE_AUX_CFG_RATE a = s.f LANE_AUX_CFG_RATE a ∧ Only [LANE_AUX_CFG.addr a 0 0] [] s t)) ∧
      (∀ a : Fin 2, (Completes (.auxSleep a) s fun t => t.on MAC_AUX_CTL_SLEEP a = true ∧ t.f LANE_STAT_STATE (512 + a.val) = 0 ∧
          t.f MAC_PORT_STAT_STATE (512 + a.val) = 0 ∧ t.stk.rx.get (32 + a.val) = []) ∧
        (s.on MAC_AUX_CTL_WAKE_EN a = true → s.on MAC_AUX_CTL_SLEEP a = true → Completes (.auxWakePattern a) s fun t =>
          t.on MAC_AUX_CTL_SLEEP a = false ∧ t.on MAC_AUX_CTL_WAKE a = true ∧ natBit (t.f STK_IRQ_PEND_PEND) 4 = true))

/-- PORT_UP of a DOWN port with its link ready and no fault received goes to HELD while a flush runs, else to UP with its domain link,
unless EDGE, in QUARANTINED with cause 1; otherwise it changes nothing. FLUSH_DONE clears FLUSHING, sets the flag and takes a HELD port
UP. LOCAL_FAULT_RX shows LF and takes a HELD or UP port DOWN, and when the fault ends LF shows the trunk layer's alone; leaving UP sets
DOWN_EV, ends every copy being sent, drops the generated frames and waiting start blocks, clears the pause timers and LPI, takes the
domain link DOWN unless EDGE and starts a flush. REMOTE_FAULT_RX shows RF and leaves the state; REMOTE_FAULT_TIMEOUT after 1,500,000 cc
takes the port DOWN and before that changes nothing; REMOTE_FAULT_CLEAR clears RF. MAC_CT_WRITE stores T_BASE and makes T_CUR the larger
of the two, and nothing else changes. WHOLE_SECOND_TICK in a new second lowers by one the T_CUR of every port whose T_CUR exceeds its
T_BASE and that no underrun was charged to since the last, never below T_BASE, leaves every other T_CUR and every T_BASE, clears the
marks of the underruns and the count of corrections, and counts the whole seconds that were passed over; in the same second it changes
nothing. (spec/04_mac.md) -/
def Obligations.PortsComeUpGoDownAndCrossThresholds : Prop :=
  let portsComeUpAndGoDown : Prop :=
    ∀ (s : State) (p : Fin 514),
        let st := s.f MAC_PORT_STAT_STATE p
        let dom := s.f DOM_PORT_STAT_STATE p
        let held : Prop := p.val < 512 ∧ s.on TM_PORT_STAT_FLUSHING p = true
        let left (t : State) : Prop := t.on MAC_PORT_STAT_DOWN_EV p = true ∧ (t.mp p).pauseEnd = 0 ∧ (t.mp p).pfcEnd = [] ∧
          t.on MAC_PORT_STAT_LPI_TX p = false ∧ (p.val < 512 → dom ≠ 3 → t.f DOM_PORT_STAT_STATE p = 0) ∧
          (p.val < 512 → t.on TM_PORT_STAT_FLUSHING p = true) ∧ (t.mp p).gen = [] ∧ (t.mp p).genOut = none ∧ t.fwd.wait.get p = [] ∧
          (s.fwd.copies.wf = true → ∀ c, (s.copy c).state = .sending → (s.copy c).port = p → (t.copy c).state = .none)
        (st = 1 → s.linkReady p = true → s.on MAC_PORT_STAT_LF p = false → s.on MAC_PORT_STAT_RF p = false →
          (held → Completes (.portUp p) s fun t => t.f MAC_PORT_STAT_STATE p = 2 ∧ Only [MAC_PORT_STAT.addr p 0 0] [] s t) ∧
          (¬ held → Completes (.portUp p) s fun t => t.f MAC_PORT_STAT_STATE p = 3 ∧
            (p.val < 512 → dom ≠ 3 → t.f DOM_PORT_STAT_STATE p = 1 ∧ t.f DOM_PORT_STAT_CAUSE p = 1 ∧ t.f DOM_PORT_STAT_AGREE_CNT p = 0) ∧
            (dom = 3 → t.f DOM_PORT_STAT_STATE p = 3) ∧
            Only [MAC_PORT_STAT.addr p 0 0, DOM_PORT_STAT.addr p 0 0] [] { s with mac := t.mac, dom := t.dom } t)) ∧
        (st ≠ 1 ∨ s.linkReady p = false ∨ s.on MAC_PORT_STAT_LF p = true ∨ s.on MAC_PORT_STAT_RF p = true → exec (.portUp p) s = .next s) ∧
        (∀ (q : Fin 512) (ecc : Fin 3), s.on TM_PORT_STAT_FLUSHING q = true →
          ((s.tp q).flushEnd ≤ s.cc → Completes (.flushDone q ecc) s fun t => t.on TM_PORT_STAT_FLUSHING q = false ∧
            t.on TM_PORT_STAT_FLUSH_DONE q = true ∧
            t.f MAC_PORT_STAT_STATE q = (if s.f MAC_PORT_STAT_STATE q = 2 then 3 else s.f MAC_PORT_STAT_STATE q) ∧
            Only [TM_PORT_STAT.addr q 0 0, MAC_PORT_STAT.addr q 0 0, DOM_PORT_STAT.addr q 0 0] []
              { s.poolMeta ecc with mac := t.mac, dom := t.dom } t) ∧
          (s.cc < (s.tp q).flushEnd → exec (.flushDone q ecc) s = .next s)) ∧
        (Completes (.localFaultRx p true) s fun t => t.on MAC_PORT_STAT_LF p = true ∧ t.f MAC_PORT_STAT_STATE p = (if 2 ≤ st then 1 else st) ∧
          (st = 3 → left t) ∧ (st < 2 → Only [MAC_PORT_STAT.addr p 0 0] [] { s with mac := t.mac } t)) ∧
        (Completes (.localFaultRx p false) s fun t => t.on MAC_PORT_STAT_LF p = (s.mp p).trunkFault ∧
          Only [MAC_PORT_STAT.addr p 0 0] [] { s with mac := t.mac } t) ∧
        (s.on MAC_PORT_STAT_RF p = false → Completes (.remoteFaultRx p) s fun t => t.on MAC_PORT_STAT_RF p = true ∧
          t.f MAC_PORT_STAT_STATE p = st ∧ (t.mp p).rfFrom = some s.cc ∧ Only [MAC_PORT_STAT.addr p 0 0] [] { s with mac := t.mac } t) ∧
        (∀ t0, (s.mp p).rfFrom = some t0 →
          (t0 + 1500000 ≤ s.cc → 2 ≤ st → Completes (.remoteFaultTimeout p) s fun t => t.f MAC_PORT_STAT_STATE p = 1 ∧ (st = 3 → left t)) ∧
          (s.cc < t0 + 1500000 → exec (.remoteFaultTimeout p) s = .next s)) ∧
        (Completes (.remoteFaultClear p) s fun t => t.on MAC_PORT_STAT_RF p = false ∧ (t.mp p).rfFrom = none ∧
          t.f MAC_PORT_STAT_STATE p = st ∧ Only [MAC_PORT_STAT.addr p 0 0] [] { s with mac := t.mac } t);
  let thresholdsRiseAndDecay : Prop :=
    ∀ s : State,
        (∀ (p : Fin 514) (b : Fin 64), Completes (.macCtWrite p b) s fun t => t.f MAC_CT_T_BASE p = b ∧
          t.f MAC_CT_T_CUR p = max (s.f MAC_CT_T_CUR p) b ∧ Only [MAC_CT.addr p 0 0] [] s t) ∧
        (ntSec s.nt ≤ s.time.secondDone → exec .wholeSecondTick s = .next s) ∧
        (s.time.secondDone < ntSec s.nt → Completes .wholeSecondTick s fun t =>
          (∀ p : Fin 514, let k := s.f MAC_CT_T_CUR p
            t.f MAC_CT_T_CUR p = (if s.f MAC_CT_T_BASE p < k ∧ (s.mp p).underrun = false then k - 1 else k) ∧
            t.f MAC_CT_T_BASE p = s.f MAC_CT_T_BASE p ∧ (t.mp p).underrun = false) ∧
          t.fwd = { s.fwd with corrections := 0, corrRaised := false } ∧ t.time = { s.time with secondDone := ntSec s.nt, secondCc := s.cc } ∧
          t.cval C_TIME_SKIP = min (s.cval C_TIME_SKIP + (ntSec s.nt - s.time.secondDone - 1)) (2 ^ 48 - 1) ∧
          RegsBut ((List.range 514).map fun p => MAC_CT.addr p 0 0) s t ∧ CountersBut [C_TIME_SKIP.addr 0 0] s t);
  portsComeUpAndGoDown ∧ thresholdsRiseAndDecay

/-- PAUSE_DECODE of a pending pause due now restarts the port's timer from this cc: value 0 releases, another value v stops every queue that
PAUSE_EXEMPT does not name for v x 512 bit times of the port rate, rounded up to the cc; PFC_DECODE does so for each priority that the
frame addresses and leaves the others, and every queue that MAC_PFC_MAP gives a paused priority is paused; PAUSE_TIMER_EXPIRY forgets
the timers that have run out and keeps the others; nothing but the MAC state of that port changes. LPI_ENTRY of an UP port that is not a
trunk port, with MAC_EEE.EN 1, no metered mode, its 12 queues empty, no generated frame pending, no frame in flight and IDLE_US passed
since these conditions began to hold, shows LPI_TX and counts an entry; before IDLE_US, or with a queue that is not empty, it changes
nothing. LPI_EXIT of a port in LPI with a queue that is not empty or a generated frame pending clears LPI_TX and requests the exit, and
until LPI_WAKE_END, TW_TX_US later, every queue is held as paused; before that LPI_WAKE_END changes nothing. (spec/04_mac.md) -/
def Obligations.PortsPauseAndSleep : Prop :=
  let pauseAndPfcStopQueues : Prop :=
    ∀ (s : State) (p : Fin 512),
        let time (v : Nat) := if v = 0 then 0 else s.cc + (if s.portRate p true = 0 then 0 else ceilDiv (76800 * v) (s.portRate p true))
        let mine (t : State) : Prop := t = { s with mac := t.mac } ∧ ∀ p' : Fin 514, p'.val ≠ p.val → t.mp p' = s.mp p'
        (∀ d ∈ (s.mp p).decode, (s.mp p).decode.head? = some d → d.at_ ≤ s.cc →
          (d.pfc = false → Completes (.pauseDecode p) s fun t => mine t ∧ (t.mp p).decode = (s.mp p).decode.tail ∧
            (t.mp p).pauseEnd = time (d.times.headD 0) ∧ (t.mp p).pfcEnd = (s.mp p).pfcEnd ∧
            (∀ q : Fin 12, ∀ c : Nat, natBit (s.f MAC_FC_CFG_PAUSE_EXEMPT p) q = false → c < time (d.times.headD 0) → t.fcPaused p q c = true)) ∧
          (d.pfc = true → Completes (.pfcDecode p) s fun t => mine t ∧ (t.mp p).decode = (s.mp p).decode.tail ∧
            (t.mp p).pauseEnd = (s.mp p).pauseEnd ∧
            (∀ pr : Fin 8, (t.mp p).pfcEnd.get pr = if natBit d.vector pr then time (d.times.getD pr 0) else (s.mp p).pfcEnd.get pr) ∧
            (∀ (pr : Fin 8) (q : Fin 12) (c : Nat), natBit d.vector pr = true → c < time (d.times.getD pr 0) →
              natBit (if pr.val % 2 = 0 then s.f MAC_PFC_MAP_MAP_EVEN p (pr.val / 2) else s.f MAC_PFC_MAP_MAP_ODD p (pr.val / 2)) q = true →
              t.fcPaused p q c = true))) ∧
        ((∀ d ∈ (s.mp p).decode, s.cc < d.at_) → exec (.pauseDecode p) s = .next s ∧ exec (.pfcDecode p) s = .next s) ∧
        (Completes (.pauseTimerExpiry p) s fun t => mine t ∧ (t.mp p).pauseEnd = (if (s.mp p).pauseEnd ≤ s.cc then 0 else (s.mp p).pauseEnd) ∧
          ((s.mp p).pfcEnd.wf = true → ∀ pr : Fin 8, (t.mp p).pfcEnd.get pr = if (s.mp p).pfcEnd.get pr ≤ s.cc then 0 else (s.mp p).pfcEnd.get pr) ∧
          (t.mp p).decode = (s.mp p).decode);
  let portsSleepAndWake : Prop :=
    ∀ (s : State) (p : Fin 512),
        let idle : Prop := s.on MAC_EEE_EN p = true ∧ natBit (s.f CHIP_MODE_MODE) 2 = false ∧ s.f MAC_PORT_STAT_STATE p = 3 ∧
          s.isTrunk s.active p = false ∧ (∀ q, q < 12 → s.queue p q = []) ∧ (s.mp p).gen = [] ∧ (s.mp p).openFrame = none ∧
          (s.mp p).lineEnd ≤ s.cc ∧ s.sendingOn p = [] ∧ s.flushable p = []
        (∀ t0, (s.mp p).idleFrom = some t0 → idle → (s.mp p).asleep = false → (s.mp p).lpiExit = none → t0 + 1500 * s.f MAC_EEE_IDLE_US p ≤ s.cc →
          Completes (.lpiEntry p) s fun t => t.on MAC_PORT_STAT_LPI_TX p = true ∧ (t.mp p).asleep = true ∧
            t.cval C_LPI_ENTRIES p = min (s.cval C_LPI_ENTRIES p + 1) (2 ^ 48 - 1) ∧
            Only [MAC_PORT_STAT.addr p 0 0] [C_LPI_ENTRIES.addr p 0] { s with mac := t.mac } t) ∧
        (∀ t0, (s.mp p).idleFrom = some t0 → s.cc < t0 + 1500 * s.f MAC_EEE_IDLE_US p → exec (.lpiEntry p) s = .next s) ∧
        ((s.mp p).idleFrom = none → exec (.lpiEntry p) s = .next s) ∧
        (∀ q, q < 12 → s.queue p q ≠ [] → exec (.lpiEntry p) s = .next s) ∧
        ((s.mp p).asleep = true → ¬ ((∀ q, q < 12 → s.queue p q = []) ∧ (s.mp p).gen = []) → Completes (.lpiExit p) s fun t =>
          t.on MAC_PORT_STAT_LPI_TX p = false ∧ (t.mp p).asleep = false ∧ (t.mp p).lpiExit = some s.cc ∧
          (∀ (q : Fin 12) (c : Nat), t.queuePaused p q c = true) ∧ Only [MAC_PORT_STAT.addr p 0 0] [] { s with mac := t.mac } t) ∧
        ((∀ q, q < 12 → s.queue p q = []) → (s.mp p).gen = [] → exec (.lpiExit p) s = .next s) ∧
        (∀ t0, (s.mp p).lpiExit = some t0 →
          (t0 + 1500 * s.f MAC_EEE_TW_TX_US p ≤ s.cc → Completes (.lpiWakeEnd p) s fun t => (t.mp p).lpiExit = none ∧
            t = { s with mac := t.mac } ∧ ∀ p' : Fin 514, p'.val ≠ p.val → t.mp p' = s.mp p') ∧
          (s.cc < t0 + 1500 * s.f MAC_EEE_TW_TX_US p → exec (.lpiWakeEnd p) s = .next s));
  pauseAndPfcStopQueues ∧ portsSleepAndWake

/-- TRUNK_FRAME_RX on a member lane that carries data: a valid overhead in SEARCH enters CHECK, three in place enter IN_FRAME, a miss in
CHECK goes back to SEARCH, four misses in IN_FRAME go to SEARCH and count LOF_ENTRIES, fewer advance the derived MFC; an aligned hit,
1,024 blocks after the last frame, counts the bits by which BIP8 differs from the parity of the frame before, shows MEMBER and AIS,
takes the MFC and shows the first of MISMATCH, AIS, SKEW and WITHDRAWN that applies, else USABLE; RX_UP is then whether MIN_ACT members
are USABLE and TX_UP whether ACT_MAP has as many. On a lane of no group, or not carrying data, it changes nothing. TRUNK_FRAME_TX of a
formed group leaves one frame of 8,192 bytes for each member, in member order, whose overhead a receiver finds valid, all with the same
MFC, GID_TX, ACT_MAP and RX_MAP, RDI while the group's receive is down, BIP8 the parity of the frame that the member sent before, and
AIS while the port is not enabled; a member enters or stays in ACT_MAP only with its lane carrying data; the MFC then moves on by one
and BPTR by 64 modulo 66. DESKEW_RELEASE releases the next frame once it has arrived on every USABLE member and not before, takes
ACT_MAP and BPTR from a valid overhead of it, counts the blocks of an active member that is not USABLE in ERR_BLK, and gives the Flue
byte of the designated member, or else of the first USABLE one, to the FIFO of the bound port. FLUE_RX_READ shows VALID and the oldest
byte and removes it, and reads 0 and changes nothing when the FIFO is empty; FLUE_TX_WRITE appends the byte while fewer than 64 wait,
and otherwise is ignored and sets TX_FULL; the levels follow, and nothing else changes. (spec/05_trunk_framing.md) -/
def Obligations.TrunksFrameTheirMembers : Prop :=
  let trunkFramesAlignMembers : Prop :=
    ∀ (s : State) (n : Fin 512) (bytes : List Byte) (gap : Nat),
        (s.memGroup n = none ∨ s.laneData n = false → exec (.trunkFrameRx n bytes gap) s = .next s) ∧
        ∀ g, s.memGroup n = some g → s.laneData n = true →
        let ovh := s.memBytes n g bytes
        let x := s.tmem n
        let sl := n.val / 16
        let st (t : State) := t.f TRK_MEM_STAT_STATE n
        let hit : Prop := ovhValid ovh = true ∧ (x.align = 0 ∨ gap = 1024)
        let ups (t : State) : Prop := t.on TRK_GRP_STAT_RX_UP sl g = decide (s.ca TRK_GRP_CFG_MIN_ACT sl g ≤ (t.usable sl g).length) ∧
          t.on TRK_GRP_STAT_TX_UP sl g = decide (s.ca TRK_GRP_CFG_MIN_ACT sl g ≤ ones 16 (s.f TRK_GRP_MAP_ACT_TX sl g))
        Completes (.trunkFrameRx n bytes gap) s fun t => ups t ∧
          (hit → t.f TRK_MEM_STAT_MEMBER_RX n = fieldAt ovh 6 1 / 16 ∧ t.on TRK_MEM_STAT_AIS_RX n = natBit (fieldAt ovh 6 1) 3) ∧
          (hit → x.align ≠ 0 → t.cval C_BIP_ERR n =
            min (s.cval C_BIP_ERR n + ones 8 (x.bip ^^^ BitVec.ofNat 8 (fieldAt ovh 9 1)).toNat) (2 ^ 48 - 1)) ∧
          (x.align = 0 ∨ hit → (t.tmem n).bip = ovh.foldl (· ^^^ ·) 0) ∧
          (x.align = 0 → hit → (t.tmem n).align = 1 ∧ (t.tmem n).hits = 1 ∧ st t = 2) ∧
          (x.align = 0 → ¬ hit → t.tmem n = { x with bip := ovh.foldl (· ^^^ ·) 0 } ∧ st t = st s) ∧
          (x.align = 1 → ¬ hit → (t.tmem n).align = 0 ∧ st t = 1) ∧
          (x.align = 1 → hit → x.hits + 1 < 3 → (t.tmem n).align = 1 ∧ (t.tmem n).hits = x.hits + 1 ∧ st t = st s) ∧
          (x.align = 2 ∨ (x.align = 1 ∧ 3 ≤ x.hits + 1) → hit → (t.tmem n).align = 2 ∧ (t.tmem n).mfc = fieldAt ovh 3 2 ∧
            (t.tmem n).arr = s.cc ∧ (t.tmem n).misses = 0 ∧
            st t = if (t.tmem n).mis then 3 else if (t.tmem n).ais then 4 else if (t.tmem n).skew then 5
              else if natBit (s.f TRK_GRP_CTL_WITHDRAW sl g) ((s.grpLanes sl g).idxOf n.val) then 6 else 7) ∧
          (x.align = 2 → ¬ hit → x.misses + 1 < 4 → (t.tmem n).misses = x.misses + 1 ∧ (t.tmem n).mfc = (x.mfc + 1) % 65536 ∧ st t = st s) ∧
          (x.align = 2 → ¬ hit → 4 ≤ x.misses + 1 → (t.tmem n).align = 0 ∧ st t = 1 ∧
            t.cval C_LOF_ENTRIES n = min (s.cval C_LOF_ENTRIES n + 1) (2 ^ 48 - 1));
  let trunkFramesAreSentWithTheSameOverhead : Prop :=
    ∀ (s : State) (sl : Fin 32) (g : Fin 8),
        let x := s.tgrp sl g
        let ls := s.grpLanes sl g
        let us := s.usable sl g
        (∀ td : Byte, s.caOn TRK_GRP_CFG_EN sl g = true → Completes (.trunkFrameTx sl g td) s fun t =>
          let out := (t.tgrp sl g).sent
          let act := t.f TRK_GRP_MAP_ACT_TX sl g
          out.length = ls.length ∧ (t.tgrp sl g).txMfc = (x.txMfc + 1) % 65536 ∧ (t.tgrp sl g).txBptr = (x.txBptr + 64) % 66 ∧
          (∀ m, m < ls.length → natBit act m = true → s.laneData (ls.getD m 0) = true) ∧
          (∀ m, m < out.length → let o := out.getD m []
            ovhValid o = true ∧ o.length = 8192 ∧ fieldAt o 9 1 = ((x.sent.getD m []).foldl (· ^^^ ·) (0 : Byte)).toNat ∧ fieldAt o 3 2 = x.txMfc % 65536 ∧ fieldAt o 5 1 = s.ca TRK_GRP_ID_GID_TX sl g ∧
            fieldAt o 6 1 / 16 = m % 16 ∧ natBit (fieldAt o 6 1) 3 = (!s.caOn MAC_PORT_CFG_EN (ls.headD 0)) ∧
            natBit (fieldAt o 6 1) 2 = (!s.on TRK_GRP_STAT_RX_UP sl g) ∧ fieldAt o 10 2 = act ∧ fieldAt o 12 2 = t.f TRK_GRP_MAP_RXMAP_TX sl g)) ∧
        (us = [] → exec (.deskewRelease sl g) s = .next s) ∧
        (∀ r, x.rel = some r → us ≠ [] →
          ((∀ n ∈ us, mfcDiff (s.tmem n).mfc ((r + 1) % 65536) < 0) → exec (.deskewRelease sl g) s = .next s) ∧
          ((∀ n ∈ us, 0 ≤ mfcDiff (s.tmem n).mfc ((r + 1) % 65536)) → Completes (.deskewRelease sl g) s fun t =>
            let act := (t.tgrp sl g).act
            let gone (m : Fin 16) : Prop := natBit act m = true ∧ s.carrier sl g m ∉ us
            let f := (r + 1) % 65536
            let seen := us.findSome? (fun n => (s.held n f).bind (fun e => if e.valid then some e.bytes else none))
            (t.tgrp sl g).rel = some f ∧ RegsBut ((List.range 4).map fun k => TRK_FSP_STAT.addr k 0 0) s t ∧
            (∀ b, seen = some b → act = fieldAt b 10 2 ∧ (t.tgrp sl g).bptr = fieldAt b 7 1 % 128) ∧
            (seen = none → act = x.act ∧ (t.tgrp sl g).bptr = (x.bptr + 64) % 66) ∧
            (∀ k, s.fspOf sl g = some k →
              let des := ls.getD (s.ca TRK_FSP_CFG_MEMBER k) 0
              ∀ e, s.held (if us.contains des then des else us.headD 0) f = some e →
                let b : Byte := BitVec.ofNat 8 (fieldAt e.bytes 8 1)
                (t.fsp k).rd = b ∧ ((s.fsp k).rx.length < 64 → (t.fsp k).rx = (s.fsp k).rx ++ [b]) ∧
                (64 ≤ (s.fsp k).rx.length → (t.fsp k).rx = (s.fsp k).rx ∧ t.on TRK_FSP_STAT_RX_OVF k = true)) ∧
            ((∀ m, ¬ gone m) → t.cnt = s.cnt) ∧
            (∀ m : Fin 16, gone m → (∀ m' : Fin 16, m' ≠ m → ¬ gone m') →
              t.cval C_ERR_BLK (s.carrier sl g m) = min (s.cval C_ERR_BLK (s.carrier sl g m) +
                (if (t.tgrp sl g).bptr ≤ 1 then 992 else 991)) (2 ^ 48 - 1))));
  let flueFifosHoldSixtyFourBytes : Prop :=
    ∀ (s : State) (k : Fin 4),
        let only (t : State) : Prop := Only [TRK_FSP_STAT.addr k 0 0] [] { s with trk := t.trk } t ∧ ∀ j : Fin 4, j ≠ k → t.fsp j = s.fsp j
        ((s.fsp k).rx = [] → exec (.flueRxRead k) s = .next s ∧ s.fspRxWord k = 0) ∧
        ((s.fsp k).rx ≠ [] → (s.fsp k).rx.length ≤ 64 → (s.fspRxWord k).toNat = 256 + ((s.fsp k).rx.headD 0).toNat ∧
          Completes (.flueRxRead k) s fun t => (t.fsp k).rx = (s.fsp k).rx.tail ∧
          (t.fsp k).tx = (s.fsp k).tx ∧ t.f TRK_FSP_STAT_RX_LEVEL k = (s.fsp k).rx.length - 1 ∧ only t) ∧
        (∀ b : Byte,
          ((s.fsp k).tx.length < 64 → Completes (.flueTxWrite k b) s fun t => (t.fsp k).tx = (s.fsp k).tx ++ [b] ∧
            (t.fsp k).rx = (s.fsp k).rx ∧ t.f TRK_FSP_STAT_TX_LEVEL k = (s.fsp k).tx.length + 1 ∧ only t) ∧
          (64 ≤ (s.fsp k).tx.length → Completes (.flueTxWrite k b) s fun t => t.on TRK_FSP_STAT_TX_FULL k = true ∧ t.trk = s.trk ∧ only t));
  trunkFramesAlignMembers ∧ trunkFramesAreSentWithTheSameOverhead ∧ flueFifosHoldSixtyFourBytes

/-- START_BLOCK_READY of a port that is neither UP nor HELD changes nothing; with fewer than four waiting the start block waits with the NT
of its readiness; a fifth is discarded and counted in PRS_SLOT_DROP. on a trunk port the start block is the oldest frame that its
group's blocks spell, and in near-end loopback nothing from outside is taken. RECEIVE_FRAME of a port that is neither, with none
waiting, or with no slot of the port's lanes free in this cc, changes nothing; else the oldest takes such a slot: on a HELD port a frame
that is not MAC control is counted in RX_HELD_DROP and dropped; else a new frame holds its port, NT, cc, threshold step, generation,
slot, header position, its wait, the bytes up to MAX_LEN that will cross, and of them the lead of 512 at once, no other frame changes,
and GEN_SLOT_INFL of the ACTIVE slot rises by one unless it is a MAC control frame or a hello. FRAME_END_INGRESS before the frame's last
byte has crossed, or of a frame that has ended, changes nothing. A good frame, of 64 bytes to MAX_LEN whose last four are the FCS of the
others, counts RX_FRAMES and its bytes; one over MAX_LEN counts RX_OVERSIZE, one under 64 bytes RX_RUNT, another with a bad FCS
RX_FCS_ERR, and none of these RX_FRAMES; every copy of the frame learns its end, and that of a bad frame is to end with an inverted FCS.
A good pause frame counts RX_PAUSE and, where enabled, waits 20 cc for its decode; a good hello reaches the domain logic. RECIRC_PASS of
a frame whose pass is 4, or whose slice's return lane was taken in this cc, counts PRS_RECIRC_DROP and ends the frame; while a frame of
the slice in a lower slot position asks it changes nothing; else the pass rises by one and the frame stands in the ingress stages.
(spec/06_parser_and_tables.md, spec/04_mac.md, spec/14_domain_membership.md) -/
def Obligations.FramesStartEndAndReturn : Prop :=
  let startBlocksTakeHeaderSlots : Prop :=
    ∀ (s : State) (p : Fin 512),
        let w := s.fwd.wait.get p
        let st := s.f MAC_PORT_STAT_STATE p
        (∀ bytes : List Byte, s.looped p = true → exec (.startBlockReady (p.castLE (by decide)) bytes) s = .next s) ∧
        (∀ k, s.trunkKey p = some k → ∀ bytes : List Byte, s.looped p = false →
          ((s.trk.grp.get k).rxFrames = [] → exec (.startBlockReady (p.castLE (by decide)) bytes) s = .next s) ∧
          ((s.trk.grp.get k).rxFrames ≠ [] → Completes (.startBlockReady (p.castLE (by decide)) bytes) s fun t =>
            let x := (s.trk.grp.get k).rxFrames.headD ([], false)
            (t.trk.grp.get k).rxFrames = (s.trk.grp.get k).rxFrames.tail ∧
            (2 ≤ st → w.length < 4 → t.fwd.wait.get p = w ++ [{ bytes := spoilt x, ready := s.nt }] ∧ (x.2 = false → spoilt x = x.1)))) ∧
        (∀ bytes : List Byte, s.looped p = false → s.trunkKey p = none →
          (st < 2 → exec (.startBlockReady (p.castLE (by decide)) bytes) s = .next s) ∧
          (2 ≤ st → w.length < 4 → Completes (.startBlockReady (p.castLE (by decide)) bytes) s fun t =>
            t.fwd.wait.get p = w ++ [{ bytes := bytes, ready := s.nt }] ∧
            t = { s with fwd := { s.fwd with wait := t.fwd.wait } } ∧ ∀ q : Fin 512, q ≠ p → t.fwd.wait.get q = s.fwd.wait.get q) ∧
          (2 ≤ st → 4 ≤ w.length → Completes (.startBlockReady (p.castLE (by decide)) bytes) s fun t =>
            t.cval C_PRS_SLOT_DROP (p.val / 16) = min (s.cval C_PRS_SLOT_DROP (p.val / 16) + 1) (2 ^ 48 - 1) ∧
            Only [] [C_PRS_SLOT_DROP.addr (p.val / 16) 0] { s with pmc := t.pmc } t)) ∧
        (∀ ecc : List (Nat × Nat × Nat),
          (st < 2 → exec (.receiveFrame (p.castLE (by decide)) ecc) s = .next s) ∧
          (w = [] → exec (.receiveFrame (p.castLE (by decide)) ecc) s = .next s) ∧
          (s.freeSlot p = none → exec (.receiveFrame (p.castLE (by decide)) ecc) s = .next s) ∧
          (∀ k, s.freeSlot p = some k → w ≠ [] → 2 ≤ st →
            let b := w.headD {}
            let wire := b.bytes.take (s.maxLen s.active p)
            let ctl : Prop := fieldAt b.bytes 12 2 = 0x8808
            let hello : Prop := b.bytes.take 6 = [0x03, 0x4E, 0x48, 0x00, 0x00, 0x01] ∧ fieldAt b.bytes 12 2 = 0x88B5
            let f := s.fwd.nextFrame
            (k ∉ s.fwd.slotUsed ∧ ∃ n ∈ s.portLanes p, n % 4 = s.cc % 4 ∧ k = 4 * (n / 16) + n % 16 / 4) ∧
            Completes (.receiveFrame (p.castLE (by decide)) ecc) s fun t =>
              t.fwd.wait.get p = w.tail ∧ t.fwd.slotUsed = k :: s.fwd.slotUsed ∧ t.fwd.copies = s.fwd.copies ∧ t.fwd.blocks = s.fwd.blocks ∧
              (∀ g, g ≠ f → t.frame g = s.frame g) ∧
              (st = 2 → ¬ ctl → t.cval C_RX_HELD_DROP p = min (s.cval C_RX_HELD_DROP p + 1) (2 ^ 48 - 1) ∧ t.fwd.nextFrame = f ∧
                Only [] [C_RX_HELD_DROP.addr p 0] { s with fwd := t.fwd, pmc := t.pmc } t) ∧
              (st ≠ 2 ∨ ctl → t.fwd.nextFrame = f + 1 ∧ (t.frame f).inPort = p ∧ (t.frame f).t0 = s.nt ∧ (t.frame f).t0cc = s.cc ∧
                (t.frame f).kct = s.f MAC_CT_T_CUR p ∧ (t.frame f).gen = s.f GEN_ACTIVE_NUM ∧ (t.frame f).slot = s.active ∧
                (t.frame f).bytes = wire.take 512 ∧ (t.frame f).wire = wire ∧
                (t.frame f).len = Nat.min wire.length 512 ∧ (t.frame f).tooLong = decide (wire.length < b.bytes.length) ∧ (t.frame f).pos = k ∧ (t.frame f).arrival = (s.nt - b.ready) / 2 ^ 24 ∧
                (t.frame f).stage = .ingress ∧ (t.frame f).pass = 0 ∧
                (ctl ∨ hello → t.cnt = s.cnt ∧ t.csr = s.csr) ∧
                (¬ ctl → ¬ hello → t.f GEN_SLOT_INFL_COUNT s.active =
                  (s.f GEN_SLOT_INFL_COUNT s.active + 1) % 2 ^ GEN_SLOT_INFL_COUNT.w))));
  let framesEndAndReturn : Prop :=
    ∀ (s : State) (f : Nat),
        let x := s.frame f
        let p := x.inPort
        (let due : Prop := x.stage ≠ .none ∧ x.fate = .open ∧ x.wire.length ≤ x.len
          let good : Prop := x.tooLong = false ∧ 64 ≤ x.len ∧ fcsOf (x.wire.take (x.len - 4)) = x.wire.drop (x.len - 4)
          let one (t : State) (c : Cnt) (k : Nat) : Prop := t.cval c p = Nat.min (s.cval c p + k) (2 ^ 48 - 1)
          (¬ due → exec (.frameEndIngress f) s = .next s) ∧
          (due → Completes (.frameEndIngress f) s fun t =>
            (good → one t C_RX_FRAMES 1 ∧ one t C_RX_BYTES x.len ∧ t.cval C_RX_RUNT p = s.cval C_RX_RUNT p ∧
              t.cval C_RX_OVERSIZE p = s.cval C_RX_OVERSIZE p ∧ t.cval C_RX_FCS_ERR p = s.cval C_RX_FCS_ERR p) ∧
            (¬ good → t.cval C_RX_FRAMES p = s.cval C_RX_FRAMES p ∧ t.cval C_RX_BYTES p = s.cval C_RX_BYTES p ∧
              (x.tooLong = true → one t C_RX_OVERSIZE 1) ∧ (x.tooLong = false → x.len < 64 → one t C_RX_RUNT 1) ∧
              (x.tooLong = false → 64 ≤ x.len → one t C_RX_FCS_ERR 1)) ∧
            (good → x.control = true → fieldAt x.wire 14 2 = 1 → one t C_RX_PAUSE 1 ∧
              (s.on MAC_FC_CFG_PAUSE_RX_EN p = true → s.on MAC_FC_CFG_PFC_RX_EN p = false →
                (t.mp p).decode = (s.mp p).decode ++ [{ at_ := s.cc + 20, times := [fieldAt x.wire 16 2] }]) ∧
              (s.on MAC_FC_CFG_PAUSE_RX_EN p = false ∨ s.on MAC_FC_CFG_PFC_RX_EN p = true → (t.mp p).decode = (s.mp p).decode)) ∧
            (good → x.control = false → x.hello = true → (t.dp p).rx.length = (s.dp p).rx.length + 1 ∧ t.frame f = {}) ∧
            (x.control = false → x.hello = false → p < 512 → s.fwd.copies.wf = true →
              ∀ c, (s.copy c).frame = f → (s.copy c).fromPort = true → (s.copy c).state ≠ .none →
                (t.copy c).ended = true ∧ ((t.copy c).bad = true ↔ (s.copy c).bad = true ∨ ¬ good)))) ∧
        (∀ ecc : List (Nat × Nat × Nat),
          (x.stage ≠ .returning ∨ (x.fate = .open ∧ (x.bytes.length < 512 ∨ x.wire.length ≤ x.len)) → exec (.recircPass f ecc) s = .next s) ∧
          (x.stage = .returning → x.fate ≠ .open ∨ 512 ≤ x.bytes.length ∧ x.len < x.wire.length →
            (4 ≤ x.pass ∨ s.fwd.returnUsed.contains (sliceOf p) = true → Completes (.recircPass f ecc) s fun t =>
              t.cval C_PRS_RECIRC_DROP (sliceOf p) = Nat.min (s.cval C_PRS_RECIRC_DROP (sliceOf p) + 1) (2 ^ 48 - 1) ∧
              t.fwd.copies = s.fwd.copies ∧ (t.frame f).stage ≠ .returning) ∧
            (x.pass < 4 → s.fwd.returnUsed.contains (sliceOf p) = false → s.returnAfter f x = true → exec (.recircPass f ecc) s = .next s) ∧
            (x.pass < 4 → s.fwd.returnUsed.contains (sliceOf p) = false → s.returnAfter f x = false → Completes (.recircPass f ecc) s fun t =>
              (t.frame f).stage = .ingress ∧ (t.frame f).pass = x.pass + 1 ∧ t.fwd.returnUsed = sliceOf p :: s.fwd.returnUsed ∧
              t.fwd.copies = s.fwd.copies ∧ (t.frame f).t0 = x.t0)));
  startBlocksTakeHeaderSlots ∧ framesEndAndReturn

/-- For every parser program and every program of twelve ingress stages that the commit checks accept, every table content and every frame:
after RECEIVE_FRAME of a pipeline frame its record has 512 bytes, bytes 0x1C0 to 0x1D1 hold the NT of t0 in 12 bytes, the number of the
generation in force and the ingress port, and M holds IN_PORT, SLICE, K_CT and PASS 0; after RECIRC_PASS bytes 0x1C0 to 0x1D1 are what
they were and PASS is one more. (spec/06_parser_and_tables.md, spec/07_action_instructions.md) -/
def Obligations.ProgramsCannotForgeAFramesOrigin : Prop :=
  ∀ (s : State) (ecc : List (Nat × Nat × Nat)),
      (∀ (p : Fin 512) (k : Nat), s.freeSlot p = some k → s.fwd.wait.get p ≠ [] → s.f MAC_PORT_STAT_STATE p = 3 →
        (s.slot s.active).progBad (p.val / 16) = false → (∀ g, g < 12 → (s.slot s.active).actBad (p.val / 16) g = none) →
        let b := (s.fwd.wait.get p).headD {}
        fieldAt b.bytes 12 2 ≠ 0x8808 → fieldAt b.bytes 12 2 ≠ 0x88B5 →
        Completes (.receiveFrame (p.castLE (by decide)) ecc) s fun t =>
          let r := (t.frame s.fwd.nextFrame).record
          r.length = 512 ∧ bytesAt r 0x1C0 18 = ntBytes s.nt ++ natBytes 4 (s.f GEN_ACTIVE_NUM) ++ natBytes 2 p ∧
          fieldAt r 0x180 2 = p ∧ fieldAt r 0x182 1 = p.val / 16 ∧ fieldAt r 0x183 1 = s.f MAC_CT_T_CUR p ∧ fieldAt r 0x186 1 = 0) ∧
      (∀ f : Nat, (s.frame f).returns = true → s.returnAfter f (s.frame f) = false → (s.frame f).pass < 4 → (s.frame f).inPort < 512 →
        (s.frame f).record.length = 512 → s.fwd.returnUsed.contains (sliceOf (s.frame f).inPort) = false →
        (s.slot (s.frame f).slot).progBad (sliceOf (s.frame f).inPort) = false →
        (∀ g, g < 12 → (s.slot (s.frame f).slot).actBad (sliceOf (s.frame f).inPort) g = none) →
        Completes (.recircPass f ecc) s fun t =>
          let r := (t.frame f).record
          r.length = 512 ∧ bytesAt r 0x1C0 18 = bytesAt (s.frame f).record 0x1C0 18 ∧ fieldAt r 0x186 1 = (s.frame f).pass + 1)

/-- FRAME_ENQUEUE before t0 + 30 cc for each pass, of a frame that waits for its end or whose end is to be judged, or out of the turn of
R227, changes nothing. A frame found bad, or quarantined, ends without a copy and the in-flight count falls. A frame with a drop reason
and no mirror or punt copy is counted under the reason in its slice and makes no copy. A unicast frame to a port that is not up, or to a
queue that a drain holds, takes no block and is counted in TM_XDROP, the latter in CHIP_MODE_DRAIN_DROP too. One to a port that is up,
with a free block in the smallest pool that holds it and within its queue's limit, takes that block with one reference and leaves
exactly one new copy at the tail of its queue, charged with the block's cells. In BLOCK state an empty pool sends the request one cc
later to the next pool, and a refusal by B64 drops the frame and is counted for the pool it first asked.
(spec/07_action_instructions.md, spec/09_shared_buffer.md, spec/10_queues_and_flow_control.md) -/
def Obligations.EnqueuedFramesAreDisposedOf : Prop :=
  ∀ (s : State) (f : Nat) (cells : List Nat),
      let x := s.frame f
      let ready : Prop := x.stage = .ingress ∧ x.control = false ∧ x.hello = false ∧ x.inPort < 512
      let late : Prop := x.t0cc + 30 * (1 + x.pass) ≤ s.cc ∧ (x.fate ≠ .open ∨ x.len < x.wire.length ∧ s.waitsForEnd x x.dest = false) ∧
        s.turn (x.standing f) = true
      let sl := sliceOf x.inPort
      let infl := (s.f GEN_SLOT_INFL_COUNT x.slot - 1) % 2 ^ GEN_SLOT_INFL_COUNT.w
      ∀ ecc : Fin 3,
      (¬ (ready ∧ late) → exec (.frameEnqueue f cells ecc) s = .next s) ∧
      (ready → late → x.block = none →
        ((x.fate = .runt ∨ x.fate = .oversize ∨ x.fate = .badFcs ∨ x.fate = .cut) → Completes (.frameEnqueue f cells ecc) s fun t =>
          t.fwd.copies = s.fwd.copies ∧ t.frame f = {} ∧ t.f GEN_SLOT_INFL_COUNT x.slot = infl ∧
          Only [GEN_SLOT_INFL.addr x.slot 0 0] [] { s with fwd := t.fwd, tlm := t.tlm } t) ∧
        ((x.fate = .open ∨ x.fate = .good) → x.quarantined = true → Completes (.frameEnqueue f cells ecc) s fun t =>
          t.fwd.copies = s.fwd.copies ∧ t.f GEN_SLOT_INFL_COUNT x.slot = infl ∧
          t.cval C_DOM_QRX_DROP x.inPort = min (s.cval C_DOM_QRX_DROP x.inPort + 1) (2 ^ 48 - 1)) ∧
        ((x.fate = .open ∨ x.fate = .good) → x.quarantined = false → s.mirrorOf x = none → x.punts = false →
          (∀ r : Nat, x.dest = .drop r → Completes (.frameEnqueue f cells ecc) s fun t =>
            t.fwd.copies = s.fwd.copies ∧ t.fwd.blocks = s.fwd.blocks ∧ t.f GEN_SLOT_INFL_COUNT x.slot = infl ∧
            t.tab.drops.get (256 * sl + r % 256) = min (s.tab.drops.get (256 * sl + r % 256) + 1) (2 ^ 48 - 1) ∧ t.tm = s.tm) ∧
          (∀ (p q : Nat), x.dest = .unicast p q → p < 512 → q < 12 → s.crosses p q = false → Completes (.frameEnqueue f cells ecc) s fun t =>
            t.fwd.copies = s.fwd.copies ∧ t.fwd.blocks = s.fwd.blocks ∧ t.f GEN_SLOT_INFL_COUNT x.slot = infl ∧
            t.cval C_TM_XDROP p = min (s.cval C_TM_XDROP p + 1) (2 ^ 48 - 1) ∧
            t.f CHIP_MODE_DRAIN_DROP_COUNT = min (s.f CHIP_MODE_DRAIN_DROP_COUNT + (if s.queueHeld p q then 1 else 0)) (2 ^ 32 - 1) ∧
            t.tm = s.tm) ∧
          (∀ (p q : Nat), x.dest = .unicast p q → p < 512 → q < 12 → s.crosses p q = true → s.f POOL_STAT_STATE = 2 →
            s.writerRoom x.writer = true →
            let n := s.requestBytes x
            let b := poolFor n
            let a := cells.headD 0
            let u := s.poolMeta ecc
            (s.f POOL_FREE_FREE b = 0 → b < 3 → Completes (.frameEnqueue f cells ecc) s fun t =>
              (t.frame f).stage = .asking ∧ (t.frame f).pool = b + 1 ∧ (t.frame f).want = b ∧ (t.frame f).askCc = s.cc + 1 ∧
              (t.frame f).steps = x.steps + 1 ∧ t.csr = u.csr ∧ t.cnt = u.cnt) ∧
            (s.f POOL_FREE_FREE b ≠ 0 → s.blockFree b a = true →
              natBit (s.cf x.slot TM_ING_CFG_LL x.inPort) (s.cf x.slot TM_Q_CFG_IPRI x.inPort q) = false →
              s.f TM_Q_DEPTH_CELLS p q + poolCells b ≤ s.queueLimit x.slot p q → Completes (.frameEnqueue f cells ecc) s fun t =>
                let c := s.fwd.nextCopy
                t.fwd.nextCopy = c + 1 ∧ t.queue p q = s.queue p q ++ [c] ∧ (t.copy c).state = .queued ∧ (t.copy c).port = p ∧
                (t.copy c).queue = q ∧ (t.copy c).frame = f ∧ (t.copy c).block = some a ∧ (t.copy c).charge = poolCells b ∧
                (∀ d, d ≠ c → t.copy d = s.copy d) ∧ (t.fwd.blocks.get a).count = 1 ∧
                (t.fwd.blocks.get a).cells.length = poolCells b ∧ t.f POOL_FREE_FREE b = s.f POOL_FREE_FREE b - 1 ∧
                t.f TM_Q_DEPTH_CELLS p q = (s.f TM_Q_DEPTH_CELLS p q + poolCells b) % 2 ^ TM_Q_DEPTH_CELLS.w)))) ∧
      (x.stage ≠ .asking ∨ s.cc < x.askCc ∨ s.turn (x.standing f) = false → exec (.poolFallback f cells ecc) s = .next s) ∧
      (x.stage = .asking → x.askCc ≤ s.cc → s.turn (x.standing f) = true → s.f POOL_STAT_STATE = 2 → s.f POOL_FREE_FREE x.pool = 0 →
        (x.pool < 3 → Completes (.poolFallback f cells ecc) s fun t => (t.frame f).stage = .asking ∧ (t.frame f).pool = x.pool + 1 ∧
          (t.frame f).askCc = s.cc + 1 ∧ (t.frame f).steps = x.steps + 1 ∧ t = { s.poolMeta ecc with fwd := t.fwd }) ∧
        (x.pool = 3 → x.block = none → Completes (.poolFallback f cells ecc) s fun t =>
          t.cval C_POOL_REFUSED x.want = min (s.cval C_POOL_REFUSED x.want + 1) (2 ^ 48 - 1) ∧ t.f GEN_SLOT_INFL_COUNT x.slot = infl ∧
          t.fwd.copies = s.fwd.copies))

/-- With the stripe already granted in this cc, or no writer holding a cell of it, nothing changes. Else the writer that comes first in the
order (i - PTR) mod 64 among those that hold a cell of the stripe has its oldest such cell written in coded form and taken from its
queue; every other cell, and every other writer's queue, is as it was. CARVE in CHAIN with every cell free and a sum of 32,768
superblocks enters CARVING with that carving; otherwise it sets CARVE_ERR, detects a CONFIG fault and changes no state. CARVING_COMPLETE
after 32,768 cc enters BLOCK with each pool's blocks free and POOL_LOW equal to them; before, nothing. REBUILD in CHAIN or BLOCK leaves
no block in use and no copy being sent, enters REBUILDING and moves the epoch on, so that an older reference is absorbed; in another
state it sets CARVE_ERR. REBUILD_COMPLETE 16,384 cc after the flush enters CHAIN with 2,097,152 cells free; before, nothing.
(spec/09_shared_buffer.md) -/
def Obligations.CellsAndPoolsMoveByTheirRules : Prop :=
  let cellWritesFollowThePointer : Prop :=
    ∀ (s : State) (st : Fin 128),
        let bids (w : Nat) := (s.fwd.writers.get w).filter fun e => e.cell % 128 == st.val
        (s.fwd.stripeW.contains st.val = true → exec (.cellWriteGrant st) s = .next s) ∧
        ((∀ w : Fin 64, bids w = []) → exec (.cellWriteGrant st) s = .next s) ∧
        (∀ w : Fin 64, s.fwd.stripeW.contains st.val = false → bids w ≠ [] →
          (∀ v : Fin 64, bids v ≠ [] → (w.val + 64 - s.cc % 64) % 64 ≤ (v.val + 64 - s.cc % 64) % 64) →
          Completes (.cellWriteGrant st) s fun t =>
            let e := (bids w).headD default
            t.fwd.cells.get e.cell = storeCell e.data ∧ (∀ c : Nat, c ≠ e.cell → t.fwd.cells.get c = s.fwd.cells.get c) ∧
            (∀ i, i < 10 → t.fwd.flips.get (flipKey e.cell i) = 0) ∧
            (∀ k : Nat, k / 16 ≠ e.cell → t.fwd.flips.get k = s.fwd.flips.get k) ∧
            t.fwd.writers.get w = (s.fwd.writers.get w).erase e ∧ (∀ v : Fin 64, v ≠ w → t.fwd.writers.get v = s.fwd.writers.get v) ∧
            t.fwd.stripeW = st.val :: s.fwd.stripeW ∧
            t = { s with fwd := { s.fwd with cells := t.fwd.cells, flips := t.fwd.flips, writers := t.fwd.writers, stripeW := t.fwd.stripeW }, pmc := t.pmc });
  let thePoolManagerMovesThroughItsStates : Prop :=
    ∀ s : State,
        let st := s.f POOL_STAT_STATE
        let cells (p : Nat) := if p = 0 then 1 else if p = 1 then 4 else if p = 2 then 16 else 64
        let sum := s.f POOL_CARVE_SB 0 + s.f POOL_CARVE_SB 1 + s.f POOL_CARVE_SB 2 + s.f POOL_CARVE_SB 3
        let ok : Prop := st = 0 ∧ s.f POOL_FREE_CELLS_CELLS = 2097152 ∧ sum = 32768
        let err (t : State) : Prop := t.on POOL_STAT_CARVE_ERR = true ∧ t.f POOL_STAT_STATE = st ∧ FaultRaised s t 8 1 10 0 ∧
          Only [POOL_STAT.addr 0 0 0] [] { s with flt := t.flt } t
        (ok → Completes .carve s fun t => t.f POOL_STAT_STATE = 1 ∧ t.fwd.stateStart = s.cc ∧
          (∀ p, p < 4 → t.fwd.carve.getD p 0 = s.f POOL_CARVE_SB p) ∧
          Only [POOL_STAT.addr 0 0 0] [] { s with fwd := { s.fwd with carve := t.fwd.carve, stateStart := s.cc } } t) ∧
        (¬ ok → Completes .carve s fun t => err t) ∧
        (st ≠ 1 ∨ s.cc < s.fwd.stateStart + 32768 → exec .carvingComplete s = .next s) ∧
        (st = 1 → s.fwd.stateStart + 32768 ≤ s.cc → (∀ p, p < 4 → s.fwd.carve.getD p 0 ≤ 32768) → Completes .carvingComplete s fun t =>
          t.f POOL_STAT_STATE = 2 ∧ (∀ p, p < 4 → t.f POOL_FREE_FREE p = s.fwd.carve.getD p 0 * (64 / cells p) ∧
            t.f POOL_LOW_LOW p = t.f POOL_FREE_FREE p) ∧ t.fwd = s.fwd ∧ t.cnt = s.cnt) ∧
        (st = 0 ∨ st = 2 → s.fwd.copies.wf = true → Completes .rebuild s fun t => t.f POOL_STAT_STATE = 3 ∧ t.fwd.blocks = [] ∧
          s.cc + 528 ≤ t.fwd.stateStart ∧ (∀ p : Fin 512, (t.tp p).flushEnd ≤ t.fwd.stateStart) ∧ t.fwd.epoch = s.fwd.epoch + 1 ∧ (∀ p, p < 4 → t.f POOL_FREE_FREE p = 0) ∧
          (∀ c, (s.copy c).state = .sending → (t.copy c).state = .none) ∧ (∀ r : Release, r.epoch = s.fwd.epoch → t.applyRelease r = t)) ∧
        (st = 1 ∨ st = 3 → Completes .rebuild s fun t => err t) ∧
        (st ≠ 3 ∨ s.cc < s.fwd.stateStart + 16384 → exec .rebuildComplete s = .next s) ∧
        (st = 3 → s.fwd.stateStart + 16384 ≤ s.cc → Completes .rebuildComplete s fun t => t.f POOL_STAT_STATE = 0 ∧
          t.f POOL_FREE_CELLS_CELLS = 2097152 ∧ Only [POOL_STAT.addr 0 0 0, POOL_FREE_CELLS.addr 0 0 0] [] s t);
  cellWritesFollowThePointer ∧ thePoolManagerMovesThroughItsStates

/-- For every cell written and every pattern of bit errors, old and new, with at most two flips in a chunk: with at most two chunks of two
flips, CELL_READ_GRANT sends exactly the bytes written on their way, to arrive 4 cc later, counts each chunk of one flip as corrected by
the inner code, counts no uncorrectable cell and leaves the cell as stored; with three or more, it counts and records an uncorrectable
cell and sends it on its way as such. Arriving, an uncorrectable first cell drops its copy and counts BUF_UNC_DROP, and a good one is
the copy's. A cell still in a writer queue is served from it. (spec/09_shared_buffer.md, spec/01_cycle_ledger.md) -/
def Obligations.TheTwoCodesRepairEveryDoubleErasure : Prop :=
  ∀ (s : State),
      (∀ (st : Fin 128) (errs : List (Nat × Nat)) (r : CellRead) (d : List Byte),
        s.fwd.reads = [r] → r.cell % 128 = st.val → r.reader < 64 → s.fwd.stripeR.contains st.val = false →
        let sends (t : State) (b : List Byte) (bad : Bool) : Prop :=
          t.fwd.arriving = s.fwd.arriving ++ [{ due := s.cc + 4, read := r, data := b, bad := bad }] ∧ t.fwd.reads = [] ∧ t.fwd.stripeR = st.val :: s.fwd.stripeR
        (s.inWriter r.cell = some d → Completes (.cellReadGrant st errs) s fun t => sends t d false ∧ t.cnt = s.cnt) ∧
        (s.inWriter r.cell = none → s.fwd.cells.get r.cell = storeCell (bytesAt d 0 256) → s.flt.arm = none →
          let flips (i : Nat) := s.fwd.flips.get (flipKey r.cell i) ^^^ flipsOf errs i
          (∀ i, i < 10 → ones 266 (flips i) ≤ 2) →
          let dbl := (List.range 10).filter fun i => ones 266 (flips i) == 2
          (dbl.length ≤ 2 → Completes (.cellReadGrant st errs) s fun t =>
            sends t (bytesAt d 0 256) false ∧ t.cval C_BUF_UNCORR = s.cval C_BUF_UNCORR ∧
            t.cval C_BUF_INNER_CORR = min (s.cval C_BUF_INNER_CORR + ((List.range 10).filter fun i => ones 266 (flips i) == 1).length) (2 ^ 48 - 1) ∧
            t.cval C_BUF_OUTER_CORR = min (s.cval C_BUF_OUTER_CORR + (if dbl = [] then 0 else 1)) (2 ^ 48 - 1) ∧ t.fwd.cells = s.fwd.cells) ∧
          (3 ≤ dbl.length → Completes (.cellReadGrant st errs) s fun t =>
            (∀ e ∈ t.fwd.arriving.drop s.fwd.arriving.length, e.bad = true ∧ e.read = r ∧ e.due = s.cc + 4) ∧
            t.fwd.arriving.length = s.fwd.arriving.length + 1 ∧
            t.cval C_BUF_UNCORR = min (s.cval C_BUF_UNCORR + 1) (2 ^ 48 - 1) ∧ t.on BUF_STAT_UNCORR = true ∧
            t.f BUF_ERR_LOC_CELL = r.cell % 2 ^ 21))) ∧
      (∀ (c : Nat) (d : Delivery), d.read.copy = some c → d.read.ring = none → (s.copy c).state ≠ .none →
        (d.bad = true → d.read.idx = 0 → ((s.deliver d).copy c).state = .none ∧
          (s.deliver d).cval C_BUF_UNC_DROP = min (s.cval C_BUF_UNC_DROP + 1) (2 ^ 48 - 1)) ∧
        (d.bad = false → ((s.deliver d).copy c).got.get d.read.idx = d.data ∧ (s.deliver d).cnt = s.cnt))

/-- DEQUEUE_DECISION with no decision due, or no queue that can be chosen (eligible, and its head able to reach the MAC plane 18 cc on: the
model's reading, log 110), changes nothing. With such queues, no stale copy at a head, deficits not below -16,384 and weights as stored,
the head of one of them at the highest level is dequeued, for the start 18 cc later when nothing is planned before it, and every other
queue, and every other copy but for its planned start, is as it was; when the level's pointer stands at such a queue that has had its
credit and has a positive deficit, that queue is the one, and its deficit falls by L and 20 bytes. METERED_DEQUEUE of a port whose first
metered copy does not meet the conditions of R34 for 18 cc on changes nothing. When it meets them exactly at its target t0 + METER_L it
is dequeued for that cc and nothing is counted; later by at most LATE_MAX, or by any time with LATE_MAX 0, it is dequeued as late,
counted in LATE and shown in WORST; later by more it is dropped and counted in DROP, and the port makes no other decision in this cc
(the model's choice, log 112). No metered copy starts before its target. GATE_STATE_CHANGE shows all gates open without a list, closed
before BASE, and in the first and second interval of the cycle the gates of entries 0 and 1. GATE_SWAP_REQUEST while one is pending only
sets GL_REFUSED; else it latches EN, LEN, BASE and CYCLE and sets PENDING with t_sw the first of BASE + k x CYCLE, k from 0, that is at
least 1,000 ns from now. GATE_SWAP before t_sw or with none pending changes nothing; then the lists change places, the latched list runs
from t_sw, PENDING is clear and SWAPPED set. (spec/10_queues_and_flow_control.md, spec/01_cycle_ledger.md) -/
def Obligations.QueuesAreScheduledMeteredAndGated : Prop :=
  let theSchedulerTakesTheHighestLevel : Prop :=
    ∀ (s : State) (p : Fin 512),
        let el := (List.range 12).filter (s.choosable p)
        let top := s.topLevel p el
        let head (q : Nat) := (s.queue p q).headD 0
        (s.decisionDue p = false → exec (.dequeueDecision p) s = .next s) ∧
        (el = [] → exec (.dequeueDecision p) s = .next s) ∧
        (s.decisionDue p = true → el ≠ [] → (∀ q ∈ el, s.isStale (s.copy (head q)) = false) → (∀ q, q < 12 → (s.queue p q).Nodup) →
          (∀ q ∈ el, (s.copy (head q)).port = p ∧ (s.copy (head q)).queue = q) →
          (∀ q, q < 12 → -16384 ≤ s.deficit p q ∧ s.deficit p q < 2 ^ 30 ∧ 1 ≤ s.ca TM_Q_CFG_WEIGHT p q) →
          Completes (.dequeueDecision p) s fun t =>
            (∃ q ∈ el, s.ca TM_Q_CFG_LVL p q = top ∧ (t.copy (head q)).state = .dequeued ∧
              (s.planned p = [] → (s.mp p).lineEnd ≤ s.cc + 18 → (s.copy (head q)).defer = 0 → (t.copy (head q)).start = s.cc + 18) ∧
              s.cc + 18 ≤ (t.copy (head q)).start ∧
              (t.copy (head q)).deqCc = s.cc ∧ (t.copy (head q)).metered = false ∧ t.queue p q = (s.queue p q).tail ∧
              (∀ q' ∈ List.range 12, q' ≠ q → t.queue p q' = s.queue p q') ∧
              (s.fwd.copies.all fun e => e.1 == head q || t.copy e.1 == { s.copy e.1 with start := (t.copy e.1).start }) = true) ∧
            (t.tp p).lastDequeue = s.cc + 1 ∧ t.cnt = s.cnt ∧
            (∀ q ∈ el, s.ca TM_Q_CFG_LVL p q = top → (s.tp p).ptr.get top = q → (s.tp p).credited.get top = true → 0 < s.deficit p q →
              t.queue p q = (s.queue p q).tail ∧ t.deficit p q = s.deficit p q - (s.schedLen (s.copy (head q)) + 20 : Nat)));
  let meteredFramesLeaveAtTheirTarget : Prop :=
    ∀ (s : State) (p : Fin 512) (c : Nat), s.portUp p = true → (s.tp p).lastDequeue ≠ s.cc + 1 → s.firstMetered p = some c →
        (s.copy c).port = p → s.isStale (s.copy c) = false →
        let x := s.copy c
        let D := x.t0cc + s.cf x.slot CHIP_METER_METER_L
        let late := s.cc + 18 - D
        let most := s.cf x.slot CHIP_METER_LATE_MAX
        let worst (t : State) : Prop := late < 4096 → t.f CHIP_METER_WORST_WORST_CC = max (s.f CHIP_METER_WORST_WORST_CC) late
        let out (t : State) (l : Bool) : Prop := (t.copy c).state = .dequeued ∧
          (s.planned p = [] → (s.mp p).lineEnd ≤ s.cc + 18 → x.defer = 0 → (t.copy c).start = s.cc + 18) ∧ D ≤ (t.copy c).start ∧
          (t.copy c).metered = true ∧ (t.copy c).late = l ∧ c ∉ t.queue p x.queue
        (s.cc + 18 < D ∨ s.meterReady p c = false → exec (.meteredDequeue p) s = .next s) ∧
        (s.meterReady p c = true → s.cc + 18 = D → Completes (.meteredDequeue p) s fun t => out t false ∧ t.csr = s.csr ∧ t.cnt = s.cnt ∧ t.cntNew = s.cntNew) ∧
        (s.meterReady p c = true → D < s.cc + 18 → most = 0 ∨ late ≤ most → Completes (.meteredDequeue p) s fun t => out t true ∧ worst t ∧
          t.f CHIP_METER_LATE_COUNT = min (s.f CHIP_METER_LATE_COUNT + 1) (2 ^ CHIP_METER_LATE_COUNT.w - 1) ∧
          Only [CHIP_METER_LATE.addr 0 0 0, CHIP_METER_WORST.addr 0 0 0] [] { s with fwd := t.fwd, tm := t.tm, mac := t.mac, pmc := t.pmc } t) ∧
        (s.meterReady p c = true → D < s.cc + 18 → most ≠ 0 → most < late → Completes (.meteredDequeue p) s fun t =>
          (t.copy c).state = .none ∧ worst t ∧ c ∉ t.queue p x.queue ∧
          (t.tp p).lastDequeue = s.cc + 1 ∧
          t.f CHIP_METER_DROP_COUNT = min (s.f CHIP_METER_DROP_COUNT + 1) (2 ^ CHIP_METER_DROP_COUNT.w - 1));
  let gateListsRunAndSwap : Prop :=
    ∀ (s : State) (p : Fin 512),
        let o := (s.tp p).oper
        let n := 2 ^ 40
        let off := (s.nt - o.base * n) % (o.cycle * n)
        let ent (e : Nat) := s.f TM_GATE_ENT0_GATES p (s.f TM_GATE_STAT_OPER p) e
        let len (e : Nat) := s.f TM_GATE_ENT1_INTERVAL p (s.f TM_GATE_STAT_OPER p) e * n
        let only (t : State) : Prop := Only [TM_GATE_STAT.addr p 0 0] [] { s with tm := t.tm } t
        (Completes (.gateStateChange p) s fun t => only t ∧ t.tm = s.tm ∧
          (o.en = false → t.f TM_GATE_STAT_GATES p = 0xFFF) ∧ (o.en = true → s.nt < o.base * n → t.f TM_GATE_STAT_GATES p = 0) ∧
          (o.en = true → o.base * n ≤ s.nt → 1 ≤ o.cycle → 1 ≤ o.len → off < len 0 → t.f TM_GATE_STAT_GATES p = ent 0) ∧
          (o.en = true → o.base * n ≤ s.nt → 1 ≤ o.cycle → 2 ≤ o.len → len 0 ≤ off → off < len 0 + len 1 → t.f TM_GATE_STAT_GATES p = ent 1)) ∧
        (s.on TM_GATE_STAT_PENDING p = true → Completes (.gateSwapRequest p) s fun t => t.on TM_GATE_STAT_GL_REFUSED p = true ∧ t.tm = s.tm ∧ only t) ∧
        (s.on TM_GATE_STAT_PENDING p = false → Completes (.gateSwapRequest p) s fun t => t.on TM_GATE_STAT_PENDING p = true ∧ only t ∧
          let g := (t.tp p).latched
          let due := s.nt + 1000 * n
          g = { en := s.on TM_GATE_CTL_EN p, len := s.f TM_GATE_CTL_LEN p, base := s.gateBase p, cycle := s.f TM_GATE_CYCLE_CYCLE p } ∧
          (t.tp p).oper = o ∧
          (1 ≤ g.cycle → due ≤ (t.tp p).tsw ∧ g.base * n ≤ (t.tp p).tsw ∧ ((t.tp p).tsw - g.base * n) % (g.cycle * n) = 0 ∧
            ((t.tp p).tsw = g.base * n ∨ (t.tp p).tsw < due + g.cycle * n))) ∧
        (s.on TM_GATE_STAT_PENDING p = false ∨ s.nt < (s.tp p).tsw → exec (.gateSwap p) s = .next s) ∧
        (s.on TM_GATE_STAT_PENDING p = true → (s.tp p).tsw ≤ s.nt → Completes (.gateSwap p) s fun t =>
          (t.tp p).oper = { (s.tp p).latched with base := (s.tp p).tsw / n } ∧ t.f TM_GATE_STAT_OPER p = 1 - s.f TM_GATE_STAT_OPER p ∧
          t.on TM_GATE_STAT_PENDING p = false ∧ t.on TM_GATE_STAT_OPER_EN p = (s.tp p).latched.en ∧ t.on TM_GATE_STAT_SWAPPED p = true ∧ only t);
  theSchedulerTakesTheHighestLevel ∧ meteredFramesLeaveAtTheirTarget ∧ gateListsRunAndSwap

/-- EGRESS_PIPELINE of a copy that is not dequeued, or whose first cell is not delivered, changes nothing; else the in-flight count of its
slot falls, and with no program in the slot it goes on with its bytes as stored, or, with DISP[0] set in its C, is dropped and counted
under its DROP_REASON. EGRESS_MAC_START before the planned cc, on a line that is not free, or of a copy behind another changes nothing;
else the copy is being sent from this cc, and with no telemetry role and a frame that has ended the line is taken for s and the gap; a
copy with an uncorrectable later cell ends at its start, counted in BUF_UNC_STOMP. TRANSMIT_UNDERRUN of a copy that is not a received
frame's, or is store-and-forward, or before the line needs its missing cell, changes nothing; else it ends the frame at once with the
complement of its FCS, counts TX_UNDERRUN and raises T_CUR of the ingress port by one up to 63. FRAME_TX_END before the line has taken
the frame, or before every cell is delivered, changes nothing; else a good copy on a port without a telemetry role that was not selected
for a record is sent padded to 64 bytes with a new FCS, TX_FRAMES and TX_BYTES count it as sent, and a bad one, padded too, ends with
the complement of the FCS and counts TX_STOMP only; either way the copy ends. GENERATED_FRAME_SEND with nothing pending, or while the
line is taken or the port sleeps or wakes, changes nothing; else the first generated frame goes onto the line for s and the gap, a pause
or PFC frame with the port's own source address and its Ethertype, and TX_FC counts it. A generated frame whose time on the line has
passed is counted in TX_FRAMES and TX_BYTES. (spec/07_action_instructions.md, spec/06_parser_and_tables.md, spec/04_mac.md,
spec/01_cycle_ledger.md, spec/09_shared_buffer.md) -/
def Obligations.CopiesPassEgressAndLeaveSealed : Prop :=
  let copiesPassTheEgressStagesAndStart : Prop :=
    ∀ (s : State) (c : Nat),
        let x := s.copy c
        let p := x.port
        (x.state ≠ .dequeued ∨ x.got.get 0 = [] → exec (.egressPipeline c []) s = .next s) ∧
        (x.state = .dequeued → x.got.get 0 ≠ [] → (s.slot x.slot).prog = [] → (s.slot x.slot).act = [] → (s.slot x.slot).cfg = [] →
          x.region.length = 64 →
          let head := ((bytesAt (x.got.get 0) 0 256).drop 64).take (if x.lenKnown then x.len else 192)
          Completes (.egressPipeline c []) s fun t => t.f GEN_SLOT_INFL_COUNT x.slot = (s.f GEN_SLOT_INFL_COUNT x.slot - 1) % 2 ^ GEN_SLOT_INFL_COUNT.w ∧
            (natBit (fieldAt x.region 0x15 1) 0 = false → (t.copy c).state = .piped ∧ (t.copy c).out = head ∧
              (t.copy c).region = x.region ∧ t.tab.drops = s.tab.drops) ∧
            (natBit (fieldAt x.region 0x15 1) 0 = true → (t.copy c).state = .none ∧
              let k := 256 * sliceOf p + fieldAt x.region 0x19 1
              t.tab.drops.get k = min (s.tab.drops.get k + 1) (2 ^ 48 - 1))) ∧
        (∀ cells : List (List Nat), s.tlm.out = [] →
          (x.state ≠ .piped ∨ s.cc < x.start ∨ s.lineFree p = false ∨ (s.planned p).head? ≠ some c → exec (.egressMacStart c cells) s = .next s) ∧
          (x.state = .piped → x.start ≤ s.cc → s.lineFree p = true → (s.planned p).head? = some c →
            (x.broken = false → Completes (.egressMacStart c cells) s fun t =>
              (t.copy c).state = .sending ∧ (t.copy c).start = s.cc ∧ (t.mp p).openFrame = (if x.ended then none else some c) ∧
              (x.ended = true → s.f TLM_PORT_CFG_ROLE p = 0 →
                (t.mp p).lineEnd = s.cc + termS (sealBody (t.wholeBody (t.copy c))).length (s.portRate p false) + termG (s.portRate p false)) ∧
              (x.stamp = none → t.cnt = s.cnt) ∧ t.tm = s.tm) ∧
            (x.broken = true → x.stamp = none → Completes (.egressMacStart c cells) s fun t => (t.copy c).state = .none ∧ (t.mp p).openFrame = none ∧
              t.cval C_BUF_UNC_STOMP = min (s.cval C_BUF_UNC_STOMP + 1) (2 ^ 48 - 1)))) ∧
        (x.state ≠ .sending ∨ x.fromPort = false ∨ x.saf = true ∨ s.allGot x = true ∨ s.cc < s.cellAt x x.missing → exec (.transmitUnderrun c) s = .next s) ∧
        (x.state = .sending → x.fromPort = true → x.saf = false → s.allGot x = false → s.cellAt x x.missing ≤ s.cc → s.looped p = false →
          (∀ n ∈ s.portLanes p, s.f LANE_CTL_LOOP n ≠ 3) → s.time.secondCc ≠ s.cc →
          Completes (.transmitUnderrun c) s fun t => (t.copy c).state = .none ∧
            t.cval C_TX_UNDERRUN p = min (s.cval C_TX_UNDERRUN p + 1) (2 ^ 48 - 1) ∧ (t.mp p).sent = stompFrame x.body ∧
            t.f MAC_CT_T_CUR x.inPort = min (s.f MAC_CT_T_CUR x.inPort + 1) 63 ∧ (t.mp x.inPort).underrun = true);
  let framesLeaveSealed : Prop :=
    ∀ (s : State),
        (∀ (c : Nat) (ecc : Fin 3) (cells : List (List Nat)), s.tlm.out = [] →
          let x := s.copy c
          let p := x.port
          (x.state ≠ .sending ∨ s.allGot x = false ∨ s.lineTook x = false → exec (.frameTxEnd c ecc cells) s = .next s) ∧
          (x.state = .sending → s.allGot x = true → s.lineTook x = true → s.f TLM_PORT_CFG_ROLE p = 0 → x.sel = false → s.looped p = false →
            (∀ n ∈ s.portLanes p, s.f LANE_CTL_LOOP n ≠ 3) →
            Completes (.frameTxEnd c ecc cells) s fun t => (t.copy c).state = .none ∧
              (t.mp p).sent = (if x.bad then stompFrame (padded x.body) else sealBody x.body) ∧
              (x.bad = false → let n := (sealBody x.body).length
                64 ≤ n ∧ t.cval C_TX_FRAMES p = min (s.cval C_TX_FRAMES p + 1) (2 ^ 48 - 1) ∧
                t.cval C_TX_BYTES p = min (s.cval C_TX_BYTES p + n) (2 ^ 48 - 1) ∧ t.cval C_TX_STOMP p = s.cval C_TX_STOMP p) ∧
              (x.bad = true → t.cval C_TX_STOMP p = min (s.cval C_TX_STOMP p + 1) (2 ^ 48 - 1) ∧ t.cval C_TX_FRAMES p = s.cval C_TX_FRAMES p ∧
                t.cval C_TX_BYTES p = s.cval C_TX_BYTES p))) ∧
        (∀ p : Fin 514,
          ((s.mp p).gen = [] ∨ s.lineFree p = false ∨ (s.mp p).asleep = true ∨ (s.mp p).lpiExit ≠ none → exec (.generatedFrameSend p) s = .next s) ∧
          (∀ g ∈ (s.mp p).gen, (s.mp p).gen.head? = some g → s.lineFree p = true → (s.mp p).asleep = false → (s.mp p).lpiExit = none →
            Completes (.generatedFrameSend p) s fun t =>
              let w := ((t.mp p).genOut.getD (0, [])).2
              (t.mp p).gen = (s.mp p).gen.tail ∧ (t.mp p).genOut = some (s.cc, w) ∧ t.cval C_TX_FRAMES p = s.cval C_TX_FRAMES p ∧
              (t.mp p).lineEnd = s.cc + termS w.length (s.portRate p false) + termG (s.portRate p false) ∧
              (g.fc = true → g.hello = false → t.cval C_TX_FC p = min (s.cval C_TX_FC p + 1) (2 ^ 48 - 1) ∧
                w.take 14 = [0x01, 0x80, 0xC2, 0x00, 0x00, 0x01] ++ s.sourceAddr p ++ [0x88, 0x08] ∧ (g.times.length ≤ 8 → w.length = 64) ∧
                (g.pfc = false → fieldAt w 14 2 = 1 ∧ fieldAt w 16 2 = g.times.headD 0 % 65536) ∧
                (g.pfc = true → fieldAt w 14 2 = 0x101 ∧ fieldAt w 16 2 = g.vector % 65536)) ∧
              (g.hello = true → t.cval C_DOM_HELLO_TX p = min (s.cval C_DOM_HELLO_TX p + 1) (2 ^ 48 - 1) ∧
                (t.dp p).hseq = ((s.dp p).hseq + 1) % 2 ^ 32)) ∧
          (∀ g, (s.mp p).genOut = some g → s.looped p = false →
            let a := g.1
            let w := g.2
            (s.cc < a + termS w.length (s.portRate p false) → s.genDone p = s) ∧
            (a + termS w.length (s.portRate p false) ≤ s.cc → (∀ n ∈ s.portLanes p, s.f LANE_CTL_LOOP n ≠ 3) →
              ((s.genDone p).mp p).genOut = none ∧ ((s.genDone p).mp p).sent = w ∧
              (s.genDone p).cval C_TX_FRAMES p = min (s.cval C_TX_FRAMES p + 1) (2 ^ 48 - 1) ∧
              (s.genDone p).cval C_TX_BYTES p = min (s.cval C_TX_BYTES p + w.length) (2 ^ 48 - 1))));
  copiesPassTheEgressStagesAndStart ∧ framesLeaveSealed

/-- XOFF_CHANGE sets XOFF of a lossless priority whose cells exceed the ingress threshold X, clears it when they are at most X - XON_DELTA,
or 0 when X is not above XON_DELTA, touches no other priority, and otherwise changes nothing. An UP port with PFC_TX_EN then has a PFC
frame pending with QUANTA or 0 for the priority; with PAUSE_TX_EN only, a pause with QUANTA when the first priority enters and with 0
when the last leaves; a port that is not UP has none. FC_RESEND before half of QUANTA has passed, not UP, or with no XOFF changes
nothing; else the frame for the state in force is pending again. RESIDUE_ADMIT with no pending copy of the queue, on a port that is
down, on a held queue, after four admissions to the slice in this cc, once judged in this cc, or while a queue before it in the slice is
to be judged first, changes nothing; else it is judged: without room it stays pending, HDRM_OVF of its ingress port being set when it is
lossless, and with room the oldest pending copy leaves the residue table for the tail of its queue, is charged and counted.
RESIDUE_EXPIRY of a frame without an entry, or not yet RES_MAX old, changes nothing; else every pending copy of it is gone, the entry is
free, and a single pending copy is counted in RES_EXP of its queue. (spec/10_queues_and_flow_control.md, spec/04_mac.md) -/
def Obligations.XoffAndResidueBoundTheQueues : Prop :=
  let xoffIsSignalledToThePartner : Prop :=
    ∀ (s : State) (p : Fin 512),
        let old := s.f TM_PORT_STAT_XOFF p
        let q := s.f MAC_PFC_TX_QUANTA p
        let up : Prop := s.f MAC_PORT_STAT_STATE p = 3
        let due := (s.mp p).fcLast + ceilDiv (quantaCc q (s.portRate p false)) 2
        let pfc (t : State) (pr v : Nat) : Prop := ∃ g ∈ (t.mp p).gen, g.fc = true ∧ g.pfc = true ∧ natBit g.vector pr = true ∧ g.times.getD pr 0 = v
        let only (t : State) : Prop := Only [TM_PORT_STAT.addr p 0 0] [] { s with mac := t.mac } t
        (∀ pr : Fin 8,
          let i := s.f TM_ING_CNT_CELLS p pr
          let x := s.ingressLimit s.active p
          let d := s.ca TM_ING_CFG_XON_DELTA p
          let enters : Prop := natBit (s.ca TM_ING_CFG_LL p) pr = true ∧ x < i
          let leaves : Prop := if x ≤ d then i = 0 else i ≤ x - d
          let rest (t : State) : Prop := ∀ r : Fin 8, r ≠ pr → natBit (t.f TM_PORT_STAT_XOFF p) r = natBit old r
          (natBit old pr = false → ¬ enters → exec (.xoffChange p pr) s = .next s) ∧
          (natBit old pr = true → ¬ leaves → exec (.xoffChange p pr) s = .next s) ∧
          (natBit old pr = false → enters → Completes (.xoffChange p pr) s fun t => natBit (t.f TM_PORT_STAT_XOFF p) pr = true ∧ rest t ∧ only t ∧
            (¬ up → t.mac = s.mac) ∧ (up → s.on MAC_FC_CFG_PFC_TX_EN p = true → (∀ g ∈ (s.mp p).gen, g.times.length = 8 ∨ g.pfc = false) → pfc t pr q) ∧
            (up → s.on MAC_FC_CFG_PFC_TX_EN p = false → s.on MAC_FC_CFG_PAUSE_TX_EN p = true → old = 0 →
              (t.mp p).gen = (s.mp p).gen ++ [{ fc := true, times := [q], made := s.cc }])) ∧
          (natBit old pr = true → leaves → Completes (.xoffChange p pr) s fun t => natBit (t.f TM_PORT_STAT_XOFF p) pr = false ∧ rest t ∧ only t ∧
            (¬ up → t.mac = s.mac) ∧ (up → s.on MAC_FC_CFG_PFC_TX_EN p = true → (∀ g ∈ (s.mp p).gen, g.times.length = 8 ∨ g.pfc = false) → pfc t pr 0) ∧
            (up → s.on MAC_FC_CFG_PFC_TX_EN p = false → s.on MAC_FC_CFG_PAUSE_TX_EN p = true → old = 2 ^ pr.val →
              (t.mp p).gen = (s.mp p).gen ++ [{ fc := true, times := [0], made := s.cc }]))) ∧
        (up → s.cc < due ∨ old = 0 → exec (.fcResend p) s = .next s) ∧
        (¬ up → exec (.fcResend p) s = .next s) ∧
        (up → due ≤ s.cc → old ≠ 0 → Completes (.fcResend p) s fun t => t = { s with mac := t.mac } ∧
            (s.on MAC_FC_CFG_PFC_TX_EN p = true → (s.mp p).gen = [] → ∀ pr : Fin 8, natBit old pr = true → pfc t pr q) ∧
            (s.on MAC_FC_CFG_PFC_TX_EN p = false → s.on MAC_FC_CFG_PAUSE_TX_EN p = true →
              (t.mp p).gen = (s.mp p).gen ++ [{ fc := true, times := [q], made := s.cc }]));
  let residueIsAdmittedOrExpires : Prop :=
    ∀ s : State,
        (∀ (p : Fin 512) (q : Fin 12),
          let key := 12 * p.val + q.val
          let full : Prop := 4 ≤ (s.tm.admitted.filter fun k => k / 192 == sliceOf p).length
          let done : Prop := s.tm.judged.contains key = true ∨ s.judgeNext p q = false
          (s.oldestPending p q = none ∨ s.portUp p = false ∨ s.queueHeld p q = true ∨ full ∨ done → exec (.residueAdmit p q) s = .next s) ∧
          (∀ c, s.oldestPending p q = some c → s.portUp p = true → s.queueHeld p q = false → ¬ full → ¬ done →
            (s.tm.residue.all fun e => !(e.pend.contains c && s.pendExpired e)) = true → (s.copy c).port = p.val → (s.copy c).queue = q.val →
            (s.admits (s.copy c) = false → Completes (.residueAdmit p q) s fun t => t.tm = { s.tm with judged := key :: s.tm.judged } ∧ t.fwd = s.fwd ∧
              t.cnt = s.cnt ∧ t.on TM_PORT_STAT_HDRM_OVF (s.copy c).inPort = (s.on TM_PORT_STAT_HDRM_OVF (s.copy c).inPort || (s.copy c).lossless)) ∧
            (s.admits (s.copy c) = true → Completes (.residueAdmit p q) s fun t => t.queue p q = s.queue p q ++ [c] ∧
              (t.copy c).state = .queued ∧ (t.tm.residue.all fun e => !e.pend.contains c) = true ∧
              t.tm.admitted = key :: s.tm.admitted ∧ t.tm.judged = key :: s.tm.judged ∧
              t.f TM_Q_DEPTH_CELLS p q = (s.f TM_Q_DEPTH_CELLS p q + (s.copy c).charge) % 2 ^ TM_Q_DEPTH_CELLS.w ∧
              t.cval C_TM_Q_ENQ p q = min (s.cval C_TM_Q_ENQ p q + 1) (2 ^ 48 - 1)))) ∧
        (∀ f : Nat,
          ((s.tm.residue.all fun e => e.frame != f) = true → exec (.residueExpiry f) s = .next s) ∧
          (∀ e, s.tm.residue.find? (fun e => e.frame == f) = some e →
            (s.pendExpired e = false → exec (.residueExpiry f) s = .next s) ∧
            (s.pendExpired e = true → (∀ c ∈ e.pend, (s.copy c).state = .residue) → Completes (.residueExpiry f) s fun t =>
              (∀ c ∈ e.pend, (t.copy c).state = .none) ∧ (t.tm.residue.all fun e' => !e.pend.any e'.pend.contains) = true ∧
              (∀ c, e.pend.head? = some c → e.pend.length = 1 → t.cval C_TM_Q_RES_EXP (s.copy c).port (s.copy c).queue =
                min (s.cval C_TM_Q_RES_EXP (s.copy c).port (s.copy c).queue + 1) (2 ^ 48 - 1)))));
  xoffIsSignalledToThePartner ∧ residueIsAdmittedOrExpires

/-- REPIN_START of the port that waits first, with the engine free and the shadow slot OPEN, leaves every version for the ACTIVE slot, and
every version that is not valid or names another port; where one table of a slice is named, bucket k on the port in ascending order gets
survivor k mod S of its group, the survivors being the distinct pairs of the valid versions on other ports in ascending order; a group
without survivors stays as it is. REPIN_DONE, after 2,048 cc for each group of the largest table, records the port, sets DONE, and
NO_SURVIVOR where a group had none, and interrupts Stoker. Otherwise both change nothing. (spec/06_parser_and_tables.md) -/
def Obligations.RepinMovesOnlyTheDeadPortsBuckets : Prop :=
  ∀ (s : State) (p : Fin 512),
      let g := s.f STG_REPIN_CTL_STAGE
      let n := s.shadow
      let can : Prop := s.tab.repinPort = none ∧ s.tab.repinWait.head? = some p.val ∧ s.shadowOpen = true
      let ver (u : State) (sl : Fin 32) (n : Nat) (us : List Nat) (e : Nat) := (u.pinVersion sl g n us e).getD 0
      (¬ can → exec (.repinStart p) s = .next s) ∧
      (can → Completes (.repinStart p) s fun t =>
        t.tab.repinPort = some p.val ∧ t.tab.repinWait = s.tab.repinWait.tail ∧ t.tab.repinEnd = s.cc + 2048 * s.repinGroups ∧
        t = { s with tab := t.tab } ∧
        (∀ sl : Fin 32, ∀ tb ∈ s.pinTables sl, ∀ e : Nat, e < 2048 * tb.units.length →
          let v := ver s sl n tb.units e
          let vs := (List.range 4096).map fun b => ver s sl n tb.units (4096 * (e / 4096) + b)
          let live := survivors p vs
          ver t sl s.active tb.units e = ver s sl s.active tb.units e ∧
          (natBit v 31 = false ∨ natBits v 12 9 ≠ p ∨ live = [] → (s.pinTables sl).length = 1 → ver t sl n tb.units e = v) ∧
          (natBit v 31 = true → natBits v 12 9 = p → live ≠ [] → (s.pinTables sl).length = 1 → e < 4096 * (tb.units.length / 2) →
            let k := ((vs.take (e % 4096)).filter fun w => natBit w 31 && natBits w 12 9 == p.val).length
            let w := live.getD (k % live.length) 0
            ver t sl n tb.units e = 2 ^ 31 + w % 512 * 4096 + w / 512))) ∧
      (s.tab.repinPort = none ∨ s.cc < s.tab.repinEnd → exec .repinDone s = .next s) ∧
      (∀ q, s.tab.repinPort = some q → s.tab.repinEnd ≤ s.cc → Completes .repinDone s fun t =>
        t.f STG_REPIN_STAT_PORT = q % 512 ∧ t.on STG_REPIN_STAT_DONE = true ∧ t.tab = { s.tab with repinPort := none, repinNone := false } ∧
        (s.tab.repinNone = true → t.on STG_REPIN_STAT_NO_SURVIVOR = true) ∧
        (s.tab.repinNone = false → t.on STG_REPIN_STAT_NO_SURVIVOR = s.on STG_REPIN_STAT_NO_SURVIVOR) ∧
        (s.tab.repinWait = [] → t.on STG_REPIN_STAT_ACTIVE = false) ∧ natBit (t.f STK_IRQ_PEND_PEND) 7 = true ∧
        Only [STG_REPIN_STAT.addr 0 0 0, STK_IRQ_PEND.addr 0 0 0] [] { s with tab := t.tab } t)

/-- Each of the eighteen accesses on a port that is BUSY sets COLLIDE and changes no access; else it stores BCAST, READ, SPACE and STAGE and
latches them with ADDR and the DATA registers as they stand, and the port is BUSY. TABLE_ACCESS_DONE of a port that is not BUSY, before
the fourth cc, or landed already changes nothing; then it sets DONE, BUSY being cleared with the end of the cc, and gives RESULT 3 for
an invalid space or stage or a write to SPACE 3 of the action port, else 2 for an address out of range, both leaving every memory; a
read of an SRAM row, counter entry or drop reason places it in the DATA registers with RESULT 0. A landing write of an SRAM row of no
table puts exactly that row; one that R155 protects, and a key-map or bundle write while the shadow slot is not OPEN, leaves every
memory with RESULT 1 and is counted; a bundle write to the OPEN slot changes exactly that word of it; counter entries and drop reasons
are cleared but for what they have counted in this cc, and a meter is configured with full buckets. PRS_PROG_DATA_ACCESS writes the
program word of the shadow, its reserved bits 0, while it is OPEN, discards a word from 0x1400 on, is counted as refused otherwise, and
moves ADDR on with AUTO_INC. MC_GROUP accesses latch with BUSY or collide, and one that lands writes its group of the OPEN shadow, or is
refused with RESULT 1. (spec/06_parser_and_tables.md, spec/07_action_instructions.md, spec/10_queues_and_flow_control.md) -/
def Obligations.AccessPortsAndTableWritesAct : Prop :=
  let accessPortsLatchAndReport : Prop :=
    ∀ (s : State) (sl g : Fin 32) (b act : Bool),
        (∀ c ∈ [(Instr.tableSramWrite sl b g, 0, false, b), (.tableSramRead sl g, 0, true, false), (.ternaryWrite sl b g, 1, false, b),
            (.ternaryRead sl g, 1, true, false), (.keymapWrite sl b g, 2, false, b), (.keymapRead sl g, 2, true, false)],
          (s.on STG_ACC_STAT_BUSY sl = true → Completes c.1 s fun t => t.on STG_ACC_STAT_COLLIDE sl = true ∧
            Only [STG_ACC_CTL.addr sl 0 0, STG_ACC_STAT.addr sl 0 0] [] s t) ∧
          (s.on STG_ACC_STAT_BUSY sl = false → Completes c.1 s fun t => t.on STG_ACC_STAT_BUSY sl = true ∧
            t.tab.acc.get sl = { go := s.cc, read := c.2.2.1, bcast := c.2.2.2, space := c.2.1, stage := g, addr := s.f STG_ACC_ADDR_ADDR sl,
                                 data := (List.range 12).map fun i => s.rget STG_ACC_DATA sl i } ∧
            Only [STG_ACC_CTL.addr sl 0 0, STG_ACC_STAT.addr sl 0 0] [] { s with tab := { s.tab with acc := t.tab.acc } } t)) ∧
        (∀ c ∈ [(Instr.actBundleWrite sl b g, 0, false, b, false, g.val), (.actBundleRead sl g act, 0, true, false, act, g.val),
            (.actCounterRead sl g, 1, true, false, false, g.val), (.actCounterClear sl b g, 1, false, b, false, g.val),
            (.actMeterCfgWrite sl b g, 2, false, b, false, g.val), (.actMeterCfgRead sl g, 2, true, false, false, g.val),
            (.actMeterTokensRead sl g, 3, true, false, false, g.val), (.actMeterTokensWrite sl b g, 3, false, b, false, g.val),
            (.actDropReasonRead sl, 4, true, false, false, s.f STG_ACT_CTL_STAGE sl),
            (.actDropReasonClear sl b, 4, false, b, false, s.f STG_ACT_CTL_STAGE sl)],
          (s.on STG_ACT_STAT_BUSY sl = true → Completes c.1 s fun t => t.on STG_ACT_STAT_COLLIDE sl = true ∧
            Only [STG_ACT_CTL.addr sl 0 0, STG_ACT_STAT.addr sl 0 0] [] s t) ∧
          (s.on STG_ACT_STAT_BUSY sl = false → Completes c.1 s fun t => t.on STG_ACT_STAT_BUSY sl = true ∧
            t.tab.actAcc.get sl = { go := s.cc, read := c.2.2.1, bcast := c.2.2.2.1, active := c.2.2.2.2.1, space := c.2.1, stage := c.2.2.2.2.2,
                                    addr := s.f STG_ACT_ADDR_ADDR sl, data := (List.range 4).map fun i => s.rget STG_ACT_DATA sl i } ∧
            Only [STG_ACT_CTL.addr sl 0 0, STG_ACT_STAT.addr sl 0 0] [] { s with tab := { s.tab with actAcc := t.tab.actAcc } } t)) ∧
        (s.on STG_ACC_STAT_BUSY sl = false ∨ s.cc < (s.tab.acc.get sl).go + 4 ∨ (s.tab.acc.get sl).done = true → exec (.tableAccessDone sl false) s = .next s) ∧
        (s.on STG_ACT_STAT_BUSY sl = false ∨ s.cc < (s.tab.actAcc.get sl).go + 4 ∨ (s.tab.actAcc.get sl).done = true → exec (.tableAccessDone sl true) s = .next s) ∧
        (s.on STG_ACC_STAT_BUSY sl = true → (s.tab.acc.get sl).go + 4 ≤ s.cc → (s.tab.acc.get sl).done = false → Completes (.tableAccessDone sl false) s fun t =>
          let a := s.tab.acc.get sl
          let landed := { s with tab := { s.tab with acc := t.tab.acc } }
          let invalid : Prop := 2 < a.space ∨ 17 < a.stage
          t.on STG_ACC_STAT_BUSY sl = true ∧ t.on STG_ACC_STAT_DONE sl = true ∧ (t.tab.acc.get sl).done = true ∧
          (t.tblFree sl).on STG_ACC_STAT_BUSY sl = false ∧
          (invalid → t.f STG_ACC_STAT_RESULT sl = 3 ∧ Only [STG_ACC_STAT.addr sl 0 0] [] landed t) ∧
          (¬ invalid → tblLimit a.space ≤ a.addr → t.f STG_ACC_STAT_RESULT sl = 2 ∧ Only [STG_ACC_STAT.addr sl 0 0] [] landed t) ∧
          (¬ invalid → a.read = true → t.tab = landed.tab ∧ t.slot0 = s.slot0 ∧ t.slot1 = s.slot1) ∧
          (¬ invalid → a.read = true → a.space = 0 → a.addr < 32768 → t.f STG_ACC_STAT_RESULT sl = 0 ∧
            ∀ i, i < 4 → (t.rget STG_ACC_DATA sl i).toNat = ((t.tblFree sl).rget STG_ACC_DATA sl i).toNat ∧ (t.rget STG_ACC_DATA sl i).toNat = s.tab.sram.get (32768 * (18 * sl.val + a.stage) + a.addr) / 2 ^ (32 * i) % 2 ^ 32)) ∧
        (s.on STG_ACT_STAT_BUSY sl = true → (s.tab.actAcc.get sl).go + 4 ≤ s.cc → (s.tab.actAcc.get sl).done = false → Completes (.tableAccessDone sl true) s fun t =>
          let a := s.tab.actAcc.get sl
          let landed := { s with tab := { s.tab with actAcc := t.tab.actAcc } }
          let invalid : Prop := 4 < a.space ∨ (a.space < 4 ∧ 17 < a.stage) ∨ (a.space = 3 ∧ a.read = false)
          t.on STG_ACT_STAT_BUSY sl = true ∧ t.on STG_ACT_STAT_DONE sl = true ∧ (t.tab.actAcc.get sl).done = true ∧
          (t.actFree sl).on STG_ACT_STAT_BUSY sl = false ∧
          (invalid → t.f STG_ACT_STAT_RESULT sl = 3 ∧ Only [STG_ACT_STAT.addr sl 0 0] [] landed t) ∧
          (¬ invalid → actLimit a.space ≤ a.addr → t.f STG_ACT_STAT_RESULT sl = 2 ∧ Only [STG_ACT_STAT.addr sl 0 0] [] landed t) ∧
          (¬ invalid → a.read = true → a.space = 4 → a.addr < 256 → t.f STG_ACT_STAT_RESULT sl = 0 ∧
            (t.rget STG_ACT_DATA sl 0).toNat = s.tab.drops.get (256 * sl.val + a.addr) % 2 ^ 32 ∧
            (t.rget STG_ACT_DATA sl 1).toNat = s.tab.drops.get (256 * sl.val + a.addr) / 2 ^ 32 % 2 ^ 32 ∧ t.tab = landed.tab));
  let tableWritesLandOrAreRefused : Prop :=
    ∀ (s : State) (sl : Fin 32), s.active ≤ 1 →
        let a := s.tab.acc.get sl
        let k := 32768 * (18 * sl.val + a.stage) + a.addr
        let refused (t : State) : Prop := t.cval C_STG_WR_REFUSED sl = min (s.cval C_STG_WR_REFUSED sl + 1) (2 ^ 48 - 1) ∧
          t.tab = { s.tab with acc := t.tab.acc, actAcc := t.tab.actAcc } ∧ t.slot0 = s.slot0 ∧ t.slot1 = s.slot1
        (s.on STG_ACC_STAT_BUSY sl = true → a.go + 4 ≤ s.cc → a.done = false → a.stage < 18 → a.read = false → a.bcast = false → a.player = false →
          (a.space = 0 → a.addr < 32768 →
            ((s.slot s.shadow).unitOwner sl a.stage (a.addr / 1024) = none → Completes (.tableAccessDone sl false) s fun t =>
              t.f STG_ACC_STAT_RESULT sl = 0 ∧ t.tab.sram.get k = natOfWords (a.data.take 4) ∧ t.cnt = s.cnt ∧
              (∀ j, j ≠ k → t.tab.sram.get j = s.tab.sram.get j) ∧ t.tab = { s.tab with sram := t.tab.sram, undo := (k, s.tab.sram.get k) :: s.tab.undo, acc := t.tab.acc }) ∧
            (s.rowRefused false sl a.stage a.addr (natOfWords (a.data.take 4)) = true → Completes (.tableAccessDone sl false) s fun t =>
              t.f STG_ACC_STAT_RESULT sl = 1 ∧ refused t)) ∧
          (a.space = 2 → a.addr < 256 → s.shadowOpen = false → Completes (.tableAccessDone sl false) s fun t =>
            t.f STG_ACC_STAT_RESULT sl = 1 ∧ refused t)) ∧
        (let d := s.tab.actAcc.get sl;
          s.on STG_ACT_STAT_BUSY sl = true → d.go + 4 ≤ s.cc → d.done = false → d.stage < 18 → d.read = false → d.bcast = false → d.player = false →
          (d.space = 0 → d.addr < 8192 →
            (s.shadowOpen = true → Completes (.tableAccessDone sl true) s fun t => t.f STG_ACT_STAT_RESULT sl = 0 ∧
              (t.slot s.shadow).act.get (8192 * (18 * sl.val + d.stage) + d.addr) = d.data.getD 0 0 ∧ t.slot s.active = s.slot s.active ∧
              (t.slot s.shadow).cfg = (s.slot s.shadow).cfg ∧ t.tab = { s.tab with actAcc := t.tab.actAcc }) ∧
            (s.shadowOpen = false → Completes (.tableAccessDone sl true) s fun t => t.f STG_ACT_STAT_RESULT sl = 1 ∧ refused t)) ∧
          (d.space = 1 → d.addr < 8192 → Completes (.tableAccessDone sl true) s fun t =>
            t.tab.counts.get (8192 * (18 * sl.val + d.stage) + d.addr) = s.tab.countsNew.get (8192 * (18 * sl.val + d.stage) + d.addr) ∧ t.tab.meters = s.tab.meters ∧ t.tab.drops = s.tab.drops) ∧
          (d.space = 2 → d.addr < 2048 → Completes (.tableAccessDone sl true) s fun t =>
            let m := t.tab.meters.get (8192 * (18 * sl.val + d.stage) + d.addr)
            m.cbs = (d.data.getD 2 0).toNat % 2 ^ 24 ∧ m.c = (m.cbs * m.token : Nat) ∧ m.p = (m.pbs * m.token : Nat) ∧ m.last = s.nt ∧
            m.cir ≤ m.pir ∧ m.cir = (d.data.getD 0 0).toNat % 2 ^ 22) ∧
          (d.space = 4 → d.addr < 256 → Completes (.tableAccessDone sl true) s fun t => t.tab.drops.get (256 * sl.val + d.addr) = s.tab.dropsNew.get (256 * sl.val + d.addr))) ∧
        (∀ v : Word,
          let pa := s.f PRS_PROG_ADDR_ADDR sl
          let inc (t : State) : Prop := t.f PRS_PROG_ADDR_ADDR sl = if s.on PRS_PROG_ADDR_AUTO_INC sl then (pa + 1) % 2 ^ 13 else pa
          (Completes (.prsProgDataAccess sl false v) s fun t => inc t ∧ Only [PRS_PROG_ADDR.addr sl 0 0] [] s t) ∧
          (s.shadowOpen = true → s.on PRS_PROG_ADDR_BCAST sl = false → Completes (.prsProgDataAccess sl true v) s fun t => inc t ∧
            (t.slot s.shadow).progWord sl pa = (if pa < 0x1400 then v &&& progMask pa else 0) ∧ t.slot s.active = s.slot s.active ∧
            (∀ b, b ≠ pa → (t.slot s.shadow).progWord sl b = (s.slot s.shadow).progWord sl b)) ∧
          (s.shadowOpen = false → Completes (.prsProgDataAccess sl true v) s fun t => inc t ∧ t.on GEN_STAT_WR_CLOSED = true ∧
            t.cval C_GEN_WR_REFUSED = min (s.cval C_GEN_WR_REFUSED + 1) (2 ^ 48 - 1) ∧ t.slot0 = s.slot0 ∧ t.slot1 = s.slot1)) ∧
        (∀ (grp : Fin 65536) (act : Bool), ∀ c ∈ [(Instr.mcGroupWrite grp, false, false), (.mcGroupRead grp act, true, act)],
          (s.on TM_MC_STAT_BUSY = true → Completes c.1 s fun t => t.on TM_MC_STAT_COLLIDE = true ∧
            Only [TM_MC_CTL.addr 0 0 0, TM_MC_STAT.addr 0 0 0] [] s t) ∧
          (s.on TM_MC_STAT_BUSY = false → Completes c.1 s fun t => t.on TM_MC_STAT_BUSY = true ∧ t.tab.mcAcc.go = s.cc ∧
            t.tab.mcAcc.read = c.2.1 ∧ t.tab.mcAcc.active = c.2.2 ∧ t.tab.mcAcc.addr = grp.val ∧ t.tab.mcAcc.player = false ∧
            t.tab.mcAcc.data = BitVec.ofNat 32 (s.f TM_MC_FLAGS_PRUNE) :: (List.range 16).map (fun i => s.rget TM_MC_DATA i) ∧
            Only [TM_MC_CTL.addr 0 0 0, TM_MC_STAT.addr 0 0 0] [] { s with tab := { s.tab with mcAcc := t.tab.mcAcc } } t)) ∧
        (let d := s.tab.mcAcc; d.read = false → d.player = false →
          s.mcDone.on TM_MC_STAT_BUSY = false ∧ s.mcDone.on TM_MC_STAT_DONE = true ∧
          (s.shadowOpen = true → s.mcDone.f TM_MC_STAT_RESULT = 0 ∧ s.mcDone.slot s.active = s.slot s.active ∧
            ((s.mcDone.slot s.shadow).mc.get d.addr) = { map := mapOfWords d.data.tail, prune := (d.data.headD 0).toNat % 2 == 1 }) ∧
          (s.shadowOpen = false → s.mcDone.f TM_MC_STAT_RESULT = 1 ∧ s.mcDone.slot0 = s.slot0 ∧ s.mcDone.slot1 = s.slot1 ∧
            s.mcDone.cval C_GEN_WR_REFUSED = min (s.cval C_GEN_WR_REFUSED + 1) (2 ^ 48 - 1)));
  accessPortsLatchAndReport ∧ tableWritesLandOrAreRefused

/-- For every access of the table port that lands, read or write, broadcast or not, whatever its address and data and whether the shadow
slot is OPEN or not: in every stage whose table configuration in the shadow slot is that of the ACTIVE slot and is one that the commit
check accepts, every lookup of every table slot, for every record, under the ACTIVE generation's configuration and key maps, delivers
the same HIT, index, data and double-hit mark from the memory as it is after the write as from the memory before.
(spec/06_parser_and_tables.md) -/
def Obligations.TableWritesCannotChangeLiveLookups : Prop :=
  ∀ (s : State) (sl : Fin 32), s.active ≤ 1 → s.on STG_ACC_STAT_BUSY sl = true → (s.tab.acc.get sl).go + 4 ≤ s.cc → (s.tab.acc.get sl).done = false →
      Completes (.tableAccessDone sl false) s fun t =>
        ∀ (x : Fin 32) (g : Fin 18) (k : Fin 4) (rec : List Byte),
          let ga := s.slot s.active
          (∀ r ∈ [STG_TBL_CFG, STG_TBL_UNITS, STG_TBL_DEF, STG_TBL_SEED], ∀ j, j < 4 → (s.slot s.shadow).rget r x g j = ga.rget r x g j) → ga.stageBad x g = false →
          let look (u : State) := u.lookSlot x g s.active rec (ga.tblSlot x g k) ((u.slot s.active).keymapEntries x g (ga.tblSlot x g k).keymap)
          t.active = s.active ∧ (look t).1.hit = (look s).1.hit ∧ (look t).1.index = (look s).1.index ∧ (look t).1.data = (look s).1.data ∧
          (look t).2 = (look s).2

/-- NT_SNAPSHOT_READ puts NT into TIME_NOW_HI, _MID, _LO and _FRAC down to 1/65,536 ns, and changes nothing else. SET with a size above
JUMP_MAX and no override leaves NT, sets JUMP_REF and raises a TIME fault; any other SET gives NT the value of TIME_SET, sets STEPPED
and uses the override up; forward, a one-shot output it passes ends LATE and a periodic one goes on with its first edge at or after the
new NT; backward, every meter takes the new NT as its last refill. JUMP_OVR sets the override alone. TSQ_POP shows the five words of the
oldest stamp of the queue, or zeros, and removes it. TIN_EDGE and PPS_EDGE of a polarity that EDGE selects record the edge with its NT
and raise the source TIN with IRQ_EN, unless it comes within 20 ns of the last recorded one or 16 wait, which only add to LOST and, for
the full FIFO, set OVF; other polarities record nothing. With SRC 1 a rising 1PPS edge is also a sample of its offset from the nearest
whole second. TIN_EVENT_READ shows the oldest edge, or zeros, and removes it. TOUT_ARM and TOUT_STOP while a pulse runs wait for its
end. Else STOP clears RUN, and ARM loads the output: mode 0 idle; a one-shot that would start within 100 ns is not run and sets LATE; a
periodic output starts at its first edge from 100 ns on; the pulse is W ns, at least 4 and at most the period less 4. TOUT_EDGE makes a
leading edge once the edge's NT is reached while running, but with QUAL and the servo not LOCKED only sets SUPPRESS; and the trailing
edge W later, where a one-shot or a stopped output ends and a waiting ARM is loaded, judged by its own NT and with no edge that fell
during the pulse (the model's reading, log 131); else it changes nothing. (spec/11_network_time.md) -/
def Obligations.TimeIsReadSetStampedAndPulsed : Prop :=
  let networkTimeIsReadSetAndJumped : Prop :=
    ∀ s : State,
        let v := s.getNt4 TIME_SET_HI_SEC_HI TIME_SET_MID_SEC_LO TIME_SET_LO_NS TIME_SET_FRAC_FRAC
        let refused : Prop := s.on TIME_STAT_JUMP_OVR = false ∧ s.f TIME_JUMP_JUMP_MAX * 2 ^ 40 < ((v : Int) - s.nt).natAbs
        (Completes .ntSnapshotRead s fun t =>
          (s.nt < ntWrap → t.getNt4 TIME_NOW_HI_SEC_HI TIME_NOW_MID_SEC_LO TIME_NOW_LO_NS TIME_NOW_FRAC_FRAC = s.nt / 2 ^ 24 * 2 ^ 24) ∧
          Only [TIME_NOW_HI.addr 0 0 0, TIME_NOW_MID.addr 0 0 0, TIME_NOW_LO.addr 0 0 0, TIME_NOW_FRAC.addr 0 0 0] [] s t) ∧
        (refused → Completes .set s fun t => t.on TIME_STAT_JUMP_REF = true ∧ FaultRaised s t 7 1 1 0 ∧
          Only [TIME_STAT.addr 0 0 0] [] { s with flt := t.flt } t) ∧
        (¬ refused → Completes .set s fun t => t.nt = v % ntWrap ∧ t.on TIME_STAT_STEPPED = true ∧ t.on TIME_STAT_JUMP_OVR = false ∧
          t = { s with nt := t.nt, csr := t.csr, hwSet := t.hwSet, cnt := t.cnt, cntNew := t.cntNew, time := t.time, tab := t.tab } ∧
          t.time = { s.time with tout := t.time.tout, epochSeen := max s.time.epochSeen (t.nt / usUnit), epochCc := t.time.epochCc } ∧ t.tab = { s.tab with meters := t.tab.meters } ∧
          RegsBut (TIME_STAT.addr 0 0 0 :: (List.range 8).map fun k => TIME_TOUT_STAT.addr k 0 0) s t ∧ CountersBut [C_TIME_SKIP.addr 0 0] s t ∧
          (s.nt < v → t.tab = s.tab ∧ ∀ k : Fin 8, let o := s.tout k; let n := t.tout k
            (s.on TIME_TOUT_STAT_RUN k = false ∨ v ≤ o.edge ∨ o.rearm ≠ none → n = o) ∧
            (s.on TIME_TOUT_STAT_RUN k = true → o.rearm = none → o.edge < v → o.mode = 1 → o.next = 0 →
              t.on TIME_TOUT_STAT_RUN k = false ∧ t.on TIME_TOUT_STAT_LATE k = true) ∧
            (s.on TIME_TOUT_STAT_RUN k = true → o.rearm = none → o.edge < v → o.mode = 2 → 1 ≤ o.period →
              n = { o with next := n.next } ∧ v ≤ n.edge ∧ n.edge < v + o.period)) ∧
          (v ≤ s.nt → t.time.tout = s.time.tout ∧ t.cnt = s.cnt ∧ ∀ e ∈ t.tab.meters, e.2.last = v)) ∧
        (Completes .jumpOvr s fun t => t.on TIME_STAT_JUMP_OVR = true ∧ Only [TIME_STAT.addr 0 0 0] [] s t);
  let stampsAndEdgesAreReadOldestFirst : Prop :=
    ∀ s : State,
        (∀ q : Fin 33, Completes (.tsqPop q) s fun t =>
          let e := (s.tsq q).entries.headD []
          t.rget TIME_TSQ_W0 q = e.getD 0 0 ∧ t.rget TIME_TSQ_W1 q = e.getD 1 0 ∧ t.rget TIME_TSQ_W2 q = e.getD 2 0 ∧ t.rget TIME_TSQ_W3 q = e.getD 3 0 ∧
          t.rget TIME_TSQ_W4 q = e.getD 4 0 ∧ (t.tsq q).entries = (s.tsq q).entries.tail ∧ (t.tsq q).gap = (s.tsq q).gap ∧
          t.f TIME_TSQ_STAT_LEVEL q = ((s.tsq q).entries.length - 1) % 1024 ∧ (∀ q' : Fin 33, q' ≠ q → t.tsq q' = s.tsq q') ∧
          Only ([TIME_TSQ_STAT, TIME_TSQ_W0, TIME_TSQ_W1, TIME_TSQ_W2, TIME_TSQ_W3, TIME_TSQ_W4].map fun r => r.addr q 0 0) [] { s with time := t.time } t) ∧
        (∀ (n : Fin 5) (rise : Bool) (sub : Fin 43691),
          let c : Instr := if h : n.val < 4 then .tinEdge ⟨n, h⟩ rise sub else .ppsEdge rise sub
          let fifo (u : State) := u.time.tin.get n.val
          let taken : Prop := natBit (s.f TIME_TIN_CTL_EDGE n) (if rise then 0 else 1) = true
          let close : Prop := s.time.tinLast.get n.val ≠ 0 ∧ s.fineTime sub ≤ s.time.tinLast.get n.val + 20 * 196608
          let lost (t : State) : Prop := t.f TIME_TIN_STAT_LOST n = min (s.f TIME_TIN_STAT_LOST n + 1) (2 ^ TIME_TIN_STAT_LOST.w - 1) ∧ t.time = s.time
          let only (t : State) : Prop := Only [TIME_TIN_STAT.addr n 0 0, STK_IRQ_PEND.addr 0 0 0] [] { s with time := t.time } t
          let plain : Prop := n.val < 4 ∨ s.on TIME_CFG_SRC = false ∨ rise = false
          (plain → ¬ taken → exec c s = .next s) ∧
          (plain → taken → close → Completes c s fun t => lost t ∧ only t) ∧
          (plain → taken → ¬ close → 16 ≤ (fifo s).length → Completes c s fun t => lost t ∧ t.on TIME_TIN_STAT_OVF n = true ∧ only t) ∧
          (plain → taken → ¬ close → (fifo s).length < 16 → Completes c s fun t => only t ∧
            fifo t = fifo s ++ [{ rise := rise, nt := s.nt + sub.val * 2 ^ 24 }] ∧ t.time.tinLast.get n.val = s.fineTime sub ∧
            t.f TIME_TIN_STAT_LEVEL n = (fifo s).length + 1 ∧
            (s.on TIME_TIN_CTL_IRQ_EN n = true → natBit (t.f STK_IRQ_PEND_PEND) 5 = true) ∧
            (s.on TIME_TIN_CTL_IRQ_EN n = false → t.f STK_IRQ_PEND_PEND = s.f STK_IRQ_PEND_PEND)) ∧
          (Completes (.tinEventRead n) s fun t => fifo t = (fifo s).tail ∧ t.f TIME_TIN_STAT_LEVEL n = ((fifo s).length - 1) % 32 ∧
            Only ([TIME_TIN_STAT, TIME_TIN_EV_SEC_HI, TIME_TIN_EV_SEC_LO, TIME_TIN_EV_NS, TIME_TIN_EV_FRAC].map fun r => r.addr n 0 0) [] { s with time := t.time } t ∧
            (fifo s = [] → t.rget TIME_TIN_EV_SEC_HI n = 0 ∧ t.rget TIME_TIN_EV_SEC_LO n = 0 ∧ t.rget TIME_TIN_EV_NS n = 0 ∧ t.rget TIME_TIN_EV_FRAC n = 0) ∧
            (∀ e, (fifo s).head? = some e → t.on TIME_TIN_EV_SEC_HI_VALID n = true ∧ t.on TIME_TIN_EV_SEC_HI_RISE n = e.rise ∧
              (e.nt < ntWrap → t.getNt4 TIME_TIN_EV_SEC_HI_SEC_HI TIME_TIN_EV_SEC_LO_SEC_LO TIME_TIN_EV_NS_NS TIME_TIN_EV_FRAC_FRAC n =
                e.nt / 2 ^ 24 * 2 ^ 24)))) ∧
        (∀ sub : Fin 43691, s.on TIME_CFG_SRC = true → (∀ c, s.time.lastSampleCc = some c → c + 4 ≤ s.cc) → Completes (.ppsEdge true sub) s fun t =>
          ∀ x, t.time.sample = some x → x.due = s.cc + 4 ∧ x.pd = none ∧ x.theta.natAbs ≤ 500000000 * 65536 ∧
            (((s.nt + sub.val * 2 ^ 24) / 2 ^ 24 : Nat) - x.theta) % (1000000000 * 65536) = 0);
  let timedOutputsPulse : Prop :=
    ∀ (s : State) (n : Fin 8),
        let x := s.tout n
        let run (t : State) := t.on TIME_TOUT_STAT_RUN n
        let only (t : State) : Prop := Only [TIME_TOUT_STAT.addr n 0 0] [] { s with time := t.time } t ∧
          t.time = { s.time with tout := t.time.tout } ∧ ∀ k : Fin 8, k ≠ n → t.tout k = s.tout k
        let per := (s.f TIME_TOUT_PER_PER_NS n * 65536 + s.f TIME_TOUT_WF_PER_FRAC n) * 2 ^ 24
        let start := s.getNt4 TIME_TOUT_START_HI_SEC_HI TIME_TOUT_START_MID_SEC_LO TIME_TOUT_START_LO_NS TIME_TOUT_START_FRAC_FRAC n
        let mode := s.f TIME_TOUT_CTL_MODE n
        let loaded (least : Nat) (t : State) : Prop := let y := t.tout n
          y.mode = mode ∧ y.start = start ∧ y.period = per ∧ y.pol = s.on TIME_TOUT_CTL_POL n ∧ y.qual = s.on TIME_TOUT_CTL_QUAL n ∧
          y.width = max (4 * nsUnit) (min (s.f TIME_TOUT_WF_WIDTH n * nsUnit) (per - 4 * nsUnit)) ∧ y.pulseEnd = none ∧ y.rearm = none ∧ y.stopping = false ∧
          (mode = 0 → run t = false) ∧ (mode = 1 → start < least → run t = false ∧ t.on TIME_TOUT_STAT_LATE n = true) ∧
          (mode = 1 → least ≤ start → run t = true ∧ y.edge = start) ∧
          (mode = 2 → 1 ≤ per → run t = true ∧ least ≤ y.edge ∧ (y.next = 0 ∨ y.edge < least + per))
        (x.pulseEnd ≠ none → Completes (.toutArm n) s fun t => t.tout n = { x with rearm := some s.nt, stopping := false } ∧ t.csr = s.csr ∧ only t) ∧
        (x.pulseEnd = none → Completes (.toutArm n) s fun t => loaded (s.nt + 100 * nsUnit) t ∧ only t) ∧
        (x.pulseEnd ≠ none → Completes (.toutStop n) s fun t => t.tout n = { x with rearm := none, stopping := true } ∧ t.csr = s.csr ∧ only t) ∧
        (x.pulseEnd = none → Completes (.toutStop n) s fun t => run t = false ∧ t.time = s.time ∧ only t) ∧
        (x.pulseEnd = none → run s = false ∨ s.nt < x.edge → exec (.toutEdge n) s = .next s) ∧
        (x.pulseEnd = none → run s = true → x.edge ≤ s.nt →
          let held : Prop := x.qual = true ∧ s.f TIME_STAT_STATE ≠ 2
          Completes (.toutEdge n) s fun t => only t ∧ (t.tout n).next = x.next + 1 ∧ t.on TIME_TOUT_STAT_SUPPRESS n = decide held ∧
            (held → t.toutLevel n = s.toutLevel n ∧ (x.mode = 1 → run t = false ∧ t.on TIME_TOUT_STAT_LATE n = true) ∧ (x.mode ≠ 1 → run t = true)) ∧
            (¬ held → t.toutLevel n = !x.pol ∧ (t.tout n).pulseEnd = some (x.edge + x.width) ∧ run t = true)) ∧
        (∀ e, x.pulseEnd = some e →
          (s.nt < e → exec (.toutEdge n) s = .next s) ∧
          (e ≤ s.nt → Completes (.toutEdge n) s fun t => only t ∧ (t.tout n).pulseEnd = none ∧
            (∀ a, x.rearm = some a → loaded (max (a + 100 * nsUnit) s.nt) t) ∧
            (x.rearm = none → t.toutLevel n = x.pol ∧ (x.stopping = true ∨ x.mode = 1 → run t = false) ∧
              (x.stopping = false → x.mode ≠ 1 → run t = run s))));
  networkTimeIsReadSetAndJumped ∧ stampsAndEdgesAreReadOldestFirst ∧ timedOutputsPulse

/-- RUN enters ACQUIRE from FREE and from HOLDOVER but for one by path; HOLD enters HOLDOVER by software from ACQUIRE and LOCKED; FREE
enters FREE from any state; REQUAL clears the path average and leaves a holdover by path or software for ACQUIRE. No sample for
SAMPLE_TMO ms in ACQUIRE or LOCKED enters HOLDOVER by loss and raises a fault; HOLD_MAX seconds in HOLDOVER end in FREE with a fault. In
HOLDOVER the frequency is the integrator's. Where the table has no such move nothing changes. SAMPLE is ignored while 1PPS_IN gives the
samples, is lost when the last was less than 4 cc ago, and else waits 4 cc with TIME_OFS and, with PD_VALID, TIME_PD. SAMPLE_PROCESS
before then, or in FREE or a holdover that is not by loss, uses it up at most. Else a path delay further than PATH_STEP_MAX from the
average enters HOLDOVER by path with a fault; an offset above STEP_THR asks for a jump, or is refused with a fault; else integ and adj
take the rounded and clamped PI values, LOCK_CNT small offsets lock and three above UNLOCK_THR in LOCKED go back to ACQUIRE with a
fault. (spec/11_network_time.md) -/
def Obligations.TheServoFollowsItsTableAndSamples : Prop :=
  let theServoChangesStateAsItsTableSays : Prop :=
    ∀ s : State,
        let st := s.f TIME_STAT_STATE
        let cause := s.f TIME_STAT_CAUSE
        let is (t : State) (n c : Nat) : Prop := t.f TIME_STAT_STATE = n ∧ t.f TIME_STAT_CAUSE = c ∧ t.time.lockCount = 0 ∧ t.time.unlockCount = 0 ∧
          t.time.sample = s.time.sample ∧ t.time.integ = s.time.integ ∧ Only [TIME_STAT.addr 0 0 0, TIME_FREQ.addr 0 0 0] [] { s with time := t.time, flt := t.flt } t
        let same (t : State) : Prop := t.f TIME_FREQ_ADJ = s.f TIME_FREQ_ADJ ∧ t.flt = s.flt
        let acquires (t : State) : Prop := is t 1 0 ∧ same t ∧ t.time.lastSampleNt = s.nt
        let holds (t : State) (c : Nat) : Prop := is t 3 c ∧ t.f TIME_FREQ_ADJ = unsigned 32 s.time.integ ∧ t.time.holdFrom = s.nt
        let lost : Prop := (st = 1 ∨ st = 2) ∧ s.time.lastSampleNt + s.f TIME_TMO_SAMPLE_TMO * (1000000 * 2 ^ 40) ≤ s.nt
        let ends : Prop := st = 3 ∧ s.time.holdFrom + s.f TIME_TMO_HOLD_MAX * (1000000000 * 2 ^ 40) ≤ s.nt
        (st = 0 ∨ (st = 3 ∧ cause ≠ 2) → Completes .run s acquires) ∧
        (¬ (st = 0 ∨ (st = 3 ∧ cause ≠ 2)) → exec .run s = .next s) ∧
        (st = 1 ∨ st = 2 → Completes .hold s fun t => holds t 3 ∧ t.flt = s.flt) ∧
        (st = 0 ∨ st = 3 → exec .hold s = .next s) ∧
        (st ≠ 0 → Completes .free s fun t => is t 0 0 ∧ same t) ∧
        (st = 0 → exec .free s = .next s) ∧
        (st = 3 → 2 ≤ cause → Completes .requal s fun t => acquires t ∧ t.time.pdAvg = none) ∧
        (¬ (st = 3 ∧ 2 ≤ cause) → exec .requal s = .next { s with time := { s.time with pdAvg := none } }) ∧
        (lost → Completes .sampleTimeout s fun t => holds t 1 ∧ FaultRaised s t 7 1 3 0) ∧
        (¬ lost → exec .sampleTimeout s = .next s) ∧
        (ends → Completes .holdMaxExpiry s fun t => is t 0 0 ∧ FaultRaised s t 7 2 5 0 ∧ t.f TIME_FREQ_ADJ = s.f TIME_FREQ_ADJ) ∧
        (¬ ends → exec .holdMaxExpiry s = .next s);
  let samplesSteerTheClock : Prop :=
    ∀ s : State,
        let st := s.f TIME_STAT_STATE
        let fits : Prop := ∀ c, s.time.lastSampleCc = some c → c + 4 ≤ s.cc
        let regs (t : State) : Prop := Only [TIME_STAT.addr 0 0 0, TIME_FREQ.addr 0 0 0] [] { s with time := t.time, flt := t.flt } t
        (∀ v : Bool,
          (s.on TIME_CFG_SRC = true → exec (.sample v) s = .next s) ∧
          (s.on TIME_CFG_SRC = false → ¬ fits → Completes (.sample v) s fun t => t.on TIME_STAT_SAMPLE_LOST = true ∧ t.time = s.time ∧ Only [TIME_STAT.addr 0 0 0] [] s t) ∧
          (s.on TIME_CFG_SRC = false → fits →
            let x : Sample := ⟨s.cc + 4, signed 48 (s.f TIME_OFS_HI_OFS_HI * 2 ^ 32 + s.f TIME_OFS_LO_OFS_LO), if v then some (s.f TIME_PD_PD) else none⟩
            exec (.sample v) s = .next { s with time := { s.time with lastSampleCc := some s.cc, lastSampleNt := s.nt, sample := some x } })) ∧
        (s.time.sample = none → exec .sampleProcess s = .next s) ∧
        (∀ x, s.time.sample = some x →
          let th := x.theta.natAbs
          let live : Prop := st = 1 ∨ st = 2
          let jumps : Prop := s.f TIME_STEP_STEP_THR * 65536 < th
          let refused : Prop := s.on TIME_STAT_JUMP_OVR = false ∧ s.f TIME_JUMP_JUMP_MAX * 2 ^ 40 < th * 2 ^ 24
          let lim : Int := (s.f TIME_CFG_FREQ_MAX * 256 : Nat)
          let clamp (a : Int) : Int := max (-lim) (min a lim)
          (s.cc < x.due → exec .sampleProcess s = .next s) ∧
          (x.due ≤ s.cc → st = 0 ∨ (st = 3 ∧ s.f TIME_STAT_CAUSE ≠ 1) → exec .sampleProcess s = .next { s with time := { s.time with sample := none } }) ∧
          (x.due ≤ s.cc → st = 3 → s.f TIME_STAT_CAUSE = 1 → x.pd = none → ¬ jumps → 2 ≤ s.f TIME_LOCK_LOCK_CNT →
            Completes .sampleProcess s fun t => t.f TIME_STAT_STATE = 1 ∧ t.time.sample = none ∧ regs t) ∧
          (x.due ≤ s.cc → live → ∀ pd, x.pd = some pd → ∀ a, s.time.pdAvg = some a →
            s.f TIME_STEP_PATH_STEP_MAX * 256 * 16 ^ a.2 < ((pd : Int) * 16 ^ a.2 - a.1).natAbs →
            Completes .sampleProcess s fun t => t.f TIME_STAT_STATE = 3 ∧ t.f TIME_STAT_CAUSE = 2 ∧ t.on TIME_STAT_PATH_STEP = true ∧
              FaultRaised s t 7 1 4 0 ∧ t.time.pdAvg = s.time.pdAvg ∧ t.time.integ = s.time.integ ∧ regs t) ∧
          (x.due ≤ s.cc → live → ∀ pd, x.pd = some pd → (∀ a, s.time.pdAvg = some a → ((pd : Int) * 16 ^ a.2 - a.1).natAbs ≤ s.f TIME_STEP_PATH_STEP_MAX * 256 * 16 ^ a.2) →
            Completes .sampleProcess s fun t => regs t ∧ (s.time.pdAvg = none → t.time.pdAvg = some ((pd : Int), 0)) ∧
              ∀ a, s.time.pdAvg = some a → t.time.pdAvg = some (15 * a.1 + (pd : Int) * 16 ^ a.2, a.2 + 1)) ∧
          (x.due ≤ s.cc → live → x.pd = none → jumps → Completes .sampleProcess s fun t => regs t ∧ t.nt = s.nt ∧ t.f TIME_STAT_STATE = st ∧
            t.time = { s.time with sample := none, lockCount := 0, unlockCount := 0, jump := t.time.jump } ∧
            (refused → t.on TIME_STAT_JUMP_REF = true ∧ FaultRaised s t 7 1 1 0 ∧ t.time.jump = s.time.jump) ∧
            (¬ refused → t.time.jump = some (-x.theta * 2 ^ 24) ∧ t.on TIME_STAT_JUMP_OVR = false ∧ t.flt = s.flt)) ∧
          (x.due ≤ s.cc → live → x.pd = none → ¬ jumps → Completes .sampleProcess s fun t => regs t ∧ t.nt = s.nt ∧ t.time.sample = none ∧
            t.time.integ = clamp (roundEven (s.time.integ * 65536 - (s.f TIME_GAIN_KI : Int) * x.theta) 65536) ∧
            t.f TIME_FREQ_ADJ = unsigned 32 (clamp (roundEven (t.time.integ * 65536 - (s.f TIME_GAIN_KP : Int) * x.theta) 65536)) ∧
            (st = 1 → t.f TIME_STAT_STATE = if s.f TIME_LOCK_LOCK_CNT ≤ (if th ≤ s.f TIME_LOCK_LOCK_THR * 65536 then s.time.lockCount + 1 else 0) then 2 else 1) ∧
            (st = 2 → s.f TIME_LOCK_UNLOCK_THR * 65536 < th → 2 ≤ s.time.unlockCount → t.f TIME_STAT_STATE = 1 ∧ FaultRaised s t 7 0 2 0) ∧
            (st = 2 → th ≤ s.f TIME_LOCK_UNLOCK_THR * 65536 ∨ s.time.unlockCount < 2 → t.f TIME_STAT_STATE = 2 ∧ t.flt = s.flt)));
  theServoChangesStateAsItsTableSays ∧ samplesSteerTheClock

/-- Every W1C field has a companion or is the companion of another. REGISTER_WRITE of a word with a 1 at a bit of a W1C field clears the bit
when hardware has not set it in this cc; when hardware has, the bit stays 1 and its companion's own bit is set, and a companion's bit
stays 1. When hardware sets the bit later in that cc (State.flag), the same holds. No flag resets to 1, so the table of registers shows
the bits themselves. (R468) -/
def Obligations.FlagsThatAreSetAgainAreNotLost : Prop :=
  let all : List (Reg × List Fld) := [regsCHIP, regsLANE, regsMAC, regsTRK, regsPRS, regsSTG, regsGEN, regsBUF, regsPOOL, regsTM, regsTIME, regsHOB, regsPWR, regsDOM, regsTLM,
    regsPMC, regsSTK, regsUC, regsJOR, regsFLT, regsBOOT].flatten;
  (∀ e ∈ all, ∀ x ∈ e.2, x.acc = .w1c → x.sa ≠ none ∨
    (all.any fun f => f.2.any fun y => y.acc == .w1c && (y.sa == some (e.1.base - f.1.base, x.lsb)) && f.1.base ≤ e.1.base && y.w == x.w) = true) ∧
  ∀ (s : State) (m : Fin 6) (a : BitVec 48) (v : Word), a.toNat % 4 = 0 → counterAt a.toNat = none → ∀ p, placeOf a.toNat = some p →
    ∀ x ∈ p.fields, x.acc = .w1c → ∀ b, b < x.w → v.getLsbD (x.lsb + b) = true →
      let n := x.lsb + b
      let bit (t : State) : Bool := (t.csr.get a.toNat).getLsbD n
      let again (t : State) : Prop := ∀ c, x.sa = some c → (t.csr.get (a.toNat + c.1)).getLsbD (c.2 + b) = true
      (∀ e ∈ s.hwSet, (s.csr.get e.1).getLsbD e.2 = true) →
      Completes (.registerWrite m a v) s fun t =>
        ((a.toNat, n) ∈ s.hwSet → bit t = true ∧ again t) ∧
        ((a.toNat, n) ∉ s.hwSet → (a.toNat, n) ∉ t.hwSet → bit t = false) ∧
        ((a.toNat, n) ∉ s.hwSet → p.reg.act = .none → x.sa ≠ none → bit t = false) ∧
        let u := t.flag x p.i p.j p.k b
        bit u = true ∧ again u

/-- REGISTER_WRITE of an unaligned address or one that names no register changes nothing, and of a counter changes no counter. Of a register
with nothing behind it, it stores every RW field, at the value the field's text gives for what is written, keeps RO fields and reserved
bits, and changes no other register but flag companions. Of a configuration register it stores in the shadow slot alone while that is
OPEN, and otherwise only counts GEN_WR_REFUSED and sets WR_CLOSED. COUNTER_LO_READ snapshots the counter's upper half and changes no
counter, but for the performance counters, which first count the occurrences of the cc. LANE_, MAC_, TRK_MEM_, PRS_, STG_, STG_ACT_,
GEN_, BUF_, TM_PORT_, TM_CHIP_, TIME_, TIME_TSQ_, HOB_, PWR_, DOM_PORT_, TLM_, STK_, UC_, JOR_ and FLT_ clears set exactly their own
counters to 0, what was counted in the cc of the clear being counted after it. POOL_CNT_CLR also sets each LOW to its FREE;
CHIP_METER_CLR, CHIP_MODE_CLR and TIN_LOST_CLR do the same with the fields of their registers, WORST keeping the greatest lateness of
the cc; nothing else changes. (spec/00_scope.md, spec/08_table_generations.md, spec/15_telemetry_and_counters.md, spec/03_lanes.md,
spec/04_mac.md, spec/06_parser_and_tables.md, spec/09_shared_buffer.md, spec/10_queues_and_flow_control.md, spec/11_network_time.md) -/
def Obligations.RegistersStoreAndCountersClear : Prop :=
  let registerWritesStoreTheirFields : Prop :=
    ∀ (s : State) (m : Fin 6) (a : BitVec 48),
        let n := a.toNat
        let only (as : List Nat) (t : State) : Prop := t = { s with csr := t.csr, hwSet := t.hwSet, swClr := t.swClr, pmc := { s.pmc with events := t.pmc.events } } ∧ RegsBut as s t
        (∀ v : Word,
          (n % 4 ≠ 0 ∨ isCsr n = false → exec (.registerWrite m a v) s = .next s) ∧
          (n % 4 = 0 → counterAt n ≠ none → Completes (.registerWrite m a v) s fun t => only [] t) ∧
          (n % 4 = 0 → counterAt n = none → ∀ p, placeOf n = some p →
            let old := s.rget p.reg p.i p.j p.k
            (p.reg.cfg = false → p.reg.act = .none → Completes (.registerWrite m a v) s fun t =>
              let new := t.rget p.reg p.i p.j p.k
              (∀ x ∈ p.fields, x.acc = .rw → wordBits new x.lsb x.w = x.stored (wordBits v x.lsb x.w) % 2 ^ x.w) ∧
              (∀ x ∈ p.fields, x.acc = .ro → wordBits new x.lsb x.w = wordBits old x.lsb x.w) ∧
              (∀ b, b < 32 → (p.fields.all fun x => b < x.lsb || x.lsb + x.w ≤ b) = true → new.getLsbD b = old.getLsbD b) ∧
              only (n :: p.fields.filterMap fun x => x.sa.map fun c => n + c.1) t) ∧
            (p.reg.cfg = true → s.shadowOpen = false → Completes (.registerWrite m a v) s fun t => t.on GEN_STAT_WR_CLOSED = true ∧
              t.cval C_GEN_WR_REFUSED = min (s.cval C_GEN_WR_REFUSED + 1) (2 ^ 48 - 1) ∧
              Only [GEN_STAT.addr 0 0 0] [C_GEN_WR_REFUSED.addr 0 0] { s with pmc := { s.pmc with events := t.pmc.events } } t) ∧
            (p.reg.cfg = true → s.shadowOpen = true → s.active ≤ 1 → Completes (.registerWrite m a v) s fun t =>
              let g := s.slot s.shadow
              t.slot s.active = s.slot s.active ∧ (∀ b, b ≠ n → (t.slot s.shadow).cfg.get b = g.cfg.get b) ∧
              t.slot s.shadow = { g with cfg := (t.slot s.shadow).cfg } ∧
              (p.reg.base ≠ MAC_PORT_CFG.base → p.reg.act = .none → ∀ x ∈ p.fields, x.acc = .rw →
                wordBits ((t.slot s.shadow).rget p.reg p.i p.j p.k) x.lsb x.w = x.stored (wordBits v x.lsb x.w) % 2 ^ x.w) ∧
              Only [LANE_OCT_STAT.addr p.i 0 0] [] { s with pmc := { s.pmc with events := t.pmc.events }, slot0 := t.slot0, slot1 := t.slot1 } t))) ∧
        (counterAt n = none → exec (.counterLoRead m a) s = .next s) ∧
        (∀ e, counterAt n = some e → Completes (.counterLoRead m a) s fun t =>
          (pmcAt n = none → t = { s with snap := t.snap, pmc := { s.pmc with events := t.pmc.events } }) ∧
          (pmcAt n ≠ none → t = { s with snap := t.snap, pmc := t.pmc, cnt := t.cnt, cntNew := t.cntNew, csr := t.csr, hwSet := t.hwSet }) ∧
          (e.2 = true → t = s) ∧ (e.2 = false → pmcAt n = none → t.snap.get (n + 4) = s.cnt.get n / 2 ^ 32 ∧ ∀ b, b ≠ n + 4 → t.snap.get b = s.snap.get b));
  let clearsZeroTheirOwnCounters : Prop :=
    ∀ (s : State) (l : Fin 514) (n : Fin 512) (sl : Fin 32) (q : Fin 33) (r : Fin 2) (i : Fin 5),
        let one (i : Nat) (cs : List Cnt) : List Nat := cs.map fun c => c.addr i 0
        let pool : List Nat := C_POOL_BAD_FREE.addr 0 0 :: (List.range 4).flatMap fun k => one k [C_POOL_GRANT, C_POOL_FALLBACK, C_POOL_REFUSED]
        let clears (c : Instr) (as : List Nat) : Prop := Completes c s fun t => (∀ a ∈ as, t.cnt.get a = min (s.cntNew.get a) (2 ^ 48 - 1)) ∧ t = { s with cnt := t.cnt } ∧ CountersBut as s t;
        clears (.laneCntClr l) (one l [C_LANE_PRBS_ERR, C_LANE_FEC_CORR, C_LANE_FEC_UNCORR, C_LANE_FEC_SYM]) ∧
        clears (.macCntClr l) (one l cntsMAC) ∧
        clears (.trkMemCntClr n) (one n cntsTRK) ∧
        clears (.prsCntClr sl) (one sl cntsPRS) ∧
        clears (.stgCntClr sl) (C_STG_WR_REFUSED.addr sl 0 :: (List.range 18).map fun g => C_STG_DUP_HIT.addr sl g) ∧
        clears (.stgActCntClr sl) (one sl [C_STG_ACT_RANGE]) ∧
        clears .genCntClr (one 0 cntsGEN) ∧
        clears .bufCntClr (one 0 cntsBUF) ∧
        clears (.tmPortClr n) (C_TM_XDROP.addr n 0 :: (List.range 12).flatMap fun k => [C_TM_Q_ENQ, C_TM_Q_ADMIT_DROP, C_TM_Q_FLUSH, C_TM_Q_RES_EXP].map fun c => c.addr n k) ∧
        clears .tmChipClr (one 0 [C_TM_MC_RES_FULL, C_TM_MC_EMPTY]) ∧
        clears .timeCntClr (one 0 [C_TIME_SKIP]) ∧
        clears (.timeTsqClr q) (one q [C_TIME_TSQ_OVF]) ∧
        clears .hobCntClr (one 0 cntsHOB) ∧
        clears .pwrCntClr (one 0 cntsPWR) ∧
        clears (.domPortClr n) (one n cntsDOM) ∧
        clears .tlmCntClr (one 0 cntsTLM) ∧
        clears .stkCntClr (one 0 cntsSTK) ∧
        clears .ucCntClr (one 0 cntsUC) ∧
        clears (.jorCntClr r) (one r cntsJOR) ∧
        clears .fltCntClr ((List.range 16).map fun c => C_FLT_TOTAL.addr c 0) ∧
        (Completes .poolCntClr s fun t => (∀ a ∈ pool, t.cnt.get a = min (s.cntNew.get a) (2 ^ 48 - 1)) ∧ (∀ k : Fin 4, t.f POOL_LOW_LOW k = s.f POOL_FREE_FREE k) ∧
            t = { s with cnt := t.cnt, csr := t.csr } ∧ CountersBut pool s t ∧ RegsBut ((List.range 4).map fun k => POOL_LOW.addr k 0 0) s t) ∧
        (let zero (c : Instr) (xs : List (Fld × Nat)) : Prop := Completes c s fun t => (∀ x ∈ xs, t.f x.1 x.2 = min (s.cntNew.get (x.1.at x.2)) (2 ^ x.1.w - 1)) ∧ t = { s with csr := t.csr } ∧
            RegsBut (CHIP_METER_WORST.addr 0 0 0 :: xs.map fun x => x.1.at x.2) s t ∧ t.on TIME_TIN_STAT_OVF i = s.on TIME_TIN_STAT_OVF i ∧
            t.f TIME_TIN_STAT_LEVEL i = s.f TIME_TIN_STAT_LEVEL i;
          zero .chipMeterClr [(CHIP_METER_LATE_COUNT, 0), (CHIP_METER_DROP_COUNT, 0)] ∧
          (Completes .chipMeterClr s fun t => let w := s.cntNew.get (CHIP_METER_WORST.addr 0 0 0)
            t.f CHIP_METER_WORST_WORST_CC = min w 4095 ∧ t.on CHIP_METER_WORST_OVER = decide (4095 < w)) ∧
          zero .chipModeClr [(CHIP_MODE_DRAIN_DROP_COUNT, 0), (CHIP_MODE_FLUSH_COUNT, 0)] ∧ zero (.tinLostClr i) [(TIME_TIN_STAT_LOST, i.val)]);
  registerWritesStoreTheirFields ∧ clearsZeroTheirOwnCounters

/-- With no block handed out, no step of the context in DOWN and no deadline of it due: of a TYPE that is not the oldest frame's, of a frame
still arriving or being stored, or with the engine halted, nothing changes. Else the frame leaves intake. For a context not ACTIVE, a
header that does not fit, or a bad PCRC it is dropped under its counter. A valid CONTRIB sets its bit, opens the step within the window,
or is dropped as duplicate, ahead, or answered again; a RESULT or ACK takes a step from UP to DOWN with RESULT to DOWN_MAP and ACK to
the rest in ascending order, else is a duplicate; an ABORT aborts the context with cause 2 and is passed to every neighbour but its
sender. For an ACTIVE context at its home engine, not halted and with room in its writer queue, the first step and chunk where the
operation may issue is taken, its inputs having come out of their operations: CMB2 puts the first child's lanes combined with the
second's into the accumulator, CMBA the accumulator combined with the next child's, LD a single contribution of another type widened;
the step's other chunks stand. CVT, BSQ and BSXT mark the first fully combined chunk, or the next tile, as converted. One issue of the
engine is counted with its energy, in an hc of this cc. In a cc whose hcs the Damper alone closes, a request alone is counted; elsewhere
nothing changes. (spec/12_hob_collectives.md) -/
def Obligations.HobFramesSettleAndCombine : Prop :=
  let hobFramesAreJudgedAndSettled : Prop :=
    ∀ (s : State) (eng : Fin 32),
        let first := s.hob.intake.find? fun i => i.ctx % 32 == eng.val
        let cmds : List (Instr × Nat) := [(.hobContrib eng [], 0), (.hobResult eng [], 1), (.hobAck eng [], 2), (.hobAbortFrame eng [], 3)]
        ∀ p ∈ cmds, (first = none → exec p.1 s = .next s) ∧ ∀ i, first = some i →
        let x := i.ctx
        let c := s.hctx x
        let f := s.frame i.frame
        (s.hobHalted x = true ∨ s.hobType i ≠ p.2 ∨ f.stored = false → exec p.1 s = .next s) ∧
        (s.hobHalted x = false → s.hobType i = p.2 → f.stored = true →
          (∀ u ∈ c.steps, u.phase ≠ .down ∧ (u.phase = .retained ∨ s.nt < u.entered + c.stepTmo * (1000 * 2 ^ 40))) → Completes p.1 s fun t =>
          let d := t.hctx x
          let up (k : Cnt) : Prop := t.cval k = min (s.cval k + 1) (2 ^ 48 - 1)
          let dropped (k : Cnt) : Prop := up k ∧ d.steps = c.steps ∧ d.st = c.st ∧ ∀ a, f.block = some a →
            t.fwd.releases = s.fwd.releases ++ [{ block := a, tag := f.tag, req := 32 + x % 32, epoch := f.epoch }]
          t.hob.intake = s.hob.intake.filter (· ≠ i) ∧ t.frame i.frame = {} ∧ t.hob.nbr = s.hob.nbr ∧ t.tm = s.tm ∧ t.mem = s.mem ∧
          (c.st ≠ 1 → dropped C_HOB_CTX_DROP ∧ d = c) ∧
          (c.st = 1 → hobRead f.bytes = none → dropped C_HOB_BADHDR ∧ d = c) ∧
          (∀ h, hobRead f.bytes = some h → c.st = 1 →
            let pl := h.payload f.bytes
            let good : Prop := f.fate = .good ∧ h.bits 7 0 32 = if pl = [] then 0 else crc32c pl
            let dist := (h.step + 2 ^ 32 - c.next) % 2 ^ 32
            let inWin : Prop := dist < c.window ∧ (h.step + 2 ^ 32 - c.firstStep) % 2 ^ 32 < c.nsteps
            let old := c.stepOf h.step
            (h.fits c = false → dropped C_HOB_BADHDR ∧ d = c) ∧ (h.fits c = true → ¬ good → dropped C_HOB_BADCRC ∧ d = c) ∧
            (h.fits c = true → good →
              (p.2 = 0 → d.pace.get (h.child + 1) = max 1 (min h.pace 32) ∧
                (∀ u, old = some u → u.phase = .retained → dropped C_HOB_RESEND ∧ d.out = c.out ++ [c.answer u h.child]) ∧
                (∀ u, old = some u → u.phase ≠ .retained → natBit u.bitmap h.child = true → dropped C_HOB_DUP ∧ d.out = c.out) ∧
                (∀ u, old = some u → u.phase ≠ .retained → natBit u.bitmap h.child = false → (d.stepOf h.step).isSome = true ∧ d.out = c.out ∧
                  ∀ v, d.stepOf h.step = some v → v.bitmap = u.bitmap ||| 2 ^ h.child ∧ v.phase = (if v.bitmap = c.expMap then .combine else .collect) ∧
                    v.ops.map (·.child) = u.ops.map (·.child) ++ [h.child]) ∧
                (old = none → inWin → (d.stepOf h.step).isSome = true ∧ d.out = c.out ++ [{ kind := 4, step := h.step }] ∧
                  ∀ v, d.stepOf h.step = some v → v.bitmap = 2 ^ h.child ∧ v.entered = s.nt) ∧
                (old = none → 2 ^ 31 ≤ dist → dropped C_HOB_DUP) ∧ (old = none → dist < 2 ^ 31 → ¬ inWin → dropped C_HOB_AHEAD)) ∧
              (p.2 = 1 ∨ p.2 = 2 → d.pace.get 0 = max 1 (min h.pace 32) ∧
                (∀ u, old = some u → u.phase ≠ .up → dropped C_HOB_DUP) ∧ (old = none → c.expMap ≠ 0 ∨ ¬ inWin → dropped C_HOB_DUP) ∧
                (∀ u, old = some u → u.phase = .up → (∀ w ∈ c.steps, w.phase ≠ .held) → c.expMap ||| c.downMap ≠ 0 → (d.stepOf h.step).isSome = true ∧
                  ∀ v, d.stepOf h.step = some v → v.phase = .down ∧ v.epc = h.epc ∧ (p.2 = 1 → v.payload = pl) ∧
                    d.out = c.out ++ (bits64 (c.expMap ||| c.downMap)).map (c.answer v)) ∧
                (old = none → c.expMap = 0 → inWin → c.downMap ≠ 0 → (∀ w ∈ c.steps, w.phase ≠ .held) → ∀ v, d.stepOf h.step = some v →
                  v.phase = .down ∧ v.entered = s.nt ∧ d.out = c.out ++ [{ kind := 4, step := h.step }] ++ (bits64 c.downMap).map (c.answer v))) ∧
              (p.2 = 3 → d.st = 3 ∧ d.cause = 2 ∧ d.steps = [] ∧ up C_HOB_ABORTS ∧ natBit (t.f STK_IRQ_PEND_PEND) 8 = true ∧
                t.flt.pend.getLast? = some { cls := 12, level := 0, code := 2, info := x % 65536, react := s.reactWord 12, cc := s.cc } ∧
                t.f HOB_ABORT_INFO_CAUSE = 2 ∧ t.f HOB_ABORT_INFO_CTX = x % 4096 ∧ (∀ o ∈ d.out, o.kind = 3 ∧ o.cause = 2) ∧
                d.out.map (·.to_) = ((if c.root then [] else [0]) ++ (bits64 (c.expMap ||| c.downMap)).map (· + 1)).filter (· ≠ s.abortSender x h f)))));
  let enginesCombineInAscendingChildOrder : Prop :=
    ∀ (s : State) (eng : Fin 32) (x : Fin 4096),
        let c := s.hctx x
        let ks := c.children
        let may : Prop := x.val % 32 = eng.val ∧ c.st = 1 ∧ s.hobHalted x = false ∧ (s.fwd.writers.get (32 + eng.val)).length < 256
        let slot := s.issueSlot eng
        let h := slot.getD (s.hcsNow.getLastD 0)
        let has (t : HobStep) (j : Nat) : Bool := match ks[j]? with | some i => (t.operand i).isSome | none => false
        let wide (t : HobStep) (j k e : Nat) : Nat := match t.operand (ks.getD j 0) with
          | some o => widen o.wtype (c.elemsOf t.num) (64 * k + e) o.payload
          | none => 0
        let asked (t' : State) : Prop := t'.hob.requests.get eng.val = s.hob.requests.get eng.val + 1
        let issued (t' : State) (op : Nat) : Prop := t'.hob.issued.get eng.val = s.hob.issued.get eng.val + 1 ∧ asked t' ∧
          t'.hob.energy.get eng.val = s.hob.energy.get eng.val + Config.weight (16 * op + c.dtype) ∧
          t'.hob.slots.get eng.val = (h :: s.hob.slots.get eng.val).take 64 ∧ (t'.hctx x).out = c.out ∧ (t'.hctx x).desc = c.desc ∧
          t'.tm = s.tm ∧ t'.mem = s.mem ∧ t'.hob.intake = s.hob.intake
        let fold (i : Instr) (op n m : Nat) (t : HobStep) (k : Nat) : Prop := (t.lanes.get k).length = 64 ∨ n = 0 → 64 * k + 64 ≤ c.elemsOf t.num →
          Completes i s fun u => issued u op ∧ ((u.hctx x).stepOf t.num).isSome = true ∧ ∀ v, (u.hctx x).stepOf t.num = some v →
            v.taken.get k = n + m ∧ v.phase = t.phase ∧ v.ops.map (·.child) = t.ops.map (·.child) ∧ v.ready.get k = h + [6, 6, 6].getD op 0 ∧
            (∀ k' : Nat, k' ≠ k → v.taken.get k' = t.taken.get k' ∧ v.lanes.get k' = t.lanes.get k') ∧
            (∀ e, e < 64 → (v.lanes.get k).getD e 0 =
              if n = 0 then (if m = 1 then wide t 0 k e else hobOp c.dtype c.op (wide t 0 k e) (wide t 1 k e))
              else hobOp c.dtype c.op ((t.lanes.get k).getD e 0) (wide t n k e))
        let mark (i : Instr) (op : Nat) (t : HobStep) (conv : List Nat) (tiles : Nat) : Prop := Completes i s fun u => issued u op ∧ u.fwd = s.fwd ∧
          ∀ v, (u.hctx x).stepOf t.num = some v → v = { t with conv := conv, tiles := tiles, ready := v.ready }
        let whole (q : Bool) (t : HobStep) (k : Nat) : Bool :=
          q && c.converts t && t.phase == .combine && t.taken.get k == ks.length && t.ready.get k ≤ h && !t.conv.contains k
        let cvt := !blockScaled c.dtype || (c.root && c.outXpose)
        let ld := c.firstIssue fun t k => ks.length == 1 && !c.relays t && t.taken.get k == 0 && t.ready.get k ≤ h && has t 0
        let cmb2 := c.firstIssue fun t k => 2 ≤ ks.length && t.taken.get k == 0 && t.ready.get k ≤ h && has t 0 && has t 1
        let cmba := c.firstIssue fun t k => 2 ≤ t.taken.get k && t.ready.get k ≤ h && has t (t.taken.get k)
        let conv := c.firstIssue (whole cvt)
        let bsq := c.firstIssue (whole (!cvt))
        let bsxt := c.firstIssue fun t k => k == 0 && t.tiles < c.tiles t &&
          (List.range 4).all fun i => t.conv.contains (4 * t.tiles + i) && t.ready.get (4 * t.tiles + i) ≤ h;
        (∀ e ∈ [(Instr.hobLd eng x, ld), (.hobCmb2 eng x, cmb2), (.hobCmba eng x, cmba), (.hobCvt eng x, conv), (.hobBsq eng x, bsq), (.hobBsxt eng x, bsxt)],
          (¬ may ∨ e.2 = none → exec e.1 s = .next s) ∧
          (may → e.2 ≠ none → slot = none → (s.damperHolds eng = false → exec e.1 s = .next s) ∧
            (s.damperHolds eng = true → Completes e.1 s fun t => asked t ∧
              t = { s with hob := { s.hob with requests := t.hob.requests }, pmc := { s.pmc with events := t.pmc.events } }))) ∧
        ((c.steps.map (·.num)).Nodup → may → slot ≠ none →
          (∀ r, ld = some r → fold (.hobLd eng x) 0 0 1 r.1 r.2) ∧
          (∀ r, cmb2 = some r → fold (.hobCmb2 eng x) 1 0 2 r.1 r.2) ∧
          (∀ r, cmba = some r → fold (.hobCmba eng x) 2 (r.1.taken.get r.2) 1 r.1 r.2) ∧
          (∀ r, conv = some r → mark (.hobCvt eng x) 3 r.1 (r.2 :: r.1.conv) r.1.tiles) ∧
          (∀ r, bsq = some r → mark (.hobBsq eng x) 4 r.1 (r.2 :: r.1.conv) r.1.tiles) ∧
          (∀ r, bsxt = some r → mark (.hobBsxt eng x) 5 r.1 r.1.conv (r.1.tiles + 1)));
  hobFramesAreJudgedAndSettled ∧ enginesCombineInAscendingChildOrder

/-- Let two states differ only in the order in which the contributions of a context's steps arrived, each child having at most one
contribution in a step, from EXP_MAP. Then LD, CMB2, CMBA, CVT, BSQ and BSXT issue in both or in neither, and leave the same lanes,
counts of contributions taken, converted chunks and tiles in every step; and STEP_BOUNDARY leaves the same payload, wire type, EPC and
phase in every step, or the same abort. (spec/12_hob_collectives.md) -/
def Obligations.ResultsDoNotDependOnTheOrderOfArrival : Prop :=
  ∀ (s s' : State) (eng : Fin 32) (x : Fin 4096),
      let c := s.hctx x
      let c' := s'.hctx x
      s' = s.setHctx x c' → c' = { c with steps := c'.steps } → c'.steps.length = c.steps.length →
      (∀ e ∈ c.steps.zip c'.steps, e.2 = { e.1 with ops := e.2.ops } ∧ e.2.ops.Perm e.1.ops ∧ (e.1.ops.map (·.child)).Nodup ∧
        ∀ o ∈ e.1.ops, o.child ∈ c.children) →
      let same (u u' : State) : Prop := (u.hctx x).st = (u'.hctx x).st ∧ (u.hctx x).cause = (u'.hctx x).cause ∧
        (u.hctx x).steps.map (fun t => (t.num, t.phase, t.taken, t.lanes, t.conv, t.tiles, t.payload, t.wtype, t.epc)) =
        (u'.hctx x).steps.map (fun t => (t.num, t.phase, t.taken, t.lanes, t.conv, t.tiles, t.payload, t.wtype, t.epc)) ∧ u.hob.issued = u'.hob.issued;
      (Completes (.hobLd eng x) s fun u => Completes (.hobLd eng x) s' fun u' => same u u') ∧
      (Completes (.hobCmb2 eng x) s fun u => Completes (.hobCmb2 eng x) s' fun u' => same u u') ∧
      (Completes (.hobCmba eng x) s fun u => Completes (.hobCmba eng x) s' fun u' => same u u') ∧
      (Completes (.hobCvt eng x) s fun u => Completes (.hobCvt eng x) s' fun u' => same u u') ∧
      (Completes (.hobBsq eng x) s fun u => Completes (.hobBsq eng x) s' fun u' => same u u') ∧
      (Completes (.hobBsxt eng x) s fun u => Completes (.hobBsxt eng x) s' fun u' => same u u') ∧
      (Completes (.stepBoundary x []) s fun u => Completes (.stepBoundary x []) s' fun u' => same u u')

/-- With no block handed out and no step in DOWN: STEP_BOUNDARY of the first finished step, no ABORT waiting for its context and with room
in the writer queue, frees its contributions and, at a root with the expected EPC, moves it to DOWN with its answers, with another EPC
aborts with cause 7; at a non-root moves it to UP with its CONTRIB while fewer than W_eff are in UP, else to HELD. CONTRIB_RESEND
repeats the CONTRIB of each step in UP that is due, once per STEP_TMO / 4. STEP_DEADLINE aborts with cause 1 and a fault once the oldest
open step is STEP_TMO old. HOB_POOL_RETRY makes the first waiting request when it is due and its turn: a granted accumulator block is
kept by its step, one that finds its pool empty asks the next larger a cc later, a refused request waits 64 cc, and a retry after a
refusal counts HOB_POOL_WAIT. On a halted or idle context nothing changes. HOB_CTX_READ, _WRITE, ACTIVATE, _ABORT, _FREE, NBR_READ,
NBR_WRITE and the invalid command latch CMD, INDEX and the data words and set BUSY, or with BUSY already set only COLLIDE.
HOB_CTX_ACCESS_DONE before 8 cc have passed, or not BUSY, changes nothing; then it clears BUSY, sets DONE and RESULT, and: READ shows
the descriptor, WRITE stores words 0 to 11 of a FREE context, ACTIVATE makes a FREE context with a legal descriptor ACTIVE, ABORT aborts
an ACTIVE one with cause 3, but for one that becomes DONE in that cc, FREE returns a DONE or ABORTED one to FREE, NBR_READ shows and
NBR_WRITE stores an entry that no ACTIVE context covers; wrong states, indices, descriptors and commands give RESULT 1 to 4 and change
nothing else. (spec/12_hob_collectives.md) -/
def Obligations.HobStepsAndContextsRun : Prop :=
  let stepsLeaveCombineAndAreRetried : Prop :=
    ∀ (s : State) (x : Fin 4096),
        let c := s.hctx x
        let live : Prop := c.st = 1 ∧ s.hobHalted x = false
        let keep (t : State) : Prop := t.hob.intake = s.hob.intake ∧ t.hob.nbr = s.hob.nbr ∧ t.tm = s.tm ∧ t.mem = s.mem ∧ ∀ y : Fin 4096, y ≠ x → t.hctx y = s.hctx y
        let aborted (t : State) (k : Nat) : Prop := (t.hctx x).st = 3 ∧ (t.hctx x).cause = k ∧ (t.hctx x).steps = [] ∧ keep t ∧
          t.cval C_HOB_ABORTS = min (s.cval C_HOB_ABORTS + 1) (2 ^ 48 - 1) ∧
          t.flt.pend.getLast? = some { cls := 12, level := 1, code := k, info := x.val, react := s.reactWord 12, cc := s.cc } ∧ natBit (t.f STK_IRQ_PEND_PEND) 8 = true ∧
          (t.hctx x).out.map (fun o => (o.kind, o.to_, o.cause)) =
            ((if c.root then [] else [0]) ++ (bits64 (c.expMap ||| c.downMap)).map (· + 1)).map fun n => (3, n, k);
        (¬ live → exec (.stepBoundary x []) s = .next s ∧ exec (.contribResend x []) s = .next s ∧ exec (.stepDeadline x []) s = .next s) ∧
        (s.hobHalted x = true → ∀ (cells : List (List Nat)) (ecc : Fin 3), exec (.hobPoolRetry x cells ecc) s = .next s) ∧
        ((∀ u ∈ c.steps, u.phase ≠ .down) → (c.steps.map (·.num)).Nodup →
          (live → c.steps.find? c.finished = none → exec (.stepBoundary x []) s = .next s) ∧
          (live → ∀ u, c.steps.find? c.finished = some u → (∀ w ∈ c.steps, w.phase ≠ .held) → s.abortWaits x = false →
            (s.fwd.writers.get (32 + x.val % 32)).length + (c.keptCells u).length ≤ 256 →
            let epc := u.ops.foldl (fun a o => a + o.epc) 0
            Completes (.stepBoundary x []) s fun t => let d := t.hctx x; let v := (d.stepOf u.num).getD {}
              (c.root = true → epc ≠ c.expectEp → aborted t 7) ∧
              (c.root = true → epc = c.expectEp → c.expMap ||| c.downMap ≠ 0 → keep t ∧ v.phase = .down ∧ v.payload = c.payloadOf u ∧ v.epc = epc % 2 ^ 17 ∧
                v.ops = [] ∧ d.out = c.out ++ (bits64 (c.expMap ||| c.downMap)).map (c.answer v)) ∧
              (c.root = false → c.upCount < s.weff x → keep t ∧ v.phase = .up ∧ v.payload = c.payloadOf u ∧ v.wtype = c.outType ∧ v.epc = epc % 2 ^ 17 ∧ v.ops = [] ∧
                v.resendAt = s.nt + c.stepTmo * (1000 * 2 ^ 40) / 4 ∧
                d.out = c.out ++ [{ kind := 0, step := u.num, payload := v.payload, epc := v.epc, wtype := v.wtype, elems := c.elemsOf u.num }]) ∧
              (c.root = false → s.weff x ≤ c.upCount → keep t ∧ v.phase = .held ∧ v.payload = c.payloadOf u ∧ d.out = c.out)) ∧
          (live → let due := c.steps.filter fun u => u.phase == .up && u.resendAt ≤ s.nt
            (due = [] → exec (.contribResend x []) s = .next s) ∧
            Completes (.contribResend x []) s fun t => keep t ∧ t.cval C_HOB_RESEND = min (s.cval C_HOB_RESEND + due.length) (max (s.cval C_HOB_RESEND) (2 ^ 48 - 1)) ∧
              (t.hctx x).out.map (fun o => (o.kind, o.step)) = (c.out.map fun o => (o.kind, o.step)) ++ due.map (fun u => (0, u.num)) ∧
              (t.hctx x).steps = c.steps.map fun u => if u.phase = .up ∧ u.resendAt ≤ s.nt then { u with resendAt := s.nt + c.stepTmo * (1000 * 2 ^ 40) / 4 } else u) ∧
          (live → let oldest := (c.steps.filter fun u => u.phase != .retained).head?
            (oldest = none → exec (.stepDeadline x []) s = .next s) ∧
            ∀ u, oldest = some u → (s.nt < u.entered + c.stepTmo * (1000 * 2 ^ 40) → exec (.stepDeadline x []) s = .next s) ∧
              (u.entered + c.stepTmo * (1000 * 2 ^ 40) ≤ s.nt → Completes (.stepDeadline x []) s fun t => aborted t 1)) ∧
          (s.hobHalted x = false → ∀ (cells : List Nat) (ecc : Fin 3),
            let s0 := s.poolMeta ecc
            (c.out = [] → exec (.hobPoolRetry x [cells] ecc) s = .next s0) ∧
            (∀ o, c.out.head? = some o → (s0.hobReady x o = false ∨ s0.turn (hobStanding x) = false → exec (.hobPoolRetry x [cells] ecc) s = .next s0) ∧
              (s0.hobReady x o = true → s0.turn (hobStanding x) = true → o.kind = 4 →
                let n := max 1 (4 * c.stepElems)
                let want := poolFor n
                let again : Prop := o.refused = true ∧ o.pool = none
                let w := s.cval C_HOB_POOL_WAIT
                let g := (if again then s0.count C_HOB_POOL_WAIT else s0).request want (o.pool.getD want) n (128 + x.val % 32) cells
                (g.2 = .granted → Completes (.hobPoolRetry x [cells] ecc) s fun t => (t.hctx x).out = c.out.tail ∧ (again → t.cval C_HOB_POOL_WAIT = min (w + 1) (2 ^ 48 - 1)) ∧
                  (¬ again → t.cval C_HOB_POOL_WAIT = w) ∧ ∀ u ∈ c.steps, u.num = o.step → (((t.hctx x).stepOf o.step).getD {}).acc = some (cells.headD 0, s.fwd.epoch)) ∧
                (g.2 = .fallback → Completes (.hobPoolRetry x [cells] ecc) s fun t => (t.hctx x).steps = c.steps ∧
                  (t.hctx x).out = { o with pool := some (o.pool.getD want + 1), tryAt := s.cc + 1 } :: c.out.tail) ∧
                (g.2 = .refused → Completes (.hobPoolRetry x [cells] ecc) s fun t => (t.hctx x).steps = c.steps ∧
                  (t.hctx x).out = { o with pool := none, tryAt := s.cc + 64, refused := true } :: c.out.tail)))));
  let theContextPortRunsItsCommands : Prop :=
    ∀ s : State,
        (∀ i : Fin 16384, ∀ e ∈ [(Instr.hobCtxRead i, 0), (.hobCtxWrite i, 1), (.activate i, 2), (.hobCtxAbort i, 3), (.hobCtxFree i, 4), (.nbrRead i, 5), (.nbrWrite i, 6),
            (.hobCtxInvalidCmd i, 7)], Completes e.1 s fun t => t.f HOB_CTX_CTL_CMD = e.2 ∧ t.f HOB_CTX_CTL_INDEX = i.val ∧
            (s.on HOB_CTX_STAT_BUSY = true → t.on HOB_CTX_STAT_COLLIDE = true ∧ t.on HOB_CTX_STAT_BUSY = true ∧ t.hob = s.hob) ∧
            (s.on HOB_CTX_STAT_BUSY = false → t.on HOB_CTX_STAT_BUSY = true ∧
              t.hob = { s.hob with go := s.cc, cmd := e.2, index := i.val, data := (List.range 32).map fun w => s.rget HOB_CTX_DATA w }) ∧
            Only [HOB_CTX_CTL.addr 0 0 0, HOB_CTX_STAT.addr 0 0 0] [] { s with hob := t.hob } t) ∧
        (∀ cells, (s.on HOB_CTX_STAT_BUSY = false ∨ s.cc < s.hob.go + 8 → exec (.hobCtxAccessDone cells) s = .next s)) ∧
        (s.on HOB_CTX_STAT_BUSY = true → s.hob.go + 8 ≤ s.cc → Completes (.hobCtxAccessDone []) s fun t =>
          let k := s.hob.cmd
          let x := s.hob.index
          let c := s.hctx x
          let d := t.hctx x
          let r (n : Nat) : Prop := t.f HOB_CTX_STAT_RESULT = n
          let refused (n : Nat) : Prop := r n ∧ Only [HOB_CTX_STAT.addr 0 0 0] [] s t
          let shows (ws : List Word) : Prop := (∀ w, w < ws.length → t.rget HOB_CTX_DATA w = ws.getD w 0) ∧ t.hob = s.hob ∧ t.flt = s.flt ∧ t.cnt = s.cnt
          t.on HOB_CTX_STAT_BUSY = false ∧ t.on HOB_CTX_STAT_DONE = true ∧ t.tm = s.tm ∧ t.mem = s.mem ∧ t.hob.intake = s.hob.intake ∧
          (k = 7 → refused 4) ∧ (k ≤ 4 → 4096 ≤ x → refused 2) ∧
          (k = 0 → x < 4096 → r 0 ∧ shows (s.ctxWords x)) ∧
          (k = 1 → x < 4096 → c.st = 0 → r 0 ∧ d = { c with desc := storeDesc s.hob.data } ∧ t.csr.get (HOB_EVT.addr 0 0 0) = s.csr.get (HOB_EVT.addr 0 0 0)) ∧
          (k = 1 → x < 4096 → c.st ≠ 0 → refused 1) ∧
          (k = 2 → x < 4096 → c.st ≠ 0 → refused 1) ∧ (k = 2 → x < 4096 → c.st = 0 → s.activateOk c = false → refused 3) ∧
          (k = 2 → x < 4096 → c.st = 0 → s.activateOk c = true → r 0 ∧ d = { desc := c.desc, st := 1, next := c.firstStep } ∧
            t.f HOB_ENG_STAT_ACTIVE (x % 32) = (s.f HOB_ENG_STAT_ACTIVE (x % 32) + 1) % 256) ∧
          (k = 3 → x < 4096 → c.st ≠ 1 → refused 1) ∧
          (k = 3 → x < 4096 → c.st = 1 → (∀ u ∈ c.steps, u.phase ≠ .down) → r 0 ∧ d.st = 3 ∧ d.cause = 3 ∧ d.steps = [] ∧ t.cval C_HOB_ABORTS = min (s.cval C_HOB_ABORTS + 1) (2 ^ 48 - 1)) ∧
          (k = 3 → x < 4096 → c.st = 1 → s.hobHalted x = false → ((s.hobRun x []).hctx x).st = 2 → r 1 ∧ d.st = 2) ∧
          (k = 4 → x < 4096 → c.st < 2 → refused 1) ∧ (k = 4 → x < 4096 → 2 ≤ c.st → r 0 ∧ d = { c with st := 0, steps := [], out := [] }) ∧
          (k = 5 → r 0 ∧ shows ((List.range 32).map fun w => s.nbrWord x w)) ∧
          (k = 6 → s.nbrInUse x = true → refused 1) ∧
          (k = 6 → s.nbrInUse x = false → r 0 ∧ t.hob.nbr.get x = storeNbr s.hob.data ∧ t.hob.ctx = s.hob.ctx ∧ ∀ y : Nat, y ≠ x → t.hob.nbr.get y = s.hob.nbr.get y));
  stepsLeaveCombineAndAreRetried ∧ theContextPortRunsItsCommands

/-- POWER_EPOCH in an epoch already taken changes nothing. Else it changes registers, counters, fault reports and the controller's own state
alone: frames, queues, ports, tables, Stoker, collectives and memory stand. With the fixed activity a free value, it shows the estimate,
and, no clock request being due, leaves the point in the safe state and with a fixed clock, and D too in the safe state, where with a
fixed clock it is DAMPER_FIX. In boost with no deferral, no step in COMBINE and no raise under way, the point is the highest at or below
the old one at which the wants fit the share, or 0, and D is 32 when they fit there, else 32 times the engine's share, from 1 to 32.
DAMPER_DEFER_END puts the target D in force once the steps have left COMBINE or 20 us have passed, which counts PWR_DEFER_TMO; else it
changes nothing. VGOOD_REPORT marks a raise good, or sets VGOOD; BELLOWS_ABANDON ends a raise not good after 20 us, with the rail's code
back, no raise for 1 ms and a POWER fault; HOB_VGOOD_LOSS clears VGOOD outside a raise. HINT_SUBMIT and the PHASE instruction append a
hint due in the first whole us from now plus its lead, with OPP 5 and 6 as 7, or set HINT_FULL while 16 wait; PHASE answers 1 in RD when
it was taken. HINT_DUE applies the hints that are due in order of acceptance to the engines of their masks and keeps the rest. RELEARN
shows a phase's reset values again. (spec/13_power_capping.md, spec/16_stoker_instructions.md, spec/21_package_and_electrical.md) -/
def Obligations.PowerEpochsAndBellowsHints : Prop :=
  let powerEpochsMoveOnlyTheDamperAndBellows : Prop :=
    ∀ s : State,
        let us := 1000 * 2 ^ 40
        let e32 := List.range 32;
        (s.nt / us ≤ s.pwr.epoch → exec .powerEpoch s = .next s) ∧
        (s.pwr.epoch < s.nt / us → Completes .powerEpoch s fun t =>
          let r : State := { s with csr := t.csr, hwSet := t.hwSet, cnt := t.cnt, cntNew := t.cntNew, flt := t.flt, pwr := t.pwr, clk := t.clk, free := s.free + 1 }
          t = { r with hob := { s.hob with requests := [], issued := [], energy := [], scaled := [], lived := [] } } ∧ t.pwr.epoch = s.nt / us ∧ t.pwr.hints = s.pwr.hints ∧
          t.cval C_TIME_SKIP = min (s.cval C_TIME_SKIP + (s.nt / us - s.pwr.epoch - 1)) (2 ^ 48 - 1) ∧
          (let aHob := e32.foldl (fun a e => a + s.hob.scaled.get e) 0 / 1000;
            t.pwr.est = (s.pwr.gain * (s.freeVal + aHob) / 2 ^ 30 : Nat) + s.pwr.off) ∧
          (s.isSafe = true ∨ s.fixedClock = true → s.clk = none → s.pwr.raising = none → t.point = s.point ∧ t.pwr.raising = none ∧
            ∀ e : Fin 32, s.pwr.fix < 2 ^ HOB_ENG_STAT_DAMPER.w → t.damper e = if s.isSafe then s.damper e else s.pwr.fix) ∧
          (s.isSafe = false → s.fixedClock = false → s.clk = none → s.pwr.raising = none → (∀ e : Fin 32, s.on PWR_ENG_DEFER e = false ∧ s.combining e = []) → s.pwr.failed = false →
            s.f PWR_STAT_THROTTLE = 0 → s.pwr.drop = 0 → (∀ e : Fin 32, s.f HOB_ENG_STAT_ACTIVE e = 0 ∧ s.hob.lived.get e.val = false) →
            let fixed : Int := (s.pwr.gain * s.freeVal / 2 ^ 30 : Nat) + s.pwr.off
            let cap : Int := (s.f PWR_CAP_CAP : Int) * 1000000
            let share := (cap - (s.f PWR_CAP_MARGIN : Int) * 1000000 - fixed).toNat
            let wants (k : Nat) := s.sumPower e32 k s.wanted
            (∀ k, k < s.point + 1 → t.point = k → (k = 0 ∨ wants k ≤ share) ∧ ∀ j, j < s.point + 1 → k < j → share < wants j) ∧ t.point ≤ s.point ∧
            ∀ e : Fin 32, t.damper e = (if wants t.point ≤ share then 32 else max 1 (min (32 * s.wanted e * share / (65536 * wants t.point)) 32)) ∧
              t.f PWR_ENG_TARGET_D e = t.damper e)) ∧
        (∀ e : Fin 32,
          let d := s.pwr.defer.get e.val
          let busy := d.steps.any (s.combining e).contains
          (s.on PWR_ENG_DEFER e = false ∨ (busy = true ∧ s.nt < d.from_ + 20 * us) → exec (.damperDeferEnd e) s = .next s) ∧
          (s.on PWR_ENG_DEFER e = true → busy = false ∨ d.from_ + 20 * us ≤ s.nt → Completes (.damperDeferEnd e) s fun t =>
            t.damper e = s.f PWR_ENG_TARGET_D e ∧ t.on PWR_ENG_DEFER e = false ∧
            (busy = false → t.cnt = s.cnt) ∧ (busy = true → t.cval C_PWR_DEFER_TMO = min (s.cval C_PWR_DEFER_TMO + 1) (2 ^ 48 - 1)) ∧
            Only [HOB_ENG_STAT.addr e 0 0, PWR_ENG.addr e 0 0] [C_PWR_DEFER_TMO.addr 0 0] s t));
  let bellowsHintsAndLearnedDemand : Prop :=
    ∀ s : State,
        let us := 1000 * 2 ^ 40
        let hint (mask ph opp lead : Nat) : Hint := { mask := mask, phase := ph, opp := if opp ≤ 4 then opp else 7, due := ceilDiv s.nt us + lead }
        (∀ r, s.pwr.raising = some r → exec .vgoodReport s = .next { s with pwr := { s.pwr with raising := some { r with good := true } } } ∧
          exec .hobVgoodLoss s = .next s ∧ (r.good = true ∨ s.nt < r.from_ + 20 * us → exec .bellowsAbandon s = .next s) ∧
          (r.good = false → r.from_ + 20 * us ≤ s.nt → Completes .bellowsAbandon s fun t => t.point = s.point ∧ t.f PWR_BELLOWS_TARGET = s.point ∧
            t.pwr = { s.pwr with raising := none, blocked := s.nt + 1000 * us, vid := pointVid s.point } ∧ FaultRaised s t 2 1 4 0 ∧
            Only [PWR_BELLOWS.addr 0 0 0] [] { s with pwr := t.pwr, flt := t.flt } t)) ∧
        (s.pwr.raising = none → exec .bellowsAbandon s = .next s ∧
          (Completes .vgoodReport s fun t => t.on PWR_STAT_VGOOD = true ∧ Only [PWR_STAT.addr 0 0 0] [] s t) ∧
          (Completes .hobVgoodLoss s fun t => t.on PWR_STAT_VGOOD = false ∧ t.point = s.point ∧ Only [PWR_STAT.addr 0 0 0] [] s t)) ∧
        (∀ v : Word,
          (s.pwr.hints.length < 16 → exec (.hintSubmit v) s = .next { s with pwr := { s.pwr with
            hints := s.pwr.hints ++ [hint (s.f PWR_HINT_MASK_ENG) (wordBits v 0 6) (wordBits v 8 3) (wordBits v 16 16)] } }) ∧
          (16 ≤ s.pwr.hints.length → Completes (.hintSubmit v) s fun t => t.on PWR_STAT_HINT_FULL = true ∧ Only [PWR_STAT.addr 0 0 0] [] s t)) ∧
        (∀ (k : Fin 4) (rd ra : Fin 32) (v : Word), s.coreRuns k = true → s.user k = false → wordBits v 6 2 = 0 → wordBits v 11 5 = 0 →
          Completes (.phase k rd ra v) s fun t => PcNext k s t ∧
            t.reg k rd = (if rd = 0 then 0 else if s.pwr.hints.length < 16 then 1 else 0) ∧
            t.pwr.hints = (if s.pwr.hints.length < 16 then s.pwr.hints ++ [hint ((s.reg k ra).toNat % 2 ^ 32) (wordBits v 0 6) (wordBits v 8 3) (wordBits v 16 16)] else s.pwr.hints) ∧
            (16 ≤ s.pwr.hints.length → t.on PWR_STAT_HINT_FULL = true) ∧ t.tm = s.tm ∧ t.mem = s.mem ∧ t.hob = s.hob) ∧
        (let due := s.pwr.hints.filter fun h => h.due * us ≤ s.nt;
          Completes .hintDue s fun t => t.pwr.hints = (s.pwr.hints.filter fun h => ! (h.due * us ≤ s.nt)) ∧
          (∀ e : Fin 32, t.phaseOf e = match (due.filter fun h => natBit h.mask e).getLast? with | some h => h.phase % 64 | none => s.phaseOf e) ∧
          Only ((List.range 32).map fun e => PWR_ENG.addr e 0 0) [C_PWR_HINT_LATE.addr 0 0] { s with pwr := t.pwr } t ∧ (due = [] → t.csr = s.csr ∧ t.cnt = s.cnt)) ∧
        (∀ ph : Fin 64, Completes (.relearn ph) s fun t => t.slotOfPhase ph = { delta := 65536, pi := 2396 * 65536 } ∧ t.f PWR_PHASE_LRN_PI ph = 2396 ∧
          t.f PWR_PHASE_LRN_DEMAND ph = 255 ∧ t.f PWR_PHASE_LRN_SAMPLES ph = 0 ∧ (∀ q : Fin 64, q ≠ ph → t.slotOfPhase q = s.slotOfPhase q) ∧
          Only [PWR_PHASE_LRN.addr ph 0 0] [] { s with pwr := t.pwr } t);
  powerEpochsMoveOnlyTheDamperAndBellows ∧ bellowsHintsAndLearnedDemand

/-- POWER_MEASUREMENT counts once each 50 us, and those that a jump passed in TIME_SKIP. A valid one shows its powers and, unless the
sensors have failed, moves O an eighth of the error within 100 W and adds its energy; the third valid one in a row ends a failure. An
invalid one, or one above 2,000 W, leaves G and O, and the third in a row sets SENSOR_FAIL with a fault. THERMAL_READING acts once each
10 us: it shows each good sensor and excludes the others, each with one fault, and judges Tmax: WARN, HI with THROTTLE, and TRIP at its
second reading raise their codes on entry, and re-arm 2, 2 and 5 degrees below. PWR_ENERGY_READ snapshots the upper half of the energy.
(spec/13_power_capping.md) -/
def Obligations.PowerIsMeasuredAndHeatIsJudged : Prop :=
  ∀ s : State,
      let us := 1000 * 2 ^ 40
      let w := s.pwr;
      (∀ (total hob : Nat) (valid : Bool),
        let good : Prop := valid = true ∧ total ≤ 20000
        (s.nt / (50 * us) ≤ w.meas → exec (.powerMeasurement total hob valid) s = .next s) ∧
        (w.meas < s.nt / (50 * us) → Completes (.powerMeasurement total hob valid) s fun t => let v := t.pwr
          v.meas = s.nt / (50 * us) ∧ v.sumEst = 0 ∧ v.sumA = 0 ∧ v.n = 0 ∧
          t.cval C_TIME_SKIP = min (s.cval C_TIME_SKIP + (s.nt / (50 * us) - w.meas - 1)) (2 ^ 48 - 1) ∧
          Only [PWR_MEAS.addr 0 0 0, PWR_CAL.addr 0 0 0, PWR_STAT.addr 0 0 0, PWR_ENERGY_LO.addr 0 0 0] [C_TIME_SKIP.addr 0 0] { s with pwr := v, flt := t.flt } t ∧
          (good → t.f PWR_MEAS_TOTAL = total ∧ t.f PWR_MEAS_HOB = hob % 65536 ∧ v.bad = 0) ∧
          (good → w.failed = true → v.off = w.off ∧ v.gain = w.gain ∧ v.energy = w.energy ∧ t.flt = s.flt ∧ v.failed = decide (w.good + 1 < 3)) ∧
          (good → w.failed = false →
            let mean := if w.n = 0 then w.est else w.sumEst / w.n
            v.off = max (-100000000) (min 100000000 (w.off + ((total * 100000 : Nat) - mean) / 8)) ∧ v.failed = false ∧
            (w.prev = none → v.gain = w.gain) ∧ (2 ^ 29 ≤ w.gain → w.gain ≤ 2 ^ 31 → 2 ^ 29 ≤ v.gain ∧ v.gain ≤ 2 ^ 31) ∧
            (w.energy < 2 ^ 63 → v.energy * 1000000 + v.frac = w.energy * 1000000 + w.frac + total * 5000000)) ∧
          (¬ good → v.off = w.off ∧ v.gain = w.gain ∧ v.energy = w.energy ∧ v.bad = min (w.bad + 1) 3) ∧
          (¬ good → w.failed = false → 2 ≤ w.bad → v.failed = true ∧ t.on PWR_STAT_SENSOR_FAIL = true ∧ t.on PWR_STAT_EST_ENERGY = true ∧ FaultRaised s t 2 1 2 0) ∧
          (¬ good → w.failed = true ∨ w.bad < 2 → v.failed = w.failed ∧ t.flt = s.flt))) ∧
      (∀ temps : List (Nat × Nat),
        let rd (k : Nat) := sensorOf temps k
        (s.nt / (10 * us) ≤ w.therm → exec (.thermalReading temps) s = .next s) ∧
        (w.therm < s.nt / (10 * us) → Completes (.thermalReading temps) s fun t => let v := t.pwr
          v.therm = s.nt / (10 * us) ∧ Only ((List.range 64).map (fun k => PWR_TSENS.addr k 0 0) ++ [PWR_TMAX.addr 0 0 0, PWR_STAT.addr 0 0 0]) [] { s with pwr := v, flt := t.flt } t ∧
          (∀ k : Fin 64, t.on PWR_TSENS_VALID k = (rd k).isSome ∧ (∀ x, rd k = some x → signed 16 (t.f PWR_TSENS_TEMP k) = x) ∧
            (rd k = none → natBit w.sensors k = false → ({ cls := 3, level := 1, code := 4, info := k.val, react := s.reactWord 3, cc := s.cc } : FaultEv) ∈ t.flt.pend)) ∧
          let all := (List.range 64).filterMap rd;
          (all ≠ [] →
            let mx := all.foldl max (all.headD 0);
            let at_ (f : Fld) (below : Int) : Int := ((s.f f : Int) - below) * 4
            let ev (level code : Nat) : FaultEv := { cls := 3, level := level, code := code, react := s.reactWord 3, cc := s.cc }
            let new (e : FaultEv) : Prop := t.flt.pend.count e = s.flt.pend.count e + 1
            let old (e : FaultEv) : Prop := t.flt.pend.count e = s.flt.pend.count e;
            signed 16 (t.f PWR_TMAX_TEMP) = mx ∧
            (w.warn = false → at_ PWR_THERM_WARN 0 ≤ mx → new (ev 0 1) ∧ v.warn = true) ∧ (w.warn = true → old (ev 0 1) ∧ v.warn = decide (at_ PWR_THERM_WARN 2 ≤ mx)) ∧
            (w.hi = false → at_ PWR_THERM_HI 0 ≤ mx → new (ev 1 2) ∧ v.hi = true ∧ t.on PWR_STAT_THROTTLE = true) ∧
            (w.hi = true → old (ev 1 2) ∧ v.hi = decide (at_ PWR_THERM_HI 2 ≤ mx)) ∧ (mx < at_ PWR_THERM_HI 2 → t.on PWR_STAT_THROTTLE = false) ∧
            (w.trip = false → 1 ≤ w.trips → at_ PWR_THERM_TRIP 0 ≤ mx → new (ev 3 3) ∧ v.trip = true) ∧ (w.trips = 0 → old (ev 3 3)) ∧
            (mx < at_ PWR_THERM_TRIP 0 → old (ev 3 3) ∧ v.trips = 0) ∧ (mx < at_ PWR_THERM_TRIP 5 → v.trip = false)))) ∧
      (Completes .pwrEnergyRead s fun t => t.f PWR_ENERGY_HI_ENERGY = w.energy / 2 ^ 32 % 2 ^ 32 ∧ Only [PWR_ENERGY_HI.addr 0 0 0] [] s t)

/-- HELLO_SEND queues one hello in each epoch e with (e - p) mod PERIOD_US = 0 on an UP link in QUARANTINED or AGREED, but in factory test
state. HELLO_RECEIVE takes the oldest hello: on an edge port, or invalid, it only counts DOM_BAD; else it counts DOM_HELLO_RX and,
unless the link is DOWN or the chip in factory test state, shows PEER and is judged, with no change of the local view near TX by the
first differing word. Agreeing, the third in a row makes a QUARANTINED link AGREED with AGREE_EV; disagreeing, an AGREED link is
QUARANTINED with QENTER, a count and a fault, and a QUARANTINED one shows the cause, with a fault the first time. HELLO_SILENCE beyond
four periods parts an AGREED link, or shows cause 2 with a fault once; else, and in factory test state, it changes nothing.
(spec/14_domain_membership.md) -/
def Obligations.DomainLinksAgreeByHellos : Prop :=
  ∀ (s : State) (p : Fin 512),
      let us := 1000 * 2 ^ 40
      let st := s.f DOM_PORT_STAT_STATE p
      let d := s.dp p
      let e : Nat := s.nt / us % 2 ^ 64
      let period := s.ca DOM_HELLO_PERIOD_US
      let sends : Prop := s.f MAC_PORT_STAT_STATE p = 3 ∧ (st = 1 ∨ st = 2) ∧ s.flt.test = false ∧ ((e : Int) - p.val) % (period : Int) = 0 ∧ d.sentEpoch ≠ e + 1
      let limit := 4 * d.period.getD period * us
      let up (k : Cnt) (t : State) : Prop := t.cval k p = min (s.cval k p + 1) (2 ^ 48 - 1)
      let parted (t : State) (c : Nat) : Prop := t.f DOM_PORT_STAT_STATE p = 1 ∧ t.f DOM_PORT_STAT_CAUSE p = c ∧ t.f DOM_PORT_STAT_AGREE_CNT p = 0 ∧
        t.on DOM_PORT_STAT_QENTER p = true ∧ up C_DOM_Q_ENTRIES t ∧ FaultRaised s t 13 1 c p.val ∧ t.on TM_PORT_STAT_FLUSHING p = true
      (¬ sends → exec (.helloSend p) s = .next s) ∧
      (sends → Completes (.helloSend p) s fun t => (t.mp p).gen = (s.mp p).gen ++ [{ hello := true, made := s.cc }] ∧ t.dp p = { d with sentEpoch := e + 1 } ∧
        t = { s with mac := t.mac, dom := t.dom }) ∧
      (d.rx = [] → exec (.helloReceive p) s = .next s) ∧
      (∀ h, d.rx.head? = some h →
        let b := h.body
        let w (i : Nat) := fieldAt b (4 * i) 4
        let valid : Prop := w 0 / 65536 = 0x4E48 ∧ w 0 / 4096 % 16 = 1 ∧ w 0 / 256 % 16 = 0 ∧ w 13 / 65536 ≠ 0
        let tx := helloTx b * 2 ^ 24
        let v := s.viewNow
        let quiet : Prop := ∀ n : Fin 8, (s.dom.view.get n.val).cur = v n ∧ (s.dom.view.get n.val).changed + s.ca DOM_HELLO_TOL_NS * 2 ^ 40 < tx
        let eps := h.trx - (s.f TIME_PORT_RXC_CORR p : Int) - (helloTx b : Nat) - (s.f DOM_PORT_PD_PD p * 256 : Nat)
        let cause := if w 1 ≠ v 0 then 3 else if w 2 / 65536 = v 1 then 4 else if w 3 ≠ v 2 then 5 else if w 4 * 2 ^ 32 + w 5 ≠ v 3 then 6
          else if w 6 ≠ v 4 then 7 else if w 0 / 32 % 8 ≠ v 5 then 8 else if w 0 / 8 % 4 ≠ 2 ∨ v 6 ≠ 2 then 9 else if w 7 * 2 ^ 32 + w 8 ≠ v 7 then 10
          else if s.on DOM_PORT_PD_VALID p = false then 11 else if s.ca DOM_HELLO_TOL_NS * 65536 < eps.natAbs then 12 else 0
        let cnt := if (∀ o, d.period = some o → s.nt ≤ d.lastNt + 2 * o * us) then s.f DOM_PORT_STAT_AGREE_CNT p else 0
        Completes (.helloReceive p) s fun t => (t.dp p).rx = d.rx.tail ∧
          (st = 3 ∨ ¬ valid → up C_DOM_BAD t ∧ Only [] [C_DOM_BAD.addr p 0] { s with dom := t.dom } t) ∧
          (st = 0 ∨ s.flt.test = true → st ≠ 3 → valid → up C_DOM_HELLO_RX t ∧ Only [] [C_DOM_HELLO_RX.addr p 0] { s with dom := t.dom } t) ∧
          (st = 1 ∨ st = 2 → s.flt.test = false → valid → up C_DOM_HELLO_RX t ∧ (t.dp p).lastNt = s.nt ∧ (t.dp p).period = some (w 13 / 65536) ∧
            t.f DOM_PORT_PEER_CHIP p = w 2 / 65536 % 65536 ∧ t.f DOM_PORT_PEER_PORT p = w 2 % 512 ∧
            (quiet → cause = 0 → t.flt = s.flt ∧ t.tm = s.tm ∧ t.f DOM_PORT_STAT_AGREE_CNT p = min (cnt + 1) 3 ∧
              (st = 1 → cnt + 1 < 3 → t.f DOM_PORT_STAT_STATE p = 1) ∧ (st = 2 → t.f DOM_PORT_STAT_STATE p = 2) ∧
              (st = 1 → 3 ≤ cnt + 1 → t.f DOM_PORT_STAT_STATE p = 2 ∧ t.f DOM_PORT_STAT_CAUSE p = 0 ∧ t.on DOM_PORT_STAT_AGREE_EV p = true)) ∧
            (quiet → cause ≠ 0 → st = 2 → parted t cause) ∧
            (quiet → cause ≠ 0 → st = 1 → t.f DOM_PORT_STAT_STATE p = 1 ∧ t.f DOM_PORT_STAT_CAUSE p = cause ∧ t.f DOM_PORT_STAT_AGREE_CNT p = 0 ∧ t.tm = s.tm ∧
              (d.disagreed = true → t.flt = s.flt) ∧ (d.disagreed = false → FaultRaised s t 13 1 cause p.val)))) ∧
      (st = 0 ∨ st = 3 ∨ s.flt.test = true ∨ s.nt ≤ d.lastNt + limit → exec (.helloSilence p) s = .next s) ∧
      (d.lastNt + limit < s.nt → s.flt.test = false → (st = 2 → Completes (.helloSilence p) s fun t => parted t 2) ∧
        (st = 1 → Completes (.helloSilence p) s fun t => t.f DOM_PORT_STAT_STATE p = 1 ∧ t.f DOM_PORT_STAT_CAUSE p = 2 ∧
          (d.silent = true → t.flt = s.flt) ∧ (d.silent = false → FaultRaised s t 13 1 2 p.val) ∧
          Only [DOM_PORT_STAT.addr p 0 0] [] { s with dom := t.dom, flt := t.flt } t))

/-- TELEMETRY_EPOCH with no boundary reached and no postcard waiting, none handed a block, or the first not yet due, changes nothing. At a
boundary, with no batch waiting and no postcards configured, every histogram bin and digest entry reads what was counted, the counting
banks are empty, TLM_EPOCH_RD shows the epoch before, and skipped boundaries count in TIME_SKIP. The first waiting postcard that is due,
whose turn among the requesters of R227 it is, with a block granted, is enqueued, counts TLM_PC_SENT and moves PSEQ on, or, refused at
its queue, counts TLM_PC_DROP; refused at one pool it asks the next a cc later, and refused a block it is gone and its records count in
TLM_REC_LOST. PMC_COUNT adds to every enabled counter that is not chained what its event occurred, wraps at 2^48 with OVF, notes a carry
for a chained partner, and uses the occurrences up; with FREEZE no count moves. PMC_CARRY delivers last cc's carries once. PMC_CFG_WRITE
ignores a code the counter may not count and sets CFG_ERR, waits for a pending carry of the pair, and else stores the word; it changes
no count. PMC_CLR leaves in exactly the counters of its bits what this cc counted, FREEZE sets the bit, and PMC_LO_READ, what occurred
before it counted as PMC_COUNT counts it, snapshots the upper half, or for an even counter of a chained pair the odd one with its
pending carry. (spec/15_telemetry_and_counters.md) -/
def Obligations.TelemetryAndPerformanceCountersCount : Prop :=
  let telemetryEpochsMoveTheBanks : Prop :=
    ∀ (s : State) (cells : List Nat),
        let len := s.f TLM_EPOCH_EPOCH_US * (1000 * 2 ^ 40)
        let at_ := s.nt / len * len
        (at_ ≤ s.tlm.boundary → exec (.telemetryEpoch []) s = .next s ∧ (s.tlm.out = [] → exec (.telemetryEpoch [cells]) s = .next s)) ∧
        (s.tlm.boundary < at_ → s.tlm.batch = [] → s.on TLM_CFG_HIST_PC = false → s.on TLM_CFG_DIG_PC = false →
          (∀ e ∈ s.tlm.lat, e.1 < 8192) → (∀ e ∈ s.tlm.depth, e.1 < 8192) → (∀ e ∈ s.tlm.dig, e.1 < 32768) → Completes (.telemetryEpoch []) s fun t =>
          t.tlm = { s.tlm with lat := [], depth := [], dig := [], boundary := at_ } ∧
          (∀ (p : Fin 512) (b : Fin 16), (s.tlm.lat.map (·.1)).Nodup → (s.tlm.depth.map (·.1)).Nodup →
            t.rget TLM_LAT_BIN p b = BitVec.ofNat 32 (s.tlm.lat.get (16 * p.val + b.val)) ∧
            t.rget TLM_DEPTH_BIN p b = BitVec.ofNat 32 (s.tlm.depth.get (16 * p.val + b.val))) ∧
          (∀ (sl : Fin 32) (i : Fin 1024), (s.tlm.dig.map (·.1)).Nodup →
            let d := s.tlm.dig.get (1024 * sl.val + i.val)
            t.rget TLM_DIG_RD sl i 0 = BitVec.ofNat 32 d.hash ∧ t.rget TLM_DIG_RD sl i 1 = BitVec.ofNat 32 d.frames ∧
            t.rget TLM_DIG_RD sl i 2 = BitVec.ofNat 32 ((if d.coll then 2 ^ 31 else 0) + d.bytes / 2 ^ 32) ∧ t.rget TLM_DIG_RD sl i 3 = BitVec.ofNat 32 d.bytes) ∧
          t.f TLM_EPOCH_RD_EPOCH = (s.nt / len - 1) % 2 ^ 32 ∧ t.cval C_TIME_SKIP = min (s.cval C_TIME_SKIP + ((at_ - s.tlm.boundary) / len - 1)) (2 ^ 48 - 1) ∧
          t = { s with csr := t.csr, cnt := t.cnt, cntNew := t.cntNew, tlm := t.tlm }) ∧
        (at_ ≤ s.tlm.boundary → ∀ x, s.tlm.out.head? = some x →
          (s.cc < x.tryAt ∨ s.turn x.standing = false → exec (.telemetryEpoch [cells]) s = .next s) ∧
          (x.tryAt ≤ s.cc → s.turn x.standing = true →
            let f := s.postcardFrame x
            let n := 64 + f.length
            let q := s.f TLM_COLL0_QUEUE x.coll
            let p := s.f TLM_COLL0_PORT x.coll
            let g := s.request (poolFor n) (x.pool.getD (poolFor n)) n (sliceTag (tagClass q) (sliceOf p)) cells
            let a := cells.headD 0
            let o := ((g.1.setTlm fun t => { t with out := s.tlm.out.tail }).setTag a (sliceTag (tagClass q) (sliceOf p))).originate f p q a x.slice false
            let seq (t : State) := t.tlm.pseq.get (4 * x.slice + x.coll)
            Completes (.telemetryEpoch [cells]) s fun t =>
              (g.2 = .fallback → t.tlm.out = { x with pool := some (x.pool.getD (poolFor n) + 1), tryAt := s.cc + 1 } :: s.tlm.out.tail ∧ seq t = seq s) ∧
              (g.2 = .refused → t.tlm.out = s.tlm.out.tail ∧ seq t = seq s ∧ (x.records ≠ 0 → t.on TLM_STAT_REC_LOST = true ∧
                t.cval C_TLM_REC_LOST = min (s.cval C_TLM_REC_LOST + x.records) (2 ^ 48 - 1))) ∧
              (g.2 = .granted → o.2 = .enqueued → t.tlm.out = s.tlm.out.tail ∧ seq t = (seq s + 1) % 2 ^ 32 ∧
                t.cval C_TLM_PC_SENT = min (o.1.cval C_TLM_PC_SENT + 1) (2 ^ 48 - 1) ∧ t.tm = o.1.tm ∧ t.fwd = o.1.fwd) ∧
              (g.2 = .granted → o.2 = .refused → t.tlm.out = s.tlm.out.tail ∧ seq t = seq s ∧ t.on TLM_STAT_PC_DROP = true ∧
                t.cval C_TLM_PC_DROP = min (o.1.cval C_TLM_PC_DROP + 1) (2 ^ 48 - 1))));
  let performanceCountersCountAndCarry : Prop :=
    ∀ s : State,
        let only (t : State) : Prop := t = { s with csr := t.csr, hwSet := t.hwSet, cnt := t.cnt, cntNew := t.cntNew, pmc := t.pmc }
        let adds (n : Nat) := if wordBits (s.pmcCfg n) 31 1 = 1 ∧ s.pmcChained n = false then s.pmcAdds n else 0
        let ovf (t : State) (n : Nat) : Bool := if n < 256 then natBit (t.f PMC_OVF_BITS (n / 32)) (n % 32) else natBit (t.f PMC_OVF_S_BITS ((n - 256) / 32)) (n % 32)
        (∀ n : Fin 1280, wordBits (s.pmcCfg n) 0 16 = 0 → 16 ≤ wordBits (s.pmcCfg n) 16 12 →
          s.pmcAdds n = ((s.pmc.events.filter fun e => e.code == wordBits (s.pmcCfg n) 16 12 && (n.val < 256 || e.slice == (n.val - 256) / 32)).map (·.n)).sum) ∧
        (Completes .pmcCount s fun t => only t ∧ t.pmc.events = [] ∧ t.pmc.cycles = true ∧
          (s.on PMC_CTL_FREEZE = true → t.cnt = s.cnt ∧ t.csr = s.csr ∧ t.pmc.carry = s.pmc.carry) ∧
          (s.on PMC_CTL_FREEZE = false → ∀ n : Fin 1280, t.pmcVal n = (s.pmcVal n + adds n) % 2 ^ 48 ∧
            (2 ^ 48 ≤ s.pmcVal n + adds n → ovf t n = true ∧ (n.val % 2 = 0 → s.pmcChained (n + 1) = true → n.val + 1 ∈ t.pmc.carry)) ∧
            (s.pmcVal n + adds n < 2 ^ 48 → ovf t n = ovf s n))) ∧
        (s.pmc.delivered = true → exec .pmcCarry s = .next s) ∧
        (s.pmc.delivered = false → Completes .pmcCarry s fun t => only t ∧ t.pmc.delivered = true ∧ t.pmc.events = s.pmc.events ∧
          ∀ n : Fin 1280, t.pmcVal n = (s.pmcVal n + s.pmc.due.count n.val) % 2 ^ 48) ∧
        (∀ (n : Nat) (v : Word),
          let code := wordBits v 16 12
          let known : Prop := code ∈ anyScope ∨ (n < 256 ∧ code ∈ chipScope)
          (1280 ≤ n → exec (.pmcCfgWrite n v) s = .next s) ∧
          (n < 1280 → Completes (.pmcCfgWrite n v) s fun t => only t ∧ t.cnt = s.cnt ∧
            (¬ known → t.on PMC_STAT_CFG_ERR = true ∧ t.pmc = s.pmc ∧ RegsBut [PMC_STAT.addr 0 0 0] s t) ∧
            (known → s.pmcPending n = true → t.pmc = { s.pmc with late := s.pmc.late ++ [(n, pmcStored n v)] } ∧ t.csr = s.csr) ∧
            (known → s.pmcPending n = false → t.pmc = s.pmc ∧ (∀ m : Fin 1280, m.val ≠ n → t.pmcCfg m = s.pmcCfg m) ∧
              wordBits (t.pmcCfg n) 31 1 = wordBits v 31 1 ∧ wordBits (t.pmcCfg n) 29 1 = wordBits v 29 1 ∧ wordBits (t.pmcCfg n) 0 14 = wordBits v 0 14 ∧
              wordBits (t.pmcCfg n) 16 12 = code ∧ wordBits (t.pmcCfg n) 28 1 = 0 ∧ wordBits (t.pmcCfg n) 30 1 = (if n % 2 = 0 then 0 else wordBits v 30 1) ∧
              wordBits (t.pmcCfg n) 14 2 = wordBits v 14 2 % 3)) ∧
          (40 ≤ n → exec (.pmcClr n v) s = .next s) ∧
          (n < 40 → Completes (.pmcClr n v) s fun t => t = { s with cnt := t.cnt } ∧ ∀ m : Fin 1280,
            t.pmcVal m = if m.val / 32 = n ∧ wordBits v (m % 32) 1 = 1 then s.cntNew.get (pmcAddr m) % 2 ^ 48 else s.pmcVal m) ∧
          (1280 ≤ n → exec (.pmcLoRead n) s = .next s) ∧
          (n < 1280 → Completes (.pmcLoRead n) s fun t =>
            let c := s.pmcCount
            t = { c with snap := t.snap, pmc := { c.pmc with snap := t.pmc.snap } } ∧
            (s.pmcChained n = true → t = c) ∧ (s.pmcChained n = false → t.snap.get (pmcAddr n + 4) = c.pmcVal n / 2 ^ 32) ∧
            (n % 2 = 0 → s.pmcChained (n + 1) = true → t.pmc.snap.get (n + 1) = (s.pmcVal (n + 1) + c.pmc.carry.count (n + 1) +
              (if s.pmc.delivered then 0 else s.pmc.due.count (n + 1))) % 2 ^ 48))) ∧
        (∀ b : Bool, Completes (.freeze b) s fun t => t.on PMC_CTL_FREEZE = b ∧ Only [PMC_CTL.addr 0 0 0] [] s t);
  telemetryEpochsMoveTheBanks ∧ performanceCountersCountAndCarry

/-- LOAD_GO while locked, while a load runs, after TRAP_ON, or beyond the SRAM only sets RESULT 2; else BUSY rises and the load runs.
PATCH_LOAD_DONE without a load changes nothing. Else BUSY falls, LOAD_EV rises, and RESULT names the first failed check of format, key,
signature, version, tag and content, with CONFIG code 13 or SECURITY code 1; LOADED is then 0, patch RAM and all traps are zero and
UC_VER is the ROM word; an uncorrectable word gives 9 with MEMU code 5. Passing all, the plaintext's microwords, nanowords and traps
stand in order, traps with even parity, LOADED and RESULT are 1, and no fault is raised. TRAP_ON acts only while LOADED and not locked,
and gives UC_VER the image's word; LOCK sets LOCK; a read of UC_PDATA moves ADDR on exactly when AUTO_INC is 1. (spec/17_microcode.md,
spec/20_faults.md) -/
def Obligations.PatchLoadsPassEveryCheckOrLeaveNothing : Prop :=
  ∀ s : State,
      let a := s.f UC_LOAD_ADDR_SOFS
      let n := s.f UC_LOAD_LEN_BYTES
      let one (c : Instr) (r : Reg) (p : State → Prop) : Prop := Completes c s fun t => p t ∧ Only [r.addr 0 0 0] [] s t
      let refused : Prop := s.on UC_CTL_LOCK = true ∨ s.uc.load ≠ none ∨ s.on UC_CTL_TRAP_ON = true ∨ 2 ^ 24 < a + n
      let rest (t : State) : Prop := Only (UC_STAT.addr 0 0 0 :: UC_VER.addr 0 0 0 :: (List.range 64).map fun i => UC_TRAP.addr i 0 0) []
        { s with uc := t.uc, flt := t.flt } t ∧ t.uc.load = none ∧ t.on UC_STAT_BUSY = false ∧ t.on UC_STAT_LOAD_EV = true
      let fails (t : State) (r : Nat) : Prop := rest t ∧ t.f UC_STAT_RESULT = r ∧ t.on UC_STAT_LOADED = false ∧ t.uc.micro = [] ∧ t.uc.nano = [] ∧
        t.ucVersion = romVersion ∧ (∀ i : Fin 64, t.rget UC_TRAP i = 0)
      (refused → one .loadGo UC_STAT fun t => t.f UC_STAT_RESULT = 2 ∧ t.on UC_STAT_LOADED = s.on UC_STAT_LOADED ∧ t.on UC_STAT_LOAD_EV = s.on UC_STAT_LOAD_EV) ∧
      (¬ refused → Completes .loadGo s fun t => t.on UC_STAT_BUSY = true ∧ t.uc = { s.uc with load := some (s.cc, a, n) } ∧
        Only [UC_STAT.addr 0 0 0] [] { s with uc := t.uc } t) ∧
      (s.uc.load = none → exec .patchLoadDone s = .next s) ∧
      (∀ l, s.uc.load = some l →
        let o := l.2.1
        let len := l.2.2
        let hit (f : Nat) : Prop := ∃ x ∈ s.flt.arm, x.target = 1 ∧ x.flips = f ∧ o < 8 * x.index + 8 ∧ 8 * x.index < o + len
        let b := s.load (stkBase + o) len
        let nt := fieldAt b 12 2
        let nm := fieldAt b 14 2
        let nn := fieldAt b 16 2
        let body := fieldAt b 20 4
        let key := fieldAt b 52 1
        let pub := bytesAt b (64 + body) 96
        let otp := s.ucOtp
        let c2 : Prop := fieldAt b 0 4 = 0x4E485543 ∧ fieldAt b 4 2 = 1 ∧ fieldAt b 6 2 = 1 ∧ nt ≤ 64 ∧ nm ≤ 1024 ∧ nn ≤ 256 ∧
          body = 4 * nt + 4 * nm + 24 * nn ∧ len = 256 + body
        let c3 : Prop := key < 4 ∧ wordBits otp (28 + key) 1 = 0 ∧ sha384 pub = Config.fused (16 + key)
        let c4 : Prop := ecdsaOk pub (sha384 (b.take (160 + body))) (bytesAt b (160 + body) 96) = true
        let c5 : Prop := fieldAt b 8 2 = romVersion / 65536 ∧ 2 ≤ fieldAt b 10 2 ∧ wordBits otp 0 16 ≤ fieldAt b 10 2
        let plain := gcmOpen (natBytes 32 (Config.fused 5)) (bytesAt b 24 12) (b.take 24 ++ bytesAt b 52 12) (bytesAt b 64 body) (bytesAt b 36 16)
        let p := plain.getD []
        let trap (i : Nat) := fieldAt p (4 * i) 4
        let micro (i : Nat) := fieldAt p (4 * nt + 4 * i) 4
        let nano (i : Nat) := fieldAt p (4 * nt + 4 * nm + 24 * i) 24
        let mapped (rom base k x : Nat) : Prop := x < rom ∨ (base ≤ x ∧ x < base + k)
        let c7 : Prop := (∀ i, i < nt → trap i % 1024 < nm ∧ ∀ j, j < i → trap j / 65536 % 2 ^ 14 ≠ trap i / 65536 % 2 ^ 14) ∧
          (∀ i, i < nm → mapped 0x4000 0x4000 nm (micro i / 8 % 2 ^ 15) ∧ mapped 0x800 0x800 nn (micro i / 2 ^ 18 % 4096)) ∧
          (∀ i, i < nn → nano i / 2 ^ 128 % 32 = 0 ∧ nano i / 2 ^ 88 % 8 = 0 ∧ nano i % 2 ^ 64 = 0)
        let config (r : Nat) : Prop := Completes .patchLoadDone s fun t => fails t r ∧ FaultRaised s t 8 1 13 0
        let security (r : Nat) : Prop := Completes .patchLoadDone s fun t => fails t r ∧ FaultRaised s t 14 1 1 0
        (hit 2 → Completes .patchLoadDone s fun t => fails t 9 ∧ FaultRaised { s with flt := { s.flt with arm := none } } t 1 2 5 0) ∧
        (hit 1 → Completes .patchLoadDone s fun t => t.flt.arm = none ∧ t.cval C_STK_MEM_CORR = min (s.cval C_STK_MEM_CORR + 1) (2 ^ 48 - 1) ∧
          t.f UC_STAT_RESULT ≠ 9 ∧ t.mem = s.mem) ∧
        (s.flt.arm = none →
          (¬ c2 → config 3) ∧ (c2 → ¬ c3 → security 4) ∧ (c2 → c3 → ¬ c4 → security 5) ∧ (c2 → c3 → c4 → ¬ c5 → config 6) ∧
          (c2 → c3 → c4 → c5 → plain = none → security 7) ∧ (c2 → c3 → c4 → c5 → plain ≠ none → ¬ c7 → config 8) ∧
          (c2 → c3 → c4 → c5 → plain ≠ none → c7 → Completes .patchLoadDone s fun t => rest t ∧ t.flt = s.flt ∧
            t.f UC_STAT_RESULT = 1 ∧ t.on UC_STAT_LOADED = true ∧ t.uc.version = fieldAt b 8 4 ∧ t.ucVersion = romVersion ∧
            (∀ i, i < 1024 → (t.uc.micro.get i).toNat = if i < nm then micro i else 0) ∧ (∀ i, i < 256 → t.uc.nano.get i = if i < nn then nano i else 0) ∧
            ∀ i : Fin 64, if i.val < nt then
              t.f UC_TRAP_EN i = trap i / 2 ^ 31 ∧ t.f UC_TRAP_FROM i = trap i / 65536 % 2 ^ 14 ∧ t.f UC_TRAP_TO i = trap i % 1024 ∧
                ones 32 (t.rget UC_TRAP i).toNat % 2 = 0
              else t.rget UC_TRAP i = 0))) ∧
      (s.on UC_CTL_LOCK = true ∨ s.on UC_STAT_LOADED = false → exec .trapOn s = .next s) ∧
      (s.on UC_CTL_LOCK = false → s.on UC_STAT_LOADED = true → Completes .trapOn s fun t => t.on UC_CTL_TRAP_ON = true ∧
        t.rget UC_VER = BitVec.ofNat 32 s.uc.version ∧ Only [UC_CTL.addr 0 0 0, UC_VER.addr 0 0 0] [] s t) ∧
      (one .lock UC_CTL fun t => t.on UC_CTL_LOCK = true ∧ t.on UC_CTL_TRAP_ON = s.on UC_CTL_TRAP_ON) ∧
      (s.on UC_PADDR_AUTO_INC = false → exec .ucPdataRead s = .next s) ∧
      (s.on UC_PADDR_AUTO_INC = true → one .ucPdataRead UC_PADDR fun t => t.f UC_PADDR_ADDR = (s.f UC_PADDR_ADDR + 1) % 8192 ∧ t.on UC_PADDR_AUTO_INC = true)

/-- READ, WRITE, TAS, REL and BADOP act on a well-formed frame of their OP that names the chip on an UP ring; another changes nothing. A
failed trailer CRC is answered BADCRC, with no effect; a cached request's answer is sent again with DUP, and nothing is executed; an
invalid OP or LEN is BADOP. A queued WRITE of the ring makes others BUSY, as a full write queue or a region in use does a WRITE.
Addresses out of reach refuse all with ADDR. Else a READ sends each word as a CSR read, memory or the staged cell gives it, or asks for
the cell and is BUSY; a word that ECC cannot correct makes it MEMERR; a WRITE joins the queue; TAS takes a free semaphore or is HELD;
REL frees the ring's own or is NOTHELD. Answers but BUSY and BADCRC enter the cache of 64, in place of their SEQ.
(spec/18_joring_link.md) -/
def Obligations.RequestsAreAnsweredInTheirFrame : Prop :=
  ∀ (s : State) (r : Fin 2) (ws : List (BitVec 64)),
      let f (i l w : Nat) := natBits (ws.getD i 0).toNat l w
      let len := f 0 24 8
      let op := f 0 56 4
      let bytes (l : List (BitVec 64)) : List Byte := l.flatMap fun w => natBytes 8 w.toNat
      let formed : Prop := 3 ≤ ws.length ∧ ws.length ≤ 35 ∧ (len + 1) / 2 + 3 = ws.length
      let hcrc : Prop := crc16 ((bytes ws).take 6 ++ bytesAt (bytes ws) 8 8) = f 0 0 16
      let header : Prop := hcrc ∧ f 0 60 4 = 1 ∧ f 0 48 2 = 0 ∧ f 0 17 7 = 0 ∧ f 1 48 16 = 0
      let addressed : Bool := s.on JOR_RING_STAT_ADDRESSED r
      let own := s.f JOR_RING_STAT_ADDR r
      let up : Prop := s.f JOR_RING_STAT_STATE r = 2
      let crcOk : Prop := (ws.getLastD 0).toNat / 2 ^ 32 = crc32c (bytes ws.dropLast)
      let low (ack dup at_ : Nat) := (ack * 256 + dup * 128 + at_) * 65536 + (65535 - (ack * 256 + dup * 128 + at_))
      let sent (t : State) (body : List (BitVec 64)) (low : Nat) : Prop := (t.ring r).tx = body ++
        [BitVec.ofNat 64 ((if crcOk then crc32c (bytes body) else 2 ^ 32 - 1 - crc32c (bytes body)) * 2 ^ 32 + low)]
      let more (c : Cnt) (t : State) : Prop := t.cval c r = min (s.cval c r + 1) (2 ^ 48 - 1)
      let keeps (t : State) (cs : List Cnt) : Prop := Only [JOR_RING_STAT.addr r 0 0] (cs.map fun c => c.addr r 0) { s with jor := t.jor, pmc := t.pmc } t ∧
        t.jor.sem = s.jor.sem ∧ (t.ring r).writes = (s.ring r).writes ∧ (t.ring r).stage = (s.ring r).stage ∧ (t.ring r).msgs = (s.ring r).msgs ∧
        t.f JOR_RING_STAT_BRK_RX r = 0 ∧ t.f JOR_RING_STAT_ADDR r = own ∧ t.on JOR_RING_STAT_ADDRESSED r = addressed
      let mine : Prop := up ∧ formed ∧ header ∧ addressed = true ∧ own = f 0 50 6
      let hit := (s.ring r).cache.find? fun e => e.w0 == ws.getD 0 0 && e.w1 == ws.getD 1 0
      let pack (d : List Word) : List (BitVec 64) := (List.range ((d.length + 1) / 2)).map fun i => (d.getD (2 * i) 0) ++ (d.getD (2 * i + 1) 0)
      let body (d : List Word) := if op = 1 then ws.take 2 ++ pack d else ws.dropLast
      let answered (t : State) (d : List Word) (ack : Nat) : Prop := sent t (body d) (low ack 0 own) ∧ more C_JOR_RX_FRAMES t
      let cache (t : State) (d : List Word) (ack : Nat) : Prop := let l := ((s.ring r).cache.filter fun e => natBits e.w0.toNat 32 16 ≠ f 0 32 16) ++
          [{ w0 := ws.getD 0 0, w1 := ws.getD 1 0, ack := ack, data := d }];
        (t.ring r).cache = l.drop (l.length - 64)
      let still (t : State) : Prop := (t.ring r).cache = (s.ring r).cache
      let same (c : Instr) (d : List Word) (ack : Nat) : Prop := Completes c s fun t => answered t d ack ∧ cache t d ack ∧ keeps t [C_JOR_RX_FRAMES]
      let zero := if op = 1 then List.replicate len (0 : Word) else []
      let busy (c : Instr) (w : Option Nat) : Prop := Completes c s fun t => answered t zero 2 ∧ still t ∧ more C_JOR_BUSY t ∧ (t.ring r).wanted = w ∧
        keeps t [C_JOR_RX_FRAMES, C_JOR_BUSY]
      let words := (List.range len).map fun i => f 1 0 48 + 4 * i
      let ram (a : Nat) : Prop := stkBase ≤ a ∧ a < stkBase + 3 * 2 ^ 24
      let cell (a : Nat) : Prop := 0x200000000 ≤ a ∧ a < 0x220000000
      let reach (w : Bool) : Prop := f 1 0 48 % 4 = 0 ∧ ∀ a ∈ words, isCsr a = true ∨ ram a ∨ (w = false ∧ cell a)
      let s0 := (s.count C_JOR_RX_FRAMES 1 r).setF JOR_RING_STAT_BRK_RX 0 r
      let stage := (s.ring r).stage.getD default
      let read := words.foldl (fun (x : State × List Word) a => match x.1.csrRead a with
        | some y => (y.1.evAt 0x051 false r a, x.2 ++ [y.2])
        | none => (x.1, x.2 ++ [BitVec.ofNat 32 (if ram a then beNat (x.1.load a 4) else fieldAt stage.2.1 (a % 256) 4)])) (s0, [])
      let away := words.find? fun a => cell a && ((s.ring r).stage.map (·.1)) != some ((a - 0x200000000) / 256)
      let src := if s.f GEN_STAT_CSTATE = 4 then (s.gen.req.map (·.src)).getD 0 else 0
      let held : Prop := ∃ a ∈ words, (stkBase ≤ a ∧ a < stkBase + 2 ^ 24 ∧ 1 ≤ s.f BOOT_STAT_STAGE ∧ s.f BOOT_STAT_STAGE ≤ 4) ∨
        (stkBase + 2 ^ 24 ≤ a ∧ a < stkBase + 2 ^ 25 ∧ (src = 1 ∨ src = 3)) ∨ (stkBase + 2 ^ 25 ≤ a ∧ a < stkBase + 3 * 2 ^ 24 ∧ (src = 2 ∨ src = 3))
      let data := (List.range len).map fun i => BitVec.ofNat 32 (f (2 + i / 2) (if i % 2 = 0 then 32 else 0) 32)
      let holder := s.jor.sem.get (f 1 0 48)
      let each (n : Nat) (c : Instr) : Prop :=
        let own : Prop := mine ∧ (if n = 7 then op = 0 ∨ 7 ≤ op else op = n)
        let lenOk : Prop := if op < 3 then 1 ≤ len ∧ len ≤ 64 else len = 0
        (¬ own → exec c s = .next s) ∧
        (own → ¬ crcOk → Completes c s fun t => more C_JOR_CRC_ERR t ∧ still t ∧ keeps t [C_JOR_RX_FRAMES, C_JOR_CRC_ERR] ∧ t.snap = s.snap ∧
          ((t.ring r).tx.getLastD 0).toNat % 2 ^ 32 = low 4 0 (s.f JOR_RING_STAT_ADDR r) ∧ (op ≠ 1 → answered t [] 4) ∧
          (s.flt.arm = none → reach false → away = none → lenOk → hit = none → (s.ring r).writes = [] → op = 1 → ¬ C_JOR_RX_FRAMES.addr r 0 ∈ words →
            (∀ a ∈ words, isCsr a = false) → answered t read.2 4)) ∧
        (own → crcOk → ∀ h, hit = some h → Completes c s fun t => more C_JOR_DUP t ∧ still t ∧ keeps t [C_JOR_RX_FRAMES, C_JOR_DUP] ∧ t.snap = s.snap ∧
          more C_JOR_RX_FRAMES t ∧ (op ≠ 1 → sent t ws.dropLast (low h.ack 1 (s.f JOR_RING_STAT_ADDR r))) ∧
          (op = 1 → h.data.length = len → sent t (ws.take 2 ++ pack h.data) (low h.ack 1 (s.f JOR_RING_STAT_ADDR r)))) ∧
        (own → crcOk → hit = none →
          (n = 7 ∨ ¬ lenOk → Completes c s fun t => sent t ws.dropLast (low 5 0 (s.f JOR_RING_STAT_ADDR r)) ∧ more C_JOR_RX_FRAMES t ∧ cache t [] 5 ∧ keeps t [C_JOR_RX_FRAMES]) ∧
          (n ≠ 7 → lenOk → op ≠ 2 → (s.ring r).writes ≠ [] → busy c (s.ring r).wanted) ∧
          (op = 1 → lenOk → (s.ring r).writes = [] → (¬ reach false → same c zero 3) ∧
            (reach false → ∀ a, away = some a → busy c (some ((a - 0x200000000) / 256))) ∧
            (reach false → away = none → s.flt.arm = none → Completes c s fun t =>
              let bad : Prop := stage.2.2 = true ∧ ∃ a ∈ words, cell a
              answered t read.2 (if bad then 6 else 1) ∧ cache t read.2 (if bad then 6 else 1) ∧
              t = { read.1 with csr := t.csr, jor := t.jor, pmc := t.pmc } ∧ t.csr = read.1.csr ∧ t.jor.sem = s.jor.sem) ∧
            (reach false → away = none → ∀ x, s.flt.arm = some x →
              x.target = 1 → x.flips = 2 → x.index < 2 ^ 21 → (∃ a ∈ words, a / 8 = stkBase / 8 + x.index) → (∀ a ∈ words, isCsr a = false) → Completes c s fun t =>
              FaultRaised { s with flt := { s.flt with arm := none } } t 1 2 3 0 ∧ more C_JOR_RX_FRAMES t ∧ ((t.ring r).tx.getLastD 0).toNat % 2 ^ 32 = low 6 0 (s.f JOR_RING_STAT_ADDR r))) ∧
          (op = 2 → lenOk → (¬ reach true → same c [] 3) ∧
            (reach true → 4 ≤ (s.ring r).writes.length ∨ held → busy c (s.ring r).wanted) ∧
            (reach true → (s.ring r).writes.length < 4 → ¬ held → Completes c s fun t => answered t [] 1 ∧ cache t [] 1 ∧
              (t.ring r).writes = (s.ring r).writes ++ [(f 1 0 48, data)] ∧ ((s.ring r).writes = [] → (t.ring r).writeAt = s.cc + 1) ∧ t.mem = s.mem ∧ t.jor.sem = s.jor.sem ∧
              Only [JOR_RING_STAT.addr r 0 0] [C_JOR_RX_FRAMES.addr r 0] { s with jor := t.jor, pmc := t.pmc } t)) ∧
          (op = 3 ∨ op = 4 → lenOk → (s.ring r).writes = [] → (64 ≤ f 1 0 48 → same c [] 3) ∧
            (f 1 0 48 < 64 → (if op = 3 then holder ≠ 0 else holder ≠ r + 1) → same c [] (if op = 3 then 7 else 8)) ∧
            (f 1 0 48 < 64 → (if op = 3 then holder = 0 else holder = r + 1) → Completes c s fun t => answered t [] 1 ∧ cache t [] 1 ∧
              t.jor.sem = s.jor.sem.set (f 1 0 48) (if op = 3 then r + 1 else 0) ∧
              Only [JOR_RING_STAT.addr r 0 0] [C_JOR_RX_FRAMES.addr r 0] { s with jor := t.jor, pmc := t.pmc } t)));
      each 1 (.read r ws) ∧ each 2 (.write r ws) ∧ each 3 (.tas r ws) ∧ each 4 (.rel r ws) ∧ each 7 (.badop r ws)

/-- COLLECT on an addressed chip puts one queued message, oldest first, into each slot with V = 0, keeps them queued, and seals the frame
anew; with none to give it relays the frame unchanged. ENUM with RESET drops the address; a chip without one takes ADDR[5:0] and passes
the next, or, at 0, stays unaddressed with NOADDR and a JORING fault; a chip with an address writes its slot with CHIP_ID and stepping
and answers OK. A malformed frame counts in CRC_ERR, one with a bad header in HCRC_ERR, one for another chip as received, and each
leaves unchanged with no other effect. RING_BLOCK_LOCK takes an input from DOWN to LOCK and RING_INPUT_UP from LOCK to UP;
RING_INPUT_DOWN takes one to DOWN, and one that was UP sets BREAK_EV, raises JORING code 1 and cuts off what it sends, with queue, cache
and address kept. BRK_BLOCK_RX on an UP input shows BRK_RX and the address. WRITE_QUEUE_DRAIN, from 1 cc after the WRITE and once in a
cc, writes the first waiting word of the oldest WRITE, to memory or as a register write, and removes it (a WRITE of no word, which no
request makes, is dropped). BUF_MEM_STAGE_FETCH, with no reader waiting for the cell's stripe and none granted in this cc, reads the
cell that a READ wanted, as it stands, and 4 cc later it is in the ring's stage. JOR_MSG_ACK removes the messages at or before MSEQ,
modulo 256, and no other. Elsewhere each changes nothing. (spec/18_joring_link.md, spec/09_shared_buffer.md) -/
def Obligations.RingsRelayCollectEnumerateAndDrain : Prop :=
  let framesForEveryChipAreCompletedAndOthersRelayed : Prop :=
    ∀ (s : State) (r : Fin 2) (ws : List (BitVec 64)) (malformed : Bool),
        let f (i l w : Nat) := natBits (ws.getD i 0).toNat l w
        let len := f 0 24 8
        let op := f 0 56 4
        let bytes (l : List (BitVec 64)) : List Byte := l.flatMap fun w => natBytes 8 w.toNat
        let formed : Prop := 3 ≤ ws.length ∧ ws.length ≤ 35 ∧ (len + 1) / 2 + 3 = ws.length
        let hcrc : Prop := crc16 ((bytes ws).take 6 ++ bytesAt (bytes ws) 8 8) = f 0 0 16
        let header : Prop := hcrc ∧ f 0 60 4 = 1 ∧ f 0 48 2 = 0 ∧ f 0 17 7 = 0 ∧ f 1 48 16 = 0
        let addressed : Bool := s.on JOR_RING_STAT_ADDRESSED r
        let own := s.f JOR_RING_STAT_ADDR r
        let up : Prop := s.f JOR_RING_STAT_STATE r = 2
        let crcOk : Prop := (ws.getLastD 0).toNat / 2 ^ 32 = crc32c (bytes ws.dropLast)
        let low (ack dup at_ : Nat) := (ack * 256 + dup * 128 + at_) * 65536 + (65535 - (ack * 256 + dup * 128 + at_))
        let sent (t : State) (body : List (BitVec 64)) (low : Nat) : Prop := (t.ring r).tx = body ++
          [BitVec.ofNat 64 ((if crcOk then crc32c (bytes body) else 2 ^ 32 - 1 - crc32c (bytes body)) * 2 ^ 32 + low)]
        let more (c : Cnt) (t : State) : Prop := t.cval c r = min (s.cval c r + 1) (2 ^ 48 - 1)
        let keeps (t : State) (cs : List Cnt) : Prop := Only [JOR_RING_STAT.addr r 0 0] (cs.map fun c => c.addr r 0) { s with jor := t.jor, pmc := t.pmc } t ∧
          t.jor.sem = s.jor.sem ∧ (t.ring r).writes = (s.ring r).writes ∧ (t.ring r).stage = (s.ring r).stage ∧ (t.ring r).msgs = (s.ring r).msgs ∧
          t.f JOR_RING_STAT_BRK_RX r = 0 ∧ t.f JOR_RING_STAT_ADDR r = own ∧ t.on JOR_RING_STAT_ADDRESSED r = addressed
        let collects : Prop := op = 5 ∧ addressed = true ∧ 2 ≤ len ∧ len ≤ 64 ∧ len % 2 = 0
        let enums : Prop := op = 6 ∧ len = 63
        let named : Prop := op ≠ 5 ∧ op ≠ 6 ∧ addressed = true ∧ own = f 0 50 6
        let slots := (ws.drop 2).dropLast
        let msgs := (s.ring r).msgs
        let freeBefore (i : Nat) := (slots.take i).countP fun w => w.getLsbD 63 == false
        let slot (i : Nat) : BitVec 64 := match (slots.getD i 0).getLsbD 63, msgs[freeBefore i]? with
          | false, some m => BitVec.ofNat 64 (2 ^ 63 + own * 2 ^ 56 + m.mseq % 256 * 2 ^ 48 + m.kind % 4 * 2 ^ 46 + m.core % 4 * 2 ^ 42 + m.code % 65536)
          | _, _ => slots.getD i 0
        let new := (List.range slots.length).map slot
        let next := f 1 0 6
        let reset : Bool := natBit (ws.getD 0 0).toNat 16
        let taken : Prop := addressed = false ∨ reset = true
        let at_ := if taken then next else own
        let crcCount (t : State) : Prop := t.cval C_JOR_CRC_ERR r = min (s.cval C_JOR_CRC_ERR r + (if crcOk then 0 else 1)) (2 ^ 48 - 1)
        let seen (t : State) : Prop := more C_JOR_RX_FRAMES t ∧ crcCount t
        let relayed (t : State) : Prop := (t.ring r).tx = ws
        let cached (t : State) : Prop := (t.ring r).cache = (s.ring r).cache
        (¬ (up ∧ formed ∧ header ∧ collects) → exec (.collect r ws) s = .next s) ∧
        (up → formed → header → collects → Completes (.collect r ws) s fun t => seen t ∧ keeps t [C_JOR_RX_FRAMES, C_JOR_CRC_ERR] ∧ cached t ∧
          (new = slots → relayed t) ∧ (new ≠ slots → sent t (ws.take 2 ++ new) ((ws.getLastD 0).toNat % 2 ^ 32))) ∧
        (¬ (up ∧ formed ∧ header ∧ enums) → exec (.enum r ws) s = .next s) ∧
        (up → formed → header → enums → taken → next = 0 → Completes (.enum r ws) s fun t => seen t ∧ relayed t ∧ cached t ∧
          t.on JOR_RING_STAT_NOADDR r = true ∧ t.on JOR_RING_STAT_ADDRESSED r = false ∧ FaultRaised s t 11 1 2 r ∧
          Only [JOR_RING_STAT.addr r 0 0] [C_JOR_RX_FRAMES.addr r 0, C_JOR_CRC_ERR.addr r 0] { s with jor := t.jor, pmc := t.pmc, flt := t.flt } t) ∧
        (up → formed → header → enums → at_ ≠ 0 → Completes (.enum r ws) s fun t => seen t ∧ cached t ∧
          t.on JOR_RING_STAT_ADDRESSED r = true ∧ t.f JOR_RING_STAT_ADDR r = at_ ∧
          Only [JOR_RING_STAT.addr r 0 0] [C_JOR_RX_FRAMES.addr r 0, C_JOR_CRC_ERR.addr r 0] { s with jor := t.jor, pmc := t.pmc } t ∧
          (let tx := (t.ring r).tx
           let o (i l w : Nat) := natBits (tx.getD i 0).toNat l w
           let v := s.ca DOM_CHIP_CHIP_ID * 65536 + stepping * 256
           let w := (slots.getD ((at_ - 1) / 2) 0).toNat
           let word : BitVec 64 := BitVec.ofNat 64 (if at_ % 2 = 1 then v * 2 ^ 32 + w % 2 ^ 32 else w / 2 ^ 32 * 2 ^ 32 + v)
           tx.length = ws.length ∧ o 0 16 48 = f 0 16 48 ∧ o 1 6 58 = f 1 6 58 ∧ o 1 0 6 = (if taken then (next + 1) % 64 else next) ∧
           crc16 ((bytes tx).take 6 ++ bytesAt (bytes tx) 8 8) = o 0 0 16 ∧
           (tx.drop 2).dropLast = slots.set ((at_ - 1) / 2) word ∧ sent t tx.dropLast (low 1 0 at_))) ∧
        (¬ up → exec (.joringFrameRelay r ws malformed) s = .next s) ∧
        (up → malformed = true ∨ ¬ formed → Completes (.joringFrameRelay r ws malformed) s fun t => relayed t ∧ cached t ∧ more C_JOR_CRC_ERR t ∧
          keeps t [C_JOR_CRC_ERR]) ∧
        (up → malformed = false → formed → ¬ header → Completes (.joringFrameRelay r ws malformed) s fun t => relayed t ∧ cached t ∧ more C_JOR_HCRC_ERR t ∧
          keeps t [C_JOR_HCRC_ERR, C_JOR_RX_FRAMES] ∧ (hcrc → more C_JOR_RX_FRAMES t) ∧ (¬ hcrc → t.cval C_JOR_RX_FRAMES r = s.cval C_JOR_RX_FRAMES r)) ∧
        (up → malformed = false → formed → header → collects ∨ enums ∨ named → exec (.joringFrameRelay r ws malformed) s = .next s) ∧
        (up → malformed = false → formed → header → ¬ collects → ¬ enums → ¬ named → Completes (.joringFrameRelay r ws malformed) s fun t =>
          relayed t ∧ cached t ∧ seen t ∧ keeps t [C_JOR_RX_FRAMES, C_JOR_CRC_ERR]);
  let ringInputsQueuesAndStagesMove : Prop :=
    ∀ (s : State) (r : Fin 2),
        let st := s.f JOR_RING_STAT_STATE r
        let q := s.ring r
        let reg := JOR_RING_STAT.addr r 0 0
        let fields (t : State) : Prop := t.f JOR_RING_STAT_ADDR r = s.f JOR_RING_STAT_ADDR r ∧ t.on JOR_RING_STAT_ADDRESSED r = s.on JOR_RING_STAT_ADDRESSED r ∧
          t.on JOR_RING_STAT_NOADDR r = s.on JOR_RING_STAT_NOADDR r
        let alone (t : State) : Prop := Only [reg] [] s t ∧ fields t
        (st ≠ 0 → exec (.ringBlockLock r) s = .next s) ∧
        (st = 0 → Completes (.ringBlockLock r) s fun t => t.f JOR_RING_STAT_STATE r = 1 ∧ alone t) ∧
        (st ≠ 1 → exec (.ringInputUp r) s = .next s) ∧
        (st = 1 → Completes (.ringInputUp r) s fun t => t.f JOR_RING_STAT_STATE r = 2 ∧ fields t ∧ t.ring r = { q with wasUp := true } ∧
          Only [reg] [] { s with jor := t.jor } t) ∧
        (st = 0 → exec (.ringInputDown r) s = .next s) ∧
        (st = 1 ∨ st = 3 → Completes (.ringInputDown r) s fun t => t.f JOR_RING_STAT_STATE r = 0 ∧ alone t ∧ t.on JOR_RING_STAT_BREAK_EV r = s.on JOR_RING_STAT_BREAK_EV r) ∧
        (st = 2 → Completes (.ringInputDown r) s fun t => t.f JOR_RING_STAT_STATE r = 0 ∧ t.f JOR_RING_STAT_BRK_RX r = 0 ∧ fields t ∧
          t.on JOR_RING_STAT_BREAK_EV r = true ∧ FaultRaised s t 11 1 1 r ∧ t.ring r = { q with downFrom := s.cc, timedOut := false, tx := [] } ∧
          Only [reg] [] { s with jor := t.jor, flt := t.flt } t) ∧
        (∀ a : Fin 64, (st ≠ 2 → exec (.brkBlockRx r a) s = .next s) ∧
          (st = 2 → Completes (.brkBlockRx r a) s fun t => t.f JOR_RING_STAT_BRK_RX r = 1 ∧ t.f JOR_RING_STAT_BRK_ADDR r = a ∧ t.f JOR_RING_STAT_STATE r = 2 ∧ alone t)) ∧
        (q.writes = [] ∨ s.cc < q.writeAt → exec (.writeQueueDrain r) s = .next s) ∧
        (q.writeAt ≤ s.cc → ∀ e, q.writes.head? = some e → e.2 = [] → exec (.writeQueueDrain r) s = .next (s.setRing r { q with writes := q.writes.tail })) ∧
        (q.writeAt ≤ s.cc → ∀ e, q.writes.head? = some e → ∀ v, e.2.head? = some v →
          let rest := if e.2.length = 1 then q.writes.tail else (e.1 + 4, e.2.tail) :: q.writes.tail
          let s' := s.setRing r { q with writes := rest, writeAt := s.cc + 1 }
          Completes (.writeQueueDrain r) s fun t =>
            (stkBase ≤ e.1 → e.1 < stkBase + 3 * 2 ^ 24 → t = s'.store e.1 (natBytes 4 v.toNat)) ∧
            (isCsr e.1 = true → some t = (s'.evAt 0x051 false r e.1).csrWrite e.1 v)) ∧
        (∀ errs : List (Nat × Nat),
          let due (c : Nat) : Prop := (∀ d ∈ s.fwd.arriving, d.read.ring ≠ some r.val) ∧ c % 128 ∉ s.fwd.stripeR ∧ ∀ x ∈ s.fwd.reads, x.cell % 128 ≠ c % 128
          (q.wanted = none → exec (.bufMemStageFetch r errs) s = .next s) ∧
          (∀ c, q.wanted = some c →
            (¬ due c → exec (.bufMemStageFetch r errs) s = .next s) ∧
            (due c → Completes (.bufMemStageFetch r errs) s fun t =>
              let waiting := (s.fwd.writers.flatMap (·.2)).filter fun w => w.cell == c
              let s' := State.ev { s with fwd := { s.fwd with stripeR := c % 128 :: s.fwd.stripeR } } 0x032
              let x := if waiting = [] then s'.readCell c errs else (s', (waiting.getLastD {}).data, false)
              t = { x.1 with fwd := { x.1.fwd with arriving := s.fwd.arriving ++ [{ due := s.cc + 4, read := { cell := c, ring := some r.val }, data := x.2.1, bad := x.2.2 }] } }))) ∧
        (∀ d, s.fwd.arriving.head? = some d → s.fwd.arriving.tail = [] → d.read.ring = some r.val →
          (s.cc < d.due → s.arrivals = s) ∧
          (d.due ≤ s.cc → s.arrivals = ({ s with fwd := { s.fwd with arriving := [] } }).setRing r
            { q with stage := some (d.read.cell, d.data, d.bad), wanted := if q.wanted = some d.read.cell then none else q.wanted })) ∧
        (∀ m : BitVec 8, Completes (.jorMsgAck r m) s fun t =>
          let stays (x : HostMsg) : Bool := 128 ≤ (m.toNat + 256 - x.mseq % 256) % 256
          t.ring r = { q with msgs := q.msgs.filter stays } ∧ t.f JOR_MSG_QUEUED r = (q.msgs.filter stays).length % 32 ∧
          t.f JOR_MSG_NEXT_MSEQ r = s.f JOR_MSG_NEXT_MSEQ r ∧ Only [JOR_MSG.addr r 0 0] [] { s with jor := t.jor } t);
  framesForEveryChipAreCompletedAndOthersRelayed ∧ ringInputsQueuesAndStagesMove

/-- POWER_ON_RESET, SYSTEM_RESET and SOFTWARE_RESET, and WATCHDOG_RESET in a cc after the running watchdog's limit was reached, give the
reset state, with the boot flash kept (and the model's queue and free counter); only BOOT_RST differs: ATTEMPT is 0, or one more up to
15 for the watchdog, and CAUSE names the kind. Test state follows TEST_EN and the fused unlock at power-on and outlasts the other
resets; in it TEST code 1 is raised; TEST_EN without the unlock raises SECURITY code 4. WATCHDOG_RESET elsewhere changes nothing.
WDOG_KICK restarts the count, unless it has expired. HARDWARE_INITIALISATION, once, clears memory and patch RAM, puts the pool manager
in CHAIN with every cell free and shows STAGE 1. (spec/19_startup.md, spec/20_faults.md) -/
def Obligations.ResetsReturnTheChipToItsResetState : Prop :=
  ∀ s : State,
      let reset (t : State) (attempt cause : Nat) (test : Bool) : Prop := t.f BOOT_RST_ATTEMPT = attempt ∧ t.f BOOT_RST_CAUSE = cause ∧ t.flt.test = test ∧
        RegsBut [BOOT_RST.addr 0 0 0] State.reset t ∧ (test = true → FaultRaised { State.reset with flt := { State.reset.flt with test := true } } t 15 0 1 0) ∧
        t = { State.reset with pending := s.pending, free := s.free, csr := t.csr, boot := { State.reset.boot with flash := s.boot.flash }, flt := t.flt }
      let kept (t : State) : Prop := s.flt.test = false → t.flt = State.reset.flt
      let unlock : Bool := Config.fused 4 % 2 == 1
      let limit := s.f BOOT_WDOG_MS
      let expired : Prop := s.boot.wdogOff = false ∧ limit ≠ 0 ∧ s.boot.wdogFrom + limit * 1500000 < s.cc
      (∀ en : Bool, Completes (.powerOnReset en) s fun t => reset t 0 0 (en && unlock) ∧ (en = false → t.flt = State.reset.flt) ∧
        (en = true → unlock = false → FaultRaised State.reset t 14 1 4 0)) ∧
      (Completes .systemReset s fun t => reset t 0 1 s.flt.test ∧ kept t) ∧
      (Completes .softwareReset s fun t => reset t 0 2 s.flt.test ∧ kept t) ∧
      (¬ expired → exec .watchdogReset s = .next s) ∧
      (expired → Completes .watchdogReset s fun t => reset t (min (s.f BOOT_RST_ATTEMPT + 1) 15) 3 s.flt.test ∧ kept t) ∧
      (¬ expired → exec .wdogKick s = .next { s with boot := { s.boot with wdogFrom := s.cc } }) ∧ (expired → exec .wdogKick s = .next s) ∧
      (s.boot.phase ≠ 0 → exec .hardwareInitialisation s = .next s) ∧
      (s.boot.phase = 0 → Completes .hardwareInitialisation s fun t => t.f POOL_STAT_STATE = 0 ∧ t.f POOL_FREE_CELLS_CELLS = 2097152 ∧
        t.f BOOT_STAT_STAGE = 1 ∧ t.f BOOT_STAT_FW_SLOT = s.f BOOT_STAT_FW_SLOT ∧ t.f BOOT_STAT_ERR = s.f BOOT_STAT_ERR ∧
        RegsBut [POOL_STAT.addr 0 0 0, POOL_FREE_CELLS.addr 0 0 0, BOOT_STAT.addr 0 0 0] s t ∧
        t = { s with csr := t.csr, mem := [], uc := {}, boot := { s.boot with phase := 1 } })

/-- BOOT_ROM_START runs once. In test state it only shows TEST and STAGE 0x0F and stops the watchdog. ATTEMPT 4 or more means RECOVERY with
ERR 8, no SFDP RECOVERY with ERR 1. Else it shows the flash and both SEQs and tries the newer image first, the older when ATTEMPT is
odd. An image passes when its header, its key and signature and its version do; a bad header raises CONFIG code 14, a bad key or
signature SECURITY code 2. The first that passes has its body at LOAD, FW_SLOT, VALID and STAGE 0x10, and K0 goes to ENTRY at supervisor
level with IEN 0; when neither does, RECOVERY with ERR 2 and CONFIG code 15 at level 2. HOSTLOAD in RECOVERY enters a host image that
passes as FW_SLOT 2, or sets ERR 3; outside RECOVERY it changes nothing. (spec/19_startup.md, spec/20_faults.md) -/
def Obligations.TheRomEntersTheFirstImageThatPasses : Prop :=
  ∀ s : State,
      let size (b : List Byte) := fieldAt b 16 4
      let at_ (b : List Byte) := fieldAt b 20 4
      let entry (b : List Byte) := fieldAt b 24 4
      let formed (b : List Byte) : Prop := fieldAt b 0 4 = 0x4E484257 ∧ fieldAt b 4 2 = 1 ∧ size b % 8 = 0 ∧ size b ≤ 4194048 ∧ at_ b % 64 = 0 ∧
        at_ b + size b ≤ 0xFF0000 ∧ entry b % 8 = 0 ∧ at_ b ≤ entry b ∧ entry b < at_ b + size b
      let signed (b : List Byte) : Prop := let key := fieldAt b 28 1; let pub := bytesAt b (64 + size b) 96;
        key < 4 ∧ wordBits s.bootOtp (28 + key) 1 = 0 ∧ sha384 pub = Config.fused (32 + key) ∧
        ecdsaOk pub (sha384 (b.take (160 + size b))) (bytesAt b (160 + size b) 96) = true
      let passes (b : List Byte) : Prop := formed b ∧ signed b ∧ wordBits s.bootOtp 0 16 ≤ fieldAt b 12 2
      let faults (b : List Byte) : List FaultEv := if ¬ formed b then [{ cls := 8, level := 1, code := 14, react := s.reactWord 8, cc := s.cc }]
        else if ¬ signed b then [{ cls := 14, level := 1, code := 2, react := s.reactWord 14, cc := s.cc }] else []
      let raised (t : State) (l : List FaultEv) : Prop := t.flt = { s.flt with pend := s.flt.pend ++ l, raised := (l.map (·.cls)).reverse ++ s.flt.raised }
      let regs := [BOOT_STAT, BOOT_FLASH, STK_PC_ADDR.reg, STK_STAT].map (·.addr 0 0 0) ++ [BOOT_FW_SEQ.addr 0 0 0, BOOT_FW_SEQ.addr 1 0 0]
      let only (t : State) : Prop := t = { s with csr := t.csr, flt := t.flt, mem := t.mem, boot := { s.boot with phase := t.boot.phase, recovery := t.boot.recovery, wdogOff := t.boot.wdogOff } } ∧
        RegsBut regs s t
      let written (t : State) (bs : List (List Byte)) : Prop := ∀ a : Nat, (∀ b ∈ bs, formed b → ¬ (stkBase + at_ b ≤ a ∧ a < stkBase + at_ b + size b)) → t.mem.get a = s.mem.get a
      let entered (t : State) (b : List Byte) (slot : Nat) : Prop := t.f BOOT_STAT_FW_SLOT = slot ∧ t.f BOOT_STAT_STAGE = 0x10 ∧
        t.pc 0 = entry b ∧ t.f STK_STAT_PRIV 0 = 1 ∧ t.f STK_STAT_IEN 0 = 0 ∧ t.load (stkBase + at_ b) (size b) = bytesAt b 64 (size b)
      let waits (t : State) (err : Nat) : Prop := t.f BOOT_STAT_STAGE = 0x0E ∧ t.f BOOT_STAT_ERR = err ∧ t.f BOOT_STAT_FW_SLOT = s.f BOOT_STAT_FW_SLOT ∧
        t.boot.recovery = true ∧ t.boot.wdogOff = true
      let attempt := s.f BOOT_RST_ATTEMPT
      let img (k : Nat) := s.flashBytes (k * 0x400000) (256 + min (fieldAt (s.flashBytes (k * 0x400000) 20) 16 4) 4194048)
      let seq (k : Nat) := fieldAt (s.flashBytes (k * 0x400000) 12) 8 4
      let newerIs : Nat := if newer (seq 1) (seq 0) then 1 else 0
      let first := if attempt % 2 = 0 then newerIs else 1 - newerIs
      let second := 1 - first
      let shown (t : State) : Prop := t.on BOOT_FLASH_SFDP_OK = true ∧ t.f BOOT_FLASH_MODE = Config.flashPart 2 % 4 ∧ t.f BOOT_FLASH_SIZE_LOG2 = Config.flashPart 1 % 256 ∧
        t.f BOOT_FW_SEQ_SEQ 0 = seq 0 ∧ t.f BOOT_FW_SEQ_SEQ 1 = seq 1
      let valid (t : State) (k : Nat) : Prop := t.on (if k = 0 then BOOT_FLASH_VALID0 else BOOT_FLASH_VALID1) = true
      let a := s.f BOOT_HOST_ADDR_VALUE
      let n := s.f BOOT_HOST_LEN_VALUE
      let host := s.load (stkBase + a) n
      let placed : Prop := a % 64 = 0 ∧ a < 0xFF0000 ∧ a + n ≤ 2 ^ 24 ∧ n = 256 + size host
      let boots : Prop := s.boot.phase = 1 ∧ s.flt.test = false ∧ attempt < 4 ∧ Config.flashPart 0 ≠ 0
      (s.boot.phase ≠ 1 → exec .bootRomStart s = .next s) ∧
      (s.boot.phase = 1 → s.flt.test = true → Completes .bootRomStart s fun t => t.f BOOT_STAT_TEST = 1 ∧ t.f BOOT_STAT_STAGE = 0x0F ∧ t.boot.wdogOff = true ∧
        t.boot.recovery = s.boot.recovery ∧ only t ∧ t.flt = s.flt ∧ t.mem = s.mem) ∧
      (s.boot.phase = 1 → s.flt.test = false → 4 ≤ attempt ∨ Config.flashPart 0 = 0 → Completes .bootRomStart s fun t =>
        waits t (if 4 ≤ attempt then 8 else 1) ∧ only t ∧ t.flt = s.flt ∧ t.mem = s.mem) ∧
      (boots → passes (img first) → Completes .bootRomStart s fun t => entered t (img first) first ∧ valid t first ∧ shown t ∧ only t ∧ raised t [] ∧
        written t [img first] ∧ t.boot.recovery = s.boot.recovery) ∧
      (boots → ¬ passes (img first) → passes (img second) → Completes .bootRomStart s fun t => entered t (img second) second ∧ valid t second ∧ shown t ∧ only t ∧
        raised t (faults (img first)) ∧ written t [img first, img second]) ∧
      (boots → ¬ passes (img first) → ¬ passes (img second) → Completes .bootRomStart s fun t => waits t 2 ∧ shown t ∧ only t ∧
        raised t (faults (img first) ++ faults (img second) ++ [{ cls := 8, level := 2, code := 15, react := s.reactWord 8, cc := s.cc }]) ∧ written t [img first, img second]) ∧
      (s.boot.recovery = false → exec .hostload s = .next s) ∧
      (s.boot.recovery = true → ¬ placed → Completes .hostload s fun t => t.f BOOT_STAT_ERR = 3 ∧ FaultRaised s t 8 1 14 0 ∧
        Only [BOOT_STAT.addr 0 0 0] [] { s with flt := t.flt } t) ∧
      (s.boot.recovery = true → placed → ¬ passes host → Completes .hostload s fun t => t.f BOOT_STAT_ERR = 3 ∧ t.boot = s.boot ∧ only t ∧ raised t (faults host) ∧
        written t [host] ∧ t.pc 0 = s.pc 0) ∧
      (s.boot.recovery = true → placed → passes host → Completes .hostload s fun t => entered t host 2 ∧ t.boot.recovery = false ∧ only t ∧ raised t [] ∧ written t [host])

/-- FLASH_READ, FLASH_PROGRAM and FLASH_ERASE while BUSY change nothing; else BUSY rises, OP shows the operation, and the transfer's offset,
address and length are taken. FLASH_TRANSFER_DONE without a transfer changes nothing. Else BUSY falls: a range outside the flash or the
three memory regions, misaligned, or a program or erase that meets the running firmware's slot gives RESULT 1, a timeout RESULT 2, both
with nothing moved; else RESULT 0, and a read has copied the flash bytes to memory, a program has cleared in flash the bits that memory
holds as 0, and an erase has set the sectors that cover the range to ones; every other byte of memory and flash is as before.
(spec/19_startup.md) -/
def Obligations.TheFlashEngineMovesWhatItMay : Prop :=
  ∀ s : State,
      let op := s.boot.transfer
      let go (c : Instr) (n : Nat) : Prop := (s.on BOOT_FL_CTL_BUSY = true → exec c s = .next s) ∧
        (s.on BOOT_FL_CTL_BUSY = false → Completes c s fun t => t.on BOOT_FL_CTL_BUSY = true ∧ t.f BOOT_FL_CTL_OP = n ∧ Only [BOOT_FL_CTL.addr 0 0 0] [] { s with boot := t.boot } t ∧
          t.boot = { s.boot with transfer := some { op := n, ofs := s.f BOOT_FL_OFS_OFS, addr := s.f BOOT_FL_MEM_HI_ADDR * 2 ^ 32 + s.f BOOT_FL_MEM_LO_ADDR, len := s.f BOOT_FL_LEN_LEN } })
      go .flashRead 0 ∧ go .flashProgram 1 ∧ go .flashErase 2 ∧
      (∀ slow : Bool, (op = none → exec (.flashTransferDone slow) s = .next s) ∧
        (∀ x, op = some x →
          let slot := s.f BOOT_STAT_FW_SLOT
          let inSlot : Prop := slot < 2 ∧ x.ofs < (slot + 1) * 0x400000 ∧ slot * 0x400000 < x.ofs + x.len
          let okay : Prop := x.ofs + x.len ≤ 2 ^ Config.flashPart 1 ∧ x.len ≤ 2 ^ 24 ∧ x.len % 8 = 0 ∧
            (x.op ≠ 2 → stkBase ≤ x.addr ∧ x.addr + x.len ≤ stkBase + 3 * 2 ^ 24 ∧ x.addr % 8 = 0) ∧ (x.op ≠ 0 → ¬ inSlot)
          let ends (r : Nat) (p : State → Prop) : Prop := Completes (.flashTransferDone slow) s fun t => t.f BOOT_FL_CTL_RESULT = r ∧ t.on BOOT_FL_CTL_BUSY = false ∧
            t.f BOOT_FL_CTL_OP = s.f BOOT_FL_CTL_OP ∧ p t ∧
            Only [BOOT_FL_CTL.addr 0 0 0] [] { s with mem := t.mem, boot := { s.boot with transfer := none, flash := t.boot.flash } } t
          let sector := max 1 (Config.flashPart 3)
          let inRange (a lo n : Nat) : Prop := lo ≤ a ∧ a < lo + n
          (¬ okay → ends 1 fun t => t.mem = s.mem ∧ t.boot.flash = s.boot.flash) ∧
          (okay → slow = true → ends 2 fun t => t.mem = s.mem ∧ t.boot.flash = s.boot.flash) ∧
          (okay → slow = false → x.op = 0 → ends 0 fun t => t.boot.flash = s.boot.flash ∧ t.load x.addr x.len = s.flashBytes x.ofs x.len ∧
            ∀ a : Nat, ¬ inRange a x.addr x.len → t.mem.get a = s.mem.get a) ∧
          (okay → slow = false → x.op = 1 → ends 0 fun t => t.mem = s.mem ∧
            ∀ a : Nat, t.flashAt a = if inRange a x.ofs x.len then s.flashAt a &&& s.mem.get (x.addr + (a - x.ofs)) else s.flashAt a) ∧
          (okay → slow = false → x.op = 2 → ends 0 fun t => t.mem = s.mem ∧
            ∀ a : Nat, t.flashAt a = if x.ofs / sector * sector ≤ a ∧ a < (x.ofs + x.len + sector - 1) / sector * sector then 0xFF else s.flashAt a)))

/-- FAULT_RECORD with no fault of its class detected in an earlier cc changes nothing; else it takes the oldest, in ascending code and then
INFO among those of one cc. A closed record opens at the raised level with cause, INFO and NT; an open one takes ESC, a greater LEVEL,
one more COUNT up to 63 and the last cause and INFO, and keeps the first; the fault reacts at its own level plus one, at most 3.
FLT_TOTAL rises by one. A lift (the in-place raise of a POWER overrun) only lifts LEVEL to 2 and reacts there. The reaction, by the
nibble in force when the fault was raised, raises interrupt 10, queues notices of KIND 2 on the rings or counts them dropped, and enters
the safe state with SAFED, SAFE_INFO and SAFE_EV, its command due 12 cc later; a second record in that cc is SAFED too and the lower
class named, or it if software had entered. Bit SAFE of level 3 always acts. ACK of a record that is not open changes nothing. With the
live condition of the class holding at the start of the cc (or now, where none was noted: an overrun or failed sensor; heat at or above
the least threshold less its margin, or an excluded sensor; a lost reference clock under an enabled lane; an enabled trunk port whose
group is not UP; HOLDOVER, or FREE after it; a spread conflict; a pool below its threshold; a ring input not UP; a quarantined link), or
a fault of the class raised in this cc, it only sets ACK_REFUSED. Else STAT, INFO and the NT registers of the record read 0, and nothing
else changes. (spec/20_faults.md) -/
def Obligations.FaultsAreRecordedAndAcknowledged : Prop :=
  let faultsOpenEscalateAndReact : Prop :=
    ∀ (s : State) (c : Fin 16),
        let cls := c.val
        let sooner (a b : FaultEv) : Prop := a.cc < b.cc ∨ (a.cc = b.cc ∧ (a.code < b.code ∨ (a.code = b.code ∧ a.info ≤ b.info)))
        let due := s.flt.pend.filter fun e => e.cc < s.cc
        ((∀ e ∈ due, e.cls ≠ cls) → exec (.faultRecord c) s = .next s) ∧
        ((∃ e ∈ due, e.cls = cls) → nextFault cls due ≠ none) ∧
        (∀ e, nextFault cls due = some e → e ∈ due ∧ e.cls = cls ∧ (∀ d ∈ due, d.cls = cls → sooner e d) ∧
          (e.level ≤ 3 → e.code < 256 → e.info < 65536 →
          let st (x : Fld) (t : State) := t.f x cls
          let valid : Bool := s.on FLT_REC_STAT_VALID cls
          let eff := if e.lift = true then 2 else if valid = true then min (e.level + 1) 3 else e.level
          let bit (i : Nat) : Prop := natBit e.react.toNat (8 * eff + i) = true
          let safes : Prop := eff = 3 ∨ bit 3
          let within : Prop := s.flt.safeDue = some (s.cc + 12)
          let enters : Prop := safes ∧ (s.f FLT_STAT_SAFE = 0 ∨ within)
          let keep (xs : List Fld) (t : State) : Prop := ∀ x ∈ xs, st x t = st x s
          let first := [FLT_REC_STAT_FIRST_LEVEL, FLT_REC_STAT_CAUSE, FLT_REC_INFO_INFO, FLT_REC_NT_HI_SEC_HI, FLT_REC_NT_MID_SEC_LO, FLT_REC_NT_LO_NS, FLT_REC_STAT_VALID]
          let note (t : State) (j : Nat) : Prop :=
            let room : Prop := (s.ring j).msgs.length < 16
            (bit (1 + j) ∧ room → (t.ring j) = { s.ring j with msgs := (s.ring j).msgs ++ [{ mseq := s.f JOR_MSG_NEXT_MSEQ j, kind := 2, core := 0, code := cls * 256 + eff }] } ∧
              t.f JOR_MSG_NEXT_MSEQ j = (s.f JOR_MSG_NEXT_MSEQ j + 1) % 256 ∧ t.f JOR_MSG_QUEUED j = (s.ring j).msgs.length + 1) ∧
            (bit (1 + j) ∧ ¬ room → t.cval C_JOR_MSG_DROP j = min (s.cval C_JOR_MSG_DROP j + 1) (2 ^ 48 - 1) ∧ t.ring j = s.ring j) ∧
            (¬ bit (1 + j) → t.ring j = s.ring j ∧ t.f JOR_MSG_NEXT_MSEQ j = s.f JOR_MSG_NEXT_MSEQ j ∧ t.cval C_JOR_MSG_DROP j = s.cval C_JOR_MSG_DROP j)
          Completes (.faultRecord c) s fun t =>
            (e.lift = true → st FLT_REC_STAT_LEVEL t = max (st FLT_REC_STAT_LEVEL s) 2 ∧ keep (FLT_REC_STAT_COUNT :: FLT_REC_STAT_ESC :: FLT_REC_STAT_LAST_CAUSE :: first) t ∧
              t.cval C_FLT_TOTAL cls = s.cval C_FLT_TOTAL cls) ∧
            (e.lift = false → t.cval C_FLT_TOTAL cls = min (s.cval C_FLT_TOTAL cls + 1) (2 ^ 48 - 1) ∧ st FLT_REC_STAT_LAST_CAUSE t = e.code ∧
              st FLT_REC_INFO_LAST_INFO t = e.info ∧ st FLT_REC_STAT_VALID t = 1) ∧
            (e.lift = false → valid = false → st FLT_REC_STAT_LEVEL t = e.level ∧ st FLT_REC_STAT_FIRST_LEVEL t = e.level ∧ st FLT_REC_STAT_COUNT t = 1 ∧
              st FLT_REC_STAT_ESC t = 0 ∧ st FLT_REC_STAT_INJ t = e.inj.toNat ∧ st FLT_REC_STAT_CAUSE t = e.code ∧ st FLT_REC_INFO_INFO t = e.info ∧
              (st FLT_REC_NT_HI_SEC_HI t * 2 ^ 32 + st FLT_REC_NT_MID_SEC_LO t) * 10 ^ 9 + st FLT_REC_NT_LO_NS t = s.nt / 2 ^ 40 % (2 ^ 48 * 10 ^ 9) ∧
              st FLT_REC_NT_LO_NS t < 10 ^ 9) ∧
            (e.lift = false → valid = true → st FLT_REC_STAT_LEVEL t = max (st FLT_REC_STAT_LEVEL s) eff ∧ st FLT_REC_STAT_ESC t = 1 ∧
              st FLT_REC_STAT_COUNT t = min (st FLT_REC_STAT_COUNT s + 1) 63 ∧ st FLT_REC_STAT_INJ t = (if e.inj = true then 1 else st FLT_REC_STAT_INJ s) ∧ keep first t) ∧
            (bit 0 → natBit (t.f STK_IRQ_PEND_PEND) 10 = true) ∧ (¬ bit 0 → t.rget STK_IRQ_PEND = s.rget STK_IRQ_PEND) ∧ note t 0 ∧ note t 1 ∧
            (enters → t.on FLT_STAT_SAFE = true ∧ t.on FLT_STAT_SAFE_EV = (s.f FLT_STAT_SAFE == 0 || s.on FLT_STAT_SAFE_EV) ∧ st FLT_REC_STAT_SAFED t = 1 ∧
              t.flt.safeDue = some (s.cc + 12) ∧ (s.f FLT_STAT_SAFE = 0 ∨ s.f FLT_SAFE_INFO_SW = 1 ∨ cls < s.f FLT_SAFE_INFO_CLASS → t.f FLT_SAFE_INFO_CLASS = cls ∧ t.f FLT_SAFE_INFO_CAUSE = e.code ∧ t.f FLT_SAFE_INFO_SW = 0)) ∧
            (¬ enters → t.rget FLT_STAT = s.rget FLT_STAT ∧ t.rget FLT_SAFE_INFO = s.rget FLT_SAFE_INFO ∧ t.flt.safeDue = s.flt.safeDue) ∧
            t.flt = { s.flt with pend := s.flt.pend.erase e, safeDue := t.flt.safeDue } ∧
            Only ([FLT_STAT, FLT_SAFE_INFO, STK_IRQ_PEND].map (·.addr 0 0 0) ++ [JOR_MSG.addr 0 0 0, JOR_MSG.addr 1 0 0] ++
              [FLT_REC_STAT, FLT_REC_INFO, FLT_REC_NT_HI, FLT_REC_NT_MID, FLT_REC_NT_LO].map (·.addr cls 0 0))
              [C_FLT_TOTAL.addr cls 0, C_JOR_MSG_DROP.addr 0 0, C_JOR_MSG_DROP.addr 1 0] { s with flt := t.flt, jor := t.jor, pmc := t.pmc } t));
  let recordsCloseOnlyWhenTheirConditionHasGone : Prop :=
    ∀ (s : State) (c : Fin 16),
        let th (x : Fld) (n : Nat) : Int := (s.f x : Int) - n
        let enabled (o : Nat) : Bool := (List.range 8).any fun i => s.on LANE_CTL_EN (8 * o + i)
        let mode := s.f TIME_STAT_STATE
        let now : Prop :=
          (c = 2 ∧ (s.pwr.overs ≠ 0 ∨ s.pwr.failed = true)) ∨
          (c = 3 ∧ ((∃ k ∈ List.range 64, s.on PWR_TSENS_VALID k = false) ∨
            (s.hottest.any fun x => min (min (th PWR_THERM_WARN 2) (th PWR_THERM_HI 2)) (th PWR_THERM_TRIP 5) * 4 ≤ x.1) = true)) ∨
          (c = 4 ∧ ∃ o ∈ List.range 64, enabled o = true ∧ s.on LANE_REFCLK_PRESENT (o / 8) = false) ∨
          (c = 6 ∧ ∃ p ∈ List.range 512, s.caOn MAC_PORT_CFG_EN p = true ∧ s.isTrunk s.active p = true ∧ s.linkReady p = false) ∨
          (c = 7 ∧ (mode = servoHoldover ∨ (mode = servoFree ∧ s.time.freeAfterHold = true))) ∨
          (c = 8 ∧ ∃ o ∈ List.range 64, s.on LANE_OCT_STAT_SPREAD_CONFLICT o = true) ∨
          (c = 10 ∧ ∃ p ∈ List.range 4, s.f POOL_FREE_FREE p < s.f POOL_LOWTHR_THR p) ∨
          (c = 11 ∧ (s.f JOR_RING_STAT_STATE 0 ≠ 2 ∨ s.f JOR_RING_STAT_STATE 1 ≠ 2)) ∨
          (c = 13 ∧ ∃ p ∈ List.range 512, s.f DOM_PORT_STAT_STATE p = 1)
        let live : Prop := if s.flt.liveAt.find? (fun e => e.1 == c.val) = none then now else s.flt.liveAt.find? (fun e => e.1 == c.val) = some (c.val, true)
        let regs := [FLT_REC_STAT, FLT_REC_INFO, FLT_REC_NT_HI, FLT_REC_NT_MID, FLT_REC_NT_LO]
        (s.on FLT_REC_STAT_VALID c = false → exec (.ack c) s = .next s) ∧
        (s.on FLT_REC_STAT_VALID c = true → live ∨ c.val ∈ s.flt.raised → Completes (.ack c) s fun t =>
          t.on FLT_STAT_ACK_REFUSED = true ∧ t.on FLT_STAT_SAFE = s.on FLT_STAT_SAFE ∧ Only [FLT_STAT.addr 0 0 0] [] s t) ∧
        (s.on FLT_REC_STAT_VALID c = true → ¬ live → c.val ∉ s.flt.raised → Completes (.ack c) s fun t =>
          (∀ r ∈ regs, t.rget r c = 0) ∧ Only (regs.map (·.addr c 0 0)) [] s t);
  faultsOpenEscalateAndReact ∧ recordsCloseOnlyWhenTheirConditionHasGone

/-- SAFE_ENTER in the safe state changes nothing; else it sets SAFE and SAFE_EV, names software, and the command is due 12 cc later.
SAFE_STATE_COMMAND before then changes nothing; then every lane is OFF, every port DOWN, every domain link DOWN, a drain's transmission
over, engines halted at point 0, ACTIVE contexts aborted with cause 6, outputs idle and HELD, waiting postcards gone and their records
counted lost; NT, Stoker's cores, the rings and semaphores, memory, tables, the generations and the open commit stay. SAFE_EXIT
elsewhere changes nothing; with a SAFED record, or a fault of this cc that would enter, it only sets EXIT_REFUSED; else SAFE falls,
engines run with D at 32, and enabled lanes begin with FAILS 0, while contexts and outputs stay. (spec/20_faults.md) -/
def Obligations.TheSafeStateForcesAndReleasesTheBlocks : Prop :=
  ∀ s : State,
      let safe : Prop := s.f FLT_STAT_SAFE ≠ 0
      let due (p : Nat → Prop) : Prop := ∀ d, s.flt.safeDue = some d → p d
      (safe → exec .safeEnter s = .next s) ∧
      (¬ safe → Completes .safeEnter s fun t => t.on FLT_STAT_SAFE = true ∧ t.on FLT_STAT_SAFE_EV = true ∧ t.rget FLT_SAFE_INFO = 0x80000000 ∧
        t.flt = { s.flt with safeDue := some (s.cc + 12) } ∧ Only [FLT_STAT.addr 0 0 0, FLT_SAFE_INFO.addr 0 0 0] [] { s with flt := t.flt } t) ∧
      (s.flt.safeDue = none → exec .safeStateCommand s = .next s) ∧
      (due fun d => s.cc < d → exec .safeStateCommand s = .next s) ∧
      (due fun d => d ≤ s.cc → Completes .safeStateCommand s fun t =>
        t.flt.safeDue = none ∧ (∀ n : Fin 514, t.f LANE_STAT_STATE n = 0) ∧
        (∀ p : Fin 512, t.f MAC_PORT_STAT_STATE p < 2 ∧ (2 ≤ s.f MAC_PORT_STAT_STATE p → t.f DOM_PORT_STAT_STATE p = 0 ∨ t.f DOM_PORT_STAT_STATE p = 3)) ∧
        (∀ e : Fin 32, t.on HOB_ENG_STAT_HALTED e = true) ∧
        ((s.hob.ctx.map (·.1)).Nodup → ∀ x : Fin 8192, (t.hctx x).st = (if (s.hctx x).st = 1 then 3 else (s.hctx x).st) ∧ ((s.hctx x).st = 1 → (t.hctx x).cause = 6)) ∧
        (∀ k : Fin 8, t.on TIME_TOUT_STAT_RUN k = false ∧ t.on TIME_TOUT_STAT_HELD k = true) ∧ t.tlm.out = [] ∧
        t.cval C_TLM_REC_LOST = min (s.cval C_TLM_REC_LOST + (s.tlm.out.map (·.records)).sum) (max (s.cval C_TLM_REC_LOST) (2 ^ 48 - 1)) ∧
        (s.on CHIP_MODE_STAT_DRAIN_ACTIVE = true → t.tm.flushed = true) ∧
        t.nt = s.nt ∧ t.cc = s.cc ∧ t.mem = s.mem ∧ t.tab = s.tab ∧ t.slot0 = s.slot0 ∧ t.slot1 = s.slot1 ∧ t.uc = s.uc ∧ t.boot = s.boot ∧ t.jor = s.jor ∧ t.dom.view = s.dom.view ∧
        t.gen.req = s.gen.req ∧ t.stk.regs = s.stk.regs ∧ t.stk.exc = s.stk.exc ∧ t.time.tsq = s.time.tsq ∧ t.time.tin = s.time.tin ∧ t.f TIME_STAT_STATE = s.f TIME_STAT_STATE ∧ t.f POOL_STAT_STATE = s.f POOL_STAT_STATE) ∧
      (¬ safe → exec .safeExit s = .next s) ∧
      (safe → (∃ c ∈ List.range 16, s.on FLT_REC_STAT_SAFED c = true) ∨ s.safeComing = true → Completes .safeExit s fun t =>
        t.on FLT_STAT_EXIT_REFUSED = true ∧ t.on FLT_STAT_SAFE = s.on FLT_STAT_SAFE ∧ Only [FLT_STAT.addr 0 0 0] [] s t) ∧
      (safe → (∀ c ∈ List.range 16, s.on FLT_REC_STAT_SAFED c = false) → s.safeComing = false → Completes .safeExit s fun t =>
        t.on FLT_STAT_SAFE = false ∧ t.flt.safeDue = none ∧ (∀ e : Fin 32, t.on HOB_ENG_STAT_HALTED e = false ∧ t.f HOB_ENG_STAT_DAMPER e = 32) ∧
        (∀ n : Fin 514, s.f LANE_PRBS_GEN_EN n = 0 → s.f LANE_PRBS_CHK_EN n = 0 →
          (s.on LANE_CTL_EN n = true → t.f LANE_BACKOFF_FAILS n = 0) ∧ (s.on LANE_CTL_EN n = false → t.f LANE_STAT_STATE n = s.f LANE_STAT_STATE n)) ∧
        t.hob.ctx = s.hob.ctx ∧ t.time = s.time ∧ t.nt = s.nt ∧ t.mem = s.mem ∧ t.tab = s.tab ∧ t.gen = s.gen ∧ t.stk = s.stk ∧ t.jor = s.jor)

/-- FAULT_INJECT and MEM_INJECT_ARM outside factory test state only raise SECURITY code 3. In test state FAULT_INJECT stores LEVEL, CLASS
and CAUSE and with GO raises that fault, marked injected; MEM_INJECT_ARM stores its fields, at the values they keep, and with ARM arms
that word in place of an unused arm and raises TEST code 2. JTAG_INSTRUCTION selects an instruction (the numbers are the model's, log
entry 6) and scans once: IDCODE shifts out the stepping's code, BYPASS one 0 and then what came in, a boundary instruction leaves the
scanned bits in the cells; as many bits leave as enter, and nothing else of the chip changes. (spec/20_faults.md,
spec/21_package_and_electrical.md) -/
def Obligations.TestAccessActsOnlyAsTestStateAllows : Prop :=
  ∀ s : State,
      (∀ v : Word,
        let f (l w : Nat) := wordBits v l w
        let e : FaultEv := { cls := f 16 4, level := f 20 2, code := f 8 8, info := 0, inj := true, react := s.reactWord (f 16 4), cc := s.cc }
        let target := if f 28 3 < 4 then f 28 3 else 0
        let flips := if f 26 2 = 2 then 2 else 1
        let chunk := min (f 22 4) 9
        let out (c : Instr) : Prop := s.flt.test = false → Completes c s fun t => FaultRaised s t 14 1 3 0 ∧ t = { s with flt := t.flt };
        out (.faultInject v) ∧ out (.memInjectArm v) ∧
        (s.flt.test = true → Completes (.faultInject v) s fun t => t.f FLT_INJ_LEVEL = f 20 2 ∧ t.f FLT_INJ_CLASS = f 16 4 ∧ t.f FLT_INJ_CAUSE = f 8 8 ∧
          (f 31 1 = 0 → t.flt = s.flt) ∧ (f 31 1 = 1 → t.flt = { s.flt with pend := s.flt.pend ++ [e], raised := e.cls :: s.flt.raised }) ∧
          Only [FLT_INJ.addr 0 0 0] [] { s with flt := t.flt } t) ∧
        (s.flt.test = true → Completes (.memInjectArm v) s fun t => t.f FLT_INJ_MEM_TARGET = target ∧ t.f FLT_INJ_MEM_FLIPS = flips ∧ t.f FLT_INJ_MEM_CHUNK = chunk ∧
          t.f FLT_INJ_MEM_INDEX = f 0 22 ∧ (f 31 1 = 0 → t.flt = s.flt) ∧
          (f 31 1 = 1 → FaultRaised { s with flt := { s.flt with arm := some { target := target, flips := (if 2 ≤ target then 1 else flips), chunk := chunk, index := f 0 22 } } } t 15 0 2 0) ∧
          Only [FLT_INJ_MEM.addr 0 0 0] [] { s with flt := t.flt } t)) ∧
      (∀ (ir : Nat) (dr : List Bool), Completes (.jtagInstruction ir dr) s fun t =>
        let code := if stepping = 0x11 then 0x05120A6F else 0x15120A6F
        t = { s with jtag := t.jtag, free := t.free } ∧ t.jtag.instr = (if ir < 8 then ir else 0) ∧ t.jtag.tdo.length = dr.length ∧
        (ir = 3 → ∀ i, i < dr.length → t.jtag.tdo.getD i false = if i < 32 then natBit code i else dr.getD (i - 32) false) ∧
        (ir = 0 ∨ ir = 4 ∨ ir = 5 ∨ 8 ≤ ir → t.jtag.tdo = (false :: dr).take dr.length) ∧
        (ir = 1 ∨ ir = 2 ∨ ir = 6 ∨ ir = 7 → t.jtag.cells = dr) ∧ (¬ (ir = 1 ∨ ir = 2 ∨ ir = 6 ∨ ir = 7) → t.jtag.cells = s.jtag.cells ∧ t.free = s.free))

/-- At reset every register reads its reset value in both generation slots, every counter and NT are 0, every memory byte reads 0 (the
model's choice where the spec gives none, log 3 and 4); slot 0 is ACTIVE, both slots are alike and empty; the servo is FREE; all lanes
are OFF, the rings DOWN, no record is open, the chip is not in the safe state; K0 runs and K1 to K3 are halted, at supervisor level; the
engines have D at 32; nothing waits to be done, and a step from there passes one cc with registers and memory unchanged.
(spec/08_table_generations.md, spec/11_network_time.md, spec/19_startup.md, spec/03_lanes.md, spec/20_faults.md,
spec/16_stoker_instructions.md) -/
def Obligations.ResetHoldsTheStatedValues : Prop :=
  let s := State.reset;
  (∀ (r : Reg) (i j k : Nat), s.rget r i j k = BitVec.ofNat 32 (r.reset i j k)) ∧ (∀ (c : Cnt) (i j : Nat), s.cval c i j = 0) ∧
  (∀ a : Nat, s.mem.get a = 0) ∧ s.nt = 0 ∧ s.active = 0 ∧ s.slot0 = {} ∧ s.slot1 = {} ∧ s.f TIME_STAT_STATE = servoFree ∧
  (∀ n : Fin 514, s.f LANE_STAT_STATE n = 0) ∧ s.f JOR_RING_STAT_STATE 0 = 0 ∧ s.f JOR_RING_STAT_STATE 1 = 0 ∧
  (∀ c : Fin 16, s.on FLT_REC_STAT_VALID c = false) ∧ s.on FLT_STAT_SAFE = false ∧
  (∀ k : Fin 4, s.on STK_STAT_HALTED k = (k.val != 0) ∧ s.on STK_STAT_PRIV k = true ∧ ∀ r : Fin 32, s.reg k r = 0) ∧
  (∀ e : Fin 32, s.f HOB_ENG_STAT_DAMPER e = 32) ∧ s.f BOOT_STAT_FW_SLOT = 3 ∧ s.pending = [] ∧
  ∃ t, step s = .next t ∧ t.cc = 1 ∧ t.csr = s.csr ∧ t.mem = s.mem

/-- The reset state has memory, registers and counters in their canonical form, every counter within its 48 bits, and NT within its range.
(spec/18_joring_link.md, spec/03_lanes.md, spec/11_network_time.md) -/
def Obligations.ResetIsSound : Prop :=
  State.reset.Sound

/-- From every state whose memory, register and counter tables are in canonical form (keys strictly rising, nothing listed that reads as
unlisted), whose counters are below 2^48 and whose NT is below its wrap, whatever command is at the front of the queue or none, a step
gives a state of the same kind. Counters so saturate or wrap within their width, and equal contents are equal data.
(spec/18_joring_link.md, spec/03_lanes.md, spec/11_network_time.md) -/
def Obligations.EveryStepKeepsSoundness : Prop :=
  Kept State.Sound

/-- With the request ARMED and its time come, COMMIT_TAKE_EFFECT makes the other slot ACTIVE under its number; at t_s + MAX_AGE STALE_SWEEP
has swept a RETIRING slot; RETIRE_SYNC_START moves one that nothing needs to SYNC, and SYNC_COMPLETE 32,768 cc later leaves in it what
the ACTIVE slot holds. On a running core in supervisor CRNEXT of a ring with entries moves HEAD on and of an empty one answers EMPTY,
and CRDONE of an entry of the ring writes its RESULT and STATUS. COMMAND_RING_TAIL_WRITE and RING_CFG_WRITE set up their ring, and
RX_RING_WRITE takes the ring's oldest whole frame. A READ of memory words, answered OK, sends the words; a WRITE with room in the queue
joins it; TAS takes a free semaphore and REL frees the ring's own; an invalid OP is answered BADOP: each for a frame for this chip with
a good CRC, not cached, with no WRITE waiting on the ring (but for WRITE). COLLECT fills free slots, ENUM leaves the chip with an
address (but where the next one is 0), and a malformed frame leaves as it came. So do, under the conditions their rules give: LOAD_GO,
PATCH_LOAD_DONE, TRAP_ON, LOCK and UC_PDATA_READ; the resets, HARDWARE_INITIALISATION, BOOT_ROM_START, WDOG_KICK and HOSTLOAD; the flash
commands and FLASH_TRANSFER_DONE; FAULT_RECORD, ACK, SAFE_ENTER, SAFE_STATE_COMMAND and SAFE_EXIT. (spec/08_table_generations.md,
spec/16_stoker_instructions.md, spec/18_joring_link.md, spec/17_microcode.md, spec/19_startup.md, spec/20_faults.md) -/
def Obligations.CommandsCompleteWithTheirOwnEffect : Prop :=
  let generationAndRingCommandsComplete : Prop :=
    ∀ s : State,
        (∀ r, s.gen.req = some r → s.f GEN_STAT_CSTATE = 5 → (r.now = true ∧ s.gen.checkEnd < s.cc ∨ r.now = false ∧ r.tc * 2 ^ 40 ≤ s.nt) →
          Completes .commitTakeEffect s fun t => t.active = s.shadow ∧ t.f GEN_ACTIVE_NUM = r.num % 2 ^ 32 ∧ t.f GEN_STAT_RESULT = 1) ∧
        (s.f GEN_STAT_CSTATE = 0 → s.gen.swept = false → s.gen.ts + s.f GEN_AGE_MAX_AGE * (1000 * 2 ^ 40) ≤ s.nt →
          Completes .staleSweep s fun t => t.gen = { s.gen with swept := true } ∧ t.f GEN_STAT_CSTATE = 0) ∧
        (s.f GEN_STAT_CSTATE = 0 → s.f GEN_SLOT_INFL_COUNT s.shadow = 0 → s.on CHIP_MODE_STAT_DRAIN_ACTIVE = false →
          Completes .retireSyncStart s fun t => t.f GEN_STAT_CSTATE = 1 ∧ t.gen.syncStart = s.cc) ∧
        (s.f GEN_STAT_CSTATE = 1 → s.gen.syncStart + 32768 ≤ s.cc →
          Completes .syncComplete s fun t => t.slot s.shadow = s.slot s.active ∧ t.f GEN_STAT_CSTATE = if s.gen.held = none then 3 else 4) ∧
        (∀ (k : Fin 4) (rd ra rb : Fin 32) (j : Fin 2), s.coreRuns k = true → s.user k = false → s.flt.arm = none →
          let h := s.f STK_CR_HEAD_INDEX j
          let size := 2 ^ s.f STK_CR_CFG_LOG2 j
          let idle : Prop := s.on STK_CR_CFG_EN j = false ∨ h = s.f STK_CR_TAIL_INDEX j % size
          let o := (s.reg k ra).toNat
          (Completes (.crnext k rd j) s fun t => PcNext k s t ∧ (idle → rd ≠ 0 → t.reg k rd = BitVec.ofNat 64 (2 ^ 63)) ∧
            (¬ idle → t.f STK_CR_HEAD_INDEX j = (h + 1) % size % 4096)) ∧
          (o % 64 = 0 → 64 * s.f STK_CR_BASE_BASE j ≤ o → o < 64 * s.f STK_CR_BASE_BASE j + 64 * size → o < 2 ^ 24 →
            Completes (.crdone k rd ra rb j) s fun t => PcNext k s t ∧ t.sram32 (o + 52) = (s.reg k rb).toNat / 2 ^ 32 ∧
              t.sram32 (o + 48) = 2 ^ 31 + (s.reg k rb).toNat % 2 ^ 16)) ∧
        (∀ (j : Fin 2) (i : BitVec 12), Completes (.commandRingTailWrite j i) s fun t => t.f STK_CR_TAIL_INDEX j = i.toNat) ∧
        (∀ (r : Fin 36) (v : Word), Completes (.ringCfgWrite r v) s fun t =>
          (r.val < 2 → t.f STK_CR_CFG_EN r = wordBits v 31 1 ∧ t.f STK_CR_HEAD_INDEX r = 0) ∧
          (2 ≤ r.val → t.f STK_RX_CFG_EN (r - 2) = wordBits v 31 1 ∧ t.f STK_RX_HEAD_INDEX (r - 2) = 0)) ∧
        (∀ (r : Fin 34) (ecc : Fin 3), ∀ x, (s.stk.rx.get r).find? (·.ended) = some x → Completes (.rxRingWrite r ecc) s fun t =>
          t.stk.rx.get r = (s.stk.rx.get r).eraseIdx ((s.stk.rx.get r).findIdx (·.ended)));
  let joringFramesComplete : Prop :=
    ∀ (s : State) (j : Fin 2) (ws : List (BitVec 64)),
        let own := s.f JOR_RING_STAT_ADDR j
        let new (op : Nat → Bool) : Prop := s.frameFor j ws op = true ∧ crcGood ws = true ∧ s.cached j ws = none
        let sends (t : State) (body : List (BitVec 64)) (ack : Nat) : Prop := (t.ring j).tx = reseal true body (trailerLow ack false own)
        (new (· == 1) → dataLen ws = true → (s.ring j).writes = [] → jorAddr ws % 4 = 0 → (∀ a ∈ jorWords ws, isRam a = true) → s.flt.arm = none →
          Completes (.read j ws) s fun t => sends t (ws.take 2 ++ payloadOf ((jorWords ws).map fun a => BitVec.ofNat 32 (beNat (s.load a 4)))) 1) ∧
        (new (· == 2) → dataLen ws = true → addrRefused ws true = false → (s.ring j).writes.length < 4 → s.writeHeldOff ws = false →
          Completes (.write j ws) s fun t => sends t ws.dropLast 1 ∧ (t.ring j).writes = (s.ring j).writes ++ [(jorAddr ws, dataOf ws)]) ∧
        (new (· == 3) → jorLen (jw ws 0) = 0 → (s.ring j).writes = [] → jorAddr ws < 64 → s.sem (jorAddr ws) = 0 →
          Completes (.tas j ws) s fun t => sends t ws.dropLast 1 ∧ t.sem (jorAddr ws) = j + 1) ∧
        (new (· == 4) → jorLen (jw ws 0) = 0 → (s.ring j).writes = [] → jorAddr ws < 64 → s.sem (jorAddr ws) = j + 1 →
          Completes (.rel j ws) s fun t => sends t ws.dropLast 1 ∧ t.sem (jorAddr ws) = 0) ∧
        (new (fun o => o == 0 || 7 ≤ o) → Completes (.badop j ws) s fun t => sends t ws.dropLast 5) ∧
        (s.frameFor j ws (· == 5) = true → Completes (.collect j ws) s fun t =>
          let slots := (ws.drop 2).dropLast
          let full := fillSlots own slots (s.ring j).msgs
          (t.ring j).tx = if full = slots then ws else reseal (crcGood ws) (ws.take 2 ++ full) ((ws.getLastD 0).toNat % 2 ^ 32)) ∧
        (s.frameFor j ws (· == 6) = true → jorAddr ws % 64 ≠ 0 → Completes (.enum j ws) s fun t => t.on JOR_RING_STAT_ADDRESSED j = true ∧
          t.f JOR_RING_STAT_ADDR j = if s.on JOR_RING_STAT_ADDRESSED j = true ∧ jorReset (jw ws 0) = false then own else jorAddr ws % 64) ∧
        (s.ringUp j = true → Completes (.joringFrameRelay j ws true) s fun t => (t.ring j).tx = ws);
  let systemCommandsComplete : Prop :=
    ∀ s : State,
        (s.on UC_CTL_LOCK = false → s.uc.load = none → s.on UC_CTL_TRAP_ON = false → s.f UC_LOAD_ADDR_SOFS + s.f UC_LOAD_LEN_BYTES ≤ 2 ^ 24 →
          Completes .loadGo s fun t => t.on UC_STAT_BUSY = true) ∧
        (s.uc.load ≠ none → Completes .patchLoadDone s fun t => t.on UC_STAT_BUSY = false ∧ t.on UC_STAT_LOAD_EV = true ∧ t.uc.load = none) ∧
        (s.on UC_CTL_LOCK = false → s.on UC_STAT_LOADED = true → Completes .trapOn s fun t => t.on UC_CTL_TRAP_ON = true) ∧
        (Completes .lock s fun t => t.on UC_CTL_LOCK = true) ∧
        (Completes .ucPdataRead s fun t => t.f UC_PADDR_ADDR = if s.on UC_PADDR_AUTO_INC = true then (s.f UC_PADDR_ADDR + 1) % 8192 else s.f UC_PADDR_ADDR) ∧
        (let back (c : Instr) (cause : Nat) : Prop := Completes c s fun t => t.f BOOT_RST_CAUSE = cause ∧ t.cc = 0 ∧ t.mem = [];
          back (.powerOnReset false) 0 ∧ back .systemReset 1 ∧ back .softwareReset 2) ∧
        (s.wdogExpired = true → Completes .watchdogReset s fun t => t.f BOOT_RST_CAUSE = 3 ∧ t.f BOOT_RST_ATTEMPT = min (s.f BOOT_RST_ATTEMPT + 1) 15) ∧
        (s.boot.phase = 0 → Completes .hardwareInitialisation s fun t => t.mem = [] ∧ t.f BOOT_STAT_STAGE = 1) ∧
        (s.boot.phase = 1 → Completes .bootRomStart s fun t => t.boot.phase = 2 ∧ (t.f BOOT_STAT_STAGE = 0x0E ∨ t.f BOOT_STAT_STAGE = 0x0F ∨ t.f BOOT_STAT_STAGE = 0x10)) ∧
        (s.wdogExpired = false → Completes .wdogKick s fun t => t.boot.wdogFrom = s.cc) ∧
        (s.boot.recovery = true → Completes .hostload s fun t => t.f BOOT_STAT_ERR = 3 ∨ t.f BOOT_STAT_FW_SLOT = 2) ∧
        (let go (c : Instr) (op : Nat) : Prop := s.on BOOT_FL_CTL_BUSY = false → Completes c s fun t => t.on BOOT_FL_CTL_BUSY = true ∧ t.f BOOT_FL_CTL_OP = op;
          go .flashRead 0 ∧ go .flashProgram 1 ∧ go .flashErase 2) ∧
        (∀ slow : Bool, s.boot.transfer ≠ none → Completes (.flashTransferDone slow) s fun t => t.on BOOT_FL_CTL_BUSY = false ∧ t.boot.transfer = none) ∧
        (∀ c : Fin 16,
          (∀ e, nextFault c s.duePend = some e → Completes (.faultRecord c) s fun t => t.flt.pend = s.flt.pend.erase e) ∧
          (s.on FLT_REC_STAT_VALID c = true → s.liveBefore c = false → c.val ∉ s.flt.raised → Completes (.ack c) s fun t => t.on FLT_REC_STAT_VALID c = false)) ∧
        (s.isSafe = false → Completes .safeEnter s fun t => t.on FLT_STAT_SAFE = true) ∧
        (∀ d, s.flt.safeDue = some d → d ≤ s.cc → Completes .safeStateCommand s fun t => ∀ n : Fin 514, t.f LANE_STAT_STATE n = 0) ∧
        (s.isSafe = true → (∀ c ∈ List.range 16, s.on FLT_REC_STAT_SAFED c = false) → s.safeComing = false → Completes .safeExit s fun t => t.on FLT_STAT_SAFE = false);
  generationAndRingCommandsComplete ∧ joringFramesComplete ∧ systemCommandsComplete
end

