-- ==== Sys2Proof/Laws/State.lean ====
section
/-! SUPPORT. The frame of each shared update: one lemma per field that the update leaves alone. -/

namespace Sys2Proof.Machine

@[simp] theorem State.rset_pending (s : State) (r : Reg) (v : Word) (i j k : Nat) : (s.rset r v i j k).pending = s.pending := rfl

@[simp] theorem State.rset_cc (s : State) (r : Reg) (v : Word) (i j k : Nat) : (s.rset r v i j k).cc = s.cc := rfl

@[simp] theorem State.rset_nt (s : State) (r : Reg) (v : Word) (i j k : Nat) : (s.rset r v i j k).nt = s.nt := rfl

@[simp] theorem State.rset_free (s : State) (r : Reg) (v : Word) (i j k : Nat) : (s.rset r v i j k).free = s.free := rfl

@[simp] theorem State.rset_cnt (s : State) (r : Reg) (v : Word) (i j k : Nat) : (s.rset r v i j k).cnt = s.cnt := rfl

@[simp] theorem State.rset_cntNew (s : State) (r : Reg) (v : Word) (i j k : Nat) : (s.rset r v i j k).cntNew = s.cntNew := rfl

@[simp] theorem State.rset_snap (s : State) (r : Reg) (v : Word) (i j k : Nat) : (s.rset r v i j k).snap = s.snap := rfl

@[simp] theorem State.rset_hwSet (s : State) (r : Reg) (v : Word) (i j k : Nat) : (s.rset r v i j k).hwSet = s.hwSet := rfl

@[simp] theorem State.rset_swClr (s : State) (r : Reg) (v : Word) (i j k : Nat) : (s.rset r v i j k).swClr = s.swClr := rfl

@[simp] theorem State.rset_mem (s : State) (r : Reg) (v : Word) (i j k : Nat) : (s.rset r v i j k).mem = s.mem := rfl

@[simp] theorem State.rset_slot0 (s : State) (r : Reg) (v : Word) (i j k : Nat) : (s.rset r v i j k).slot0 = s.slot0 := rfl

@[simp] theorem State.rset_slot1 (s : State) (r : Reg) (v : Word) (i j k : Nat) : (s.rset r v i j k).slot1 = s.slot1 := rfl

@[simp] theorem State.rset_gen (s : State) (r : Reg) (v : Word) (i j k : Nat) : (s.rset r v i j k).gen = s.gen := rfl

@[simp] theorem State.rset_tab (s : State) (r : Reg) (v : Word) (i j k : Nat) : (s.rset r v i j k).tab = s.tab := rfl

@[simp] theorem State.rset_fwd (s : State) (r : Reg) (v : Word) (i j k : Nat) : (s.rset r v i j k).fwd = s.fwd := rfl

@[simp] theorem State.rset_tm (s : State) (r : Reg) (v : Word) (i j k : Nat) : (s.rset r v i j k).tm = s.tm := rfl

@[simp] theorem State.rset_mac (s : State) (r : Reg) (v : Word) (i j k : Nat) : (s.rset r v i j k).mac = s.mac := rfl

@[simp] theorem State.rset_time (s : State) (r : Reg) (v : Word) (i j k : Nat) : (s.rset r v i j k).time = s.time := rfl

@[simp] theorem State.rset_stk (s : State) (r : Reg) (v : Word) (i j k : Nat) : (s.rset r v i j k).stk = s.stk := rfl

@[simp] theorem State.rset_jor (s : State) (r : Reg) (v : Word) (i j k : Nat) : (s.rset r v i j k).jor = s.jor := rfl

@[simp] theorem State.rset_flt (s : State) (r : Reg) (v : Word) (i j k : Nat) : (s.rset r v i j k).flt = s.flt := rfl

@[simp] theorem State.rset_pmc (s : State) (r : Reg) (v : Word) (i j k : Nat) : (s.rset r v i j k).pmc = s.pmc := rfl

@[simp] theorem State.rset_dom (s : State) (r : Reg) (v : Word) (i j k : Nat) : (s.rset r v i j k).dom = s.dom := rfl

@[simp] theorem State.rset_lanes (s : State) (r : Reg) (v : Word) (i j k : Nat) : (s.rset r v i j k).lanes = s.lanes := rfl

@[simp] theorem State.rset_trk (s : State) (r : Reg) (v : Word) (i j k : Nat) : (s.rset r v i j k).trk = s.trk := rfl

@[simp] theorem State.rset_clk (s : State) (r : Reg) (v : Word) (i j k : Nat) : (s.rset r v i j k).clk = s.clk := rfl

@[simp] theorem State.rset_hob (s : State) (r : Reg) (v : Word) (i j k : Nat) : (s.rset r v i j k).hob = s.hob := rfl

@[simp] theorem State.rset_pwr (s : State) (r : Reg) (v : Word) (i j k : Nat) : (s.rset r v i j k).pwr = s.pwr := rfl

@[simp] theorem State.rset_tlm (s : State) (r : Reg) (v : Word) (i j k : Nat) : (s.rset r v i j k).tlm = s.tlm := rfl

@[simp] theorem State.rset_uc (s : State) (r : Reg) (v : Word) (i j k : Nat) : (s.rset r v i j k).uc = s.uc := rfl

@[simp] theorem State.rset_boot (s : State) (r : Reg) (v : Word) (i j k : Nat) : (s.rset r v i j k).boot = s.boot := rfl

@[simp] theorem State.rset_jtag (s : State) (r : Reg) (v : Word) (i j k : Nat) : (s.rset r v i j k).jtag = s.jtag := rfl

@[simp] theorem State.setF_pending (s : State) (x : Fld) (v i j k : Nat) : (s.setF x v i j k).pending = s.pending := rfl

@[simp] theorem State.setF_cc (s : State) (x : Fld) (v i j k : Nat) : (s.setF x v i j k).cc = s.cc := rfl

@[simp] theorem State.setF_nt (s : State) (x : Fld) (v i j k : Nat) : (s.setF x v i j k).nt = s.nt := rfl

@[simp] theorem State.setF_free (s : State) (x : Fld) (v i j k : Nat) : (s.setF x v i j k).free = s.free := rfl

@[simp] theorem State.setF_cnt (s : State) (x : Fld) (v i j k : Nat) : (s.setF x v i j k).cnt = s.cnt := rfl

@[simp] theorem State.setF_cntNew (s : State) (x : Fld) (v i j k : Nat) : (s.setF x v i j k).cntNew = s.cntNew := rfl

@[simp] theorem State.setF_snap (s : State) (x : Fld) (v i j k : Nat) : (s.setF x v i j k).snap = s.snap := rfl

@[simp] theorem State.setF_hwSet (s : State) (x : Fld) (v i j k : Nat) : (s.setF x v i j k).hwSet = s.hwSet := rfl

@[simp] theorem State.setF_swClr (s : State) (x : Fld) (v i j k : Nat) : (s.setF x v i j k).swClr = s.swClr := rfl

@[simp] theorem State.setF_mem (s : State) (x : Fld) (v i j k : Nat) : (s.setF x v i j k).mem = s.mem := rfl

@[simp] theorem State.setF_slot0 (s : State) (x : Fld) (v i j k : Nat) : (s.setF x v i j k).slot0 = s.slot0 := rfl

@[simp] theorem State.setF_slot1 (s : State) (x : Fld) (v i j k : Nat) : (s.setF x v i j k).slot1 = s.slot1 := rfl

@[simp] theorem State.setF_gen (s : State) (x : Fld) (v i j k : Nat) : (s.setF x v i j k).gen = s.gen := rfl

@[simp] theorem State.setF_tab (s : State) (x : Fld) (v i j k : Nat) : (s.setF x v i j k).tab = s.tab := rfl

@[simp] theorem State.setF_fwd (s : State) (x : Fld) (v i j k : Nat) : (s.setF x v i j k).fwd = s.fwd := rfl

@[simp] theorem State.setF_tm (s : State) (x : Fld) (v i j k : Nat) : (s.setF x v i j k).tm = s.tm := rfl

@[simp] theorem State.setF_mac (s : State) (x : Fld) (v i j k : Nat) : (s.setF x v i j k).mac = s.mac := rfl

@[simp] theorem State.setF_time (s : State) (x : Fld) (v i j k : Nat) : (s.setF x v i j k).time = s.time := rfl

@[simp] theorem State.setF_stk (s : State) (x : Fld) (v i j k : Nat) : (s.setF x v i j k).stk = s.stk := rfl

@[simp] theorem State.setF_jor (s : State) (x : Fld) (v i j k : Nat) : (s.setF x v i j k).jor = s.jor := rfl

@[simp] theorem State.setF_flt (s : State) (x : Fld) (v i j k : Nat) : (s.setF x v i j k).flt = s.flt := rfl

@[simp] theorem State.setF_pmc (s : State) (x : Fld) (v i j k : Nat) : (s.setF x v i j k).pmc = s.pmc := rfl

@[simp] theorem State.setF_dom (s : State) (x : Fld) (v i j k : Nat) : (s.setF x v i j k).dom = s.dom := rfl

@[simp] theorem State.setF_lanes (s : State) (x : Fld) (v i j k : Nat) : (s.setF x v i j k).lanes = s.lanes := rfl

@[simp] theorem State.setF_trk (s : State) (x : Fld) (v i j k : Nat) : (s.setF x v i j k).trk = s.trk := rfl

@[simp] theorem State.setF_clk (s : State) (x : Fld) (v i j k : Nat) : (s.setF x v i j k).clk = s.clk := rfl

@[simp] theorem State.setF_hob (s : State) (x : Fld) (v i j k : Nat) : (s.setF x v i j k).hob = s.hob := rfl

@[simp] theorem State.setF_pwr (s : State) (x : Fld) (v i j k : Nat) : (s.setF x v i j k).pwr = s.pwr := rfl

@[simp] theorem State.setF_tlm (s : State) (x : Fld) (v i j k : Nat) : (s.setF x v i j k).tlm = s.tlm := rfl

@[simp] theorem State.setF_uc (s : State) (x : Fld) (v i j k : Nat) : (s.setF x v i j k).uc = s.uc := rfl

@[simp] theorem State.setF_boot (s : State) (x : Fld) (v i j k : Nat) : (s.setF x v i j k).boot = s.boot := rfl

@[simp] theorem State.setF_jtag (s : State) (x : Fld) (v i j k : Nat) : (s.setF x v i j k).jtag = s.jtag := rfl

@[simp] theorem State.satF_pending (s : State) (x : Fld) (n i j k : Nat) : (s.satF x n i j k).pending = s.pending := rfl

@[simp] theorem State.satF_cc (s : State) (x : Fld) (n i j k : Nat) : (s.satF x n i j k).cc = s.cc := rfl

@[simp] theorem State.satF_nt (s : State) (x : Fld) (n i j k : Nat) : (s.satF x n i j k).nt = s.nt := rfl

@[simp] theorem State.satF_free (s : State) (x : Fld) (n i j k : Nat) : (s.satF x n i j k).free = s.free := rfl

@[simp] theorem State.satF_cnt (s : State) (x : Fld) (n i j k : Nat) : (s.satF x n i j k).cnt = s.cnt := rfl

@[simp] theorem State.satF_cntNew (s : State) (x : Fld) (n i j k : Nat) : (s.satF x n i j k).cntNew = s.cntNew := rfl

@[simp] theorem State.satF_snap (s : State) (x : Fld) (n i j k : Nat) : (s.satF x n i j k).snap = s.snap := rfl

@[simp] theorem State.satF_hwSet (s : State) (x : Fld) (n i j k : Nat) : (s.satF x n i j k).hwSet = s.hwSet := rfl

@[simp] theorem State.satF_swClr (s : State) (x : Fld) (n i j k : Nat) : (s.satF x n i j k).swClr = s.swClr := rfl

@[simp] theorem State.satF_mem (s : State) (x : Fld) (n i j k : Nat) : (s.satF x n i j k).mem = s.mem := rfl

@[simp] theorem State.satF_slot0 (s : State) (x : Fld) (n i j k : Nat) : (s.satF x n i j k).slot0 = s.slot0 := rfl

@[simp] theorem State.satF_slot1 (s : State) (x : Fld) (n i j k : Nat) : (s.satF x n i j k).slot1 = s.slot1 := rfl

@[simp] theorem State.satF_gen (s : State) (x : Fld) (n i j k : Nat) : (s.satF x n i j k).gen = s.gen := rfl

@[simp] theorem State.satF_tab (s : State) (x : Fld) (n i j k : Nat) : (s.satF x n i j k).tab = s.tab := rfl

@[simp] theorem State.satF_fwd (s : State) (x : Fld) (n i j k : Nat) : (s.satF x n i j k).fwd = s.fwd := rfl

@[simp] theorem State.satF_tm (s : State) (x : Fld) (n i j k : Nat) : (s.satF x n i j k).tm = s.tm := rfl

@[simp] theorem State.satF_mac (s : State) (x : Fld) (n i j k : Nat) : (s.satF x n i j k).mac = s.mac := rfl

@[simp] theorem State.satF_time (s : State) (x : Fld) (n i j k : Nat) : (s.satF x n i j k).time = s.time := rfl

@[simp] theorem State.satF_stk (s : State) (x : Fld) (n i j k : Nat) : (s.satF x n i j k).stk = s.stk := rfl

@[simp] theorem State.satF_jor (s : State) (x : Fld) (n i j k : Nat) : (s.satF x n i j k).jor = s.jor := rfl

@[simp] theorem State.satF_flt (s : State) (x : Fld) (n i j k : Nat) : (s.satF x n i j k).flt = s.flt := rfl

@[simp] theorem State.satF_pmc (s : State) (x : Fld) (n i j k : Nat) : (s.satF x n i j k).pmc = s.pmc := rfl

@[simp] theorem State.satF_dom (s : State) (x : Fld) (n i j k : Nat) : (s.satF x n i j k).dom = s.dom := rfl

@[simp] theorem State.satF_lanes (s : State) (x : Fld) (n i j k : Nat) : (s.satF x n i j k).lanes = s.lanes := rfl

@[simp] theorem State.satF_trk (s : State) (x : Fld) (n i j k : Nat) : (s.satF x n i j k).trk = s.trk := rfl

@[simp] theorem State.satF_clk (s : State) (x : Fld) (n i j k : Nat) : (s.satF x n i j k).clk = s.clk := rfl

@[simp] theorem State.satF_hob (s : State) (x : Fld) (n i j k : Nat) : (s.satF x n i j k).hob = s.hob := rfl

@[simp] theorem State.satF_pwr (s : State) (x : Fld) (n i j k : Nat) : (s.satF x n i j k).pwr = s.pwr := rfl

@[simp] theorem State.satF_tlm (s : State) (x : Fld) (n i j k : Nat) : (s.satF x n i j k).tlm = s.tlm := rfl

@[simp] theorem State.satF_uc (s : State) (x : Fld) (n i j k : Nat) : (s.satF x n i j k).uc = s.uc := rfl

@[simp] theorem State.satF_boot (s : State) (x : Fld) (n i j k : Nat) : (s.satF x n i j k).boot = s.boot := rfl

@[simp] theorem State.satF_jtag (s : State) (x : Fld) (n i j k : Nat) : (s.satF x n i j k).jtag = s.jtag := rfl

@[simp] theorem State.count_pending (s : State) (c : Cnt) (n i j : Nat) : (s.count c n i j).pending = s.pending := rfl

@[simp] theorem State.count_cc (s : State) (c : Cnt) (n i j : Nat) : (s.count c n i j).cc = s.cc := rfl

@[simp] theorem State.count_nt (s : State) (c : Cnt) (n i j : Nat) : (s.count c n i j).nt = s.nt := rfl

@[simp] theorem State.count_free (s : State) (c : Cnt) (n i j : Nat) : (s.count c n i j).free = s.free := rfl

@[simp] theorem State.count_csr (s : State) (c : Cnt) (n i j : Nat) : (s.count c n i j).csr = s.csr := rfl

@[simp] theorem State.count_snap (s : State) (c : Cnt) (n i j : Nat) : (s.count c n i j).snap = s.snap := rfl

@[simp] theorem State.count_hwSet (s : State) (c : Cnt) (n i j : Nat) : (s.count c n i j).hwSet = s.hwSet := rfl

@[simp] theorem State.count_swClr (s : State) (c : Cnt) (n i j : Nat) : (s.count c n i j).swClr = s.swClr := rfl

@[simp] theorem State.count_mem (s : State) (c : Cnt) (n i j : Nat) : (s.count c n i j).mem = s.mem := rfl

@[simp] theorem State.count_slot0 (s : State) (c : Cnt) (n i j : Nat) : (s.count c n i j).slot0 = s.slot0 := rfl

@[simp] theorem State.count_slot1 (s : State) (c : Cnt) (n i j : Nat) : (s.count c n i j).slot1 = s.slot1 := rfl

@[simp] theorem State.count_gen (s : State) (c : Cnt) (n i j : Nat) : (s.count c n i j).gen = s.gen := rfl

@[simp] theorem State.count_tab (s : State) (c : Cnt) (n i j : Nat) : (s.count c n i j).tab = s.tab := rfl

@[simp] theorem State.count_fwd (s : State) (c : Cnt) (n i j : Nat) : (s.count c n i j).fwd = s.fwd := rfl

@[simp] theorem State.count_tm (s : State) (c : Cnt) (n i j : Nat) : (s.count c n i j).tm = s.tm := rfl

@[simp] theorem State.count_mac (s : State) (c : Cnt) (n i j : Nat) : (s.count c n i j).mac = s.mac := rfl

@[simp] theorem State.count_time (s : State) (c : Cnt) (n i j : Nat) : (s.count c n i j).time = s.time := rfl

@[simp] theorem State.count_stk (s : State) (c : Cnt) (n i j : Nat) : (s.count c n i j).stk = s.stk := rfl

@[simp] theorem State.count_jor (s : State) (c : Cnt) (n i j : Nat) : (s.count c n i j).jor = s.jor := rfl

@[simp] theorem State.count_flt (s : State) (c : Cnt) (n i j : Nat) : (s.count c n i j).flt = s.flt := rfl

@[simp] theorem State.count_pmc (s : State) (c : Cnt) (n i j : Nat) : (s.count c n i j).pmc = s.pmc := rfl

@[simp] theorem State.count_dom (s : State) (c : Cnt) (n i j : Nat) : (s.count c n i j).dom = s.dom := rfl

@[simp] theorem State.count_lanes (s : State) (c : Cnt) (n i j : Nat) : (s.count c n i j).lanes = s.lanes := rfl

@[simp] theorem State.count_trk (s : State) (c : Cnt) (n i j : Nat) : (s.count c n i j).trk = s.trk := rfl

@[simp] theorem State.count_clk (s : State) (c : Cnt) (n i j : Nat) : (s.count c n i j).clk = s.clk := rfl

@[simp] theorem State.count_hob (s : State) (c : Cnt) (n i j : Nat) : (s.count c n i j).hob = s.hob := rfl

@[simp] theorem State.count_pwr (s : State) (c : Cnt) (n i j : Nat) : (s.count c n i j).pwr = s.pwr := rfl

@[simp] theorem State.count_tlm (s : State) (c : Cnt) (n i j : Nat) : (s.count c n i j).tlm = s.tlm := rfl

@[simp] theorem State.count_uc (s : State) (c : Cnt) (n i j : Nat) : (s.count c n i j).uc = s.uc := rfl

@[simp] theorem State.count_boot (s : State) (c : Cnt) (n i j : Nat) : (s.count c n i j).boot = s.boot := rfl

@[simp] theorem State.count_jtag (s : State) (c : Cnt) (n i j : Nat) : (s.count c n i j).jtag = s.jtag := rfl

@[simp] theorem State.countF_pending (s : State) (x : Fld) (i : Nat) : (s.countF x i).pending = s.pending := rfl

@[simp] theorem State.countF_cc (s : State) (x : Fld) (i : Nat) : (s.countF x i).cc = s.cc := rfl

@[simp] theorem State.countF_nt (s : State) (x : Fld) (i : Nat) : (s.countF x i).nt = s.nt := rfl

@[simp] theorem State.countF_free (s : State) (x : Fld) (i : Nat) : (s.countF x i).free = s.free := rfl

@[simp] theorem State.countF_cnt (s : State) (x : Fld) (i : Nat) : (s.countF x i).cnt = s.cnt := rfl

@[simp] theorem State.countF_snap (s : State) (x : Fld) (i : Nat) : (s.countF x i).snap = s.snap := rfl

@[simp] theorem State.countF_hwSet (s : State) (x : Fld) (i : Nat) : (s.countF x i).hwSet = s.hwSet := rfl

@[simp] theorem State.countF_swClr (s : State) (x : Fld) (i : Nat) : (s.countF x i).swClr = s.swClr := rfl

@[simp] theorem State.countF_mem (s : State) (x : Fld) (i : Nat) : (s.countF x i).mem = s.mem := rfl

@[simp] theorem State.countF_slot0 (s : State) (x : Fld) (i : Nat) : (s.countF x i).slot0 = s.slot0 := rfl

@[simp] theorem State.countF_slot1 (s : State) (x : Fld) (i : Nat) : (s.countF x i).slot1 = s.slot1 := rfl

@[simp] theorem State.countF_gen (s : State) (x : Fld) (i : Nat) : (s.countF x i).gen = s.gen := rfl

@[simp] theorem State.countF_tab (s : State) (x : Fld) (i : Nat) : (s.countF x i).tab = s.tab := rfl

@[simp] theorem State.countF_fwd (s : State) (x : Fld) (i : Nat) : (s.countF x i).fwd = s.fwd := rfl

@[simp] theorem State.countF_tm (s : State) (x : Fld) (i : Nat) : (s.countF x i).tm = s.tm := rfl

@[simp] theorem State.countF_mac (s : State) (x : Fld) (i : Nat) : (s.countF x i).mac = s.mac := rfl

@[simp] theorem State.countF_time (s : State) (x : Fld) (i : Nat) : (s.countF x i).time = s.time := rfl

@[simp] theorem State.countF_stk (s : State) (x : Fld) (i : Nat) : (s.countF x i).stk = s.stk := rfl

@[simp] theorem State.countF_jor (s : State) (x : Fld) (i : Nat) : (s.countF x i).jor = s.jor := rfl

@[simp] theorem State.countF_flt (s : State) (x : Fld) (i : Nat) : (s.countF x i).flt = s.flt := rfl

@[simp] theorem State.countF_pmc (s : State) (x : Fld) (i : Nat) : (s.countF x i).pmc = s.pmc := rfl

@[simp] theorem State.countF_dom (s : State) (x : Fld) (i : Nat) : (s.countF x i).dom = s.dom := rfl

@[simp] theorem State.countF_lanes (s : State) (x : Fld) (i : Nat) : (s.countF x i).lanes = s.lanes := rfl

@[simp] theorem State.countF_trk (s : State) (x : Fld) (i : Nat) : (s.countF x i).trk = s.trk := rfl

@[simp] theorem State.countF_clk (s : State) (x : Fld) (i : Nat) : (s.countF x i).clk = s.clk := rfl

@[simp] theorem State.countF_hob (s : State) (x : Fld) (i : Nat) : (s.countF x i).hob = s.hob := rfl

@[simp] theorem State.countF_pwr (s : State) (x : Fld) (i : Nat) : (s.countF x i).pwr = s.pwr := rfl

@[simp] theorem State.countF_tlm (s : State) (x : Fld) (i : Nat) : (s.countF x i).tlm = s.tlm := rfl

@[simp] theorem State.countF_uc (s : State) (x : Fld) (i : Nat) : (s.countF x i).uc = s.uc := rfl

@[simp] theorem State.countF_boot (s : State) (x : Fld) (i : Nat) : (s.countF x i).boot = s.boot := rfl

@[simp] theorem State.countF_jtag (s : State) (x : Fld) (i : Nat) : (s.countF x i).jtag = s.jtag := rfl

@[simp] theorem State.clrF_pending (s : State) (x : Fld) (i : Nat) : (s.clrF x i).pending = s.pending := rfl

@[simp] theorem State.clrF_cc (s : State) (x : Fld) (i : Nat) : (s.clrF x i).cc = s.cc := rfl

@[simp] theorem State.clrF_nt (s : State) (x : Fld) (i : Nat) : (s.clrF x i).nt = s.nt := rfl

@[simp] theorem State.clrF_free (s : State) (x : Fld) (i : Nat) : (s.clrF x i).free = s.free := rfl

@[simp] theorem State.clrF_cnt (s : State) (x : Fld) (i : Nat) : (s.clrF x i).cnt = s.cnt := rfl

@[simp] theorem State.clrF_cntNew (s : State) (x : Fld) (i : Nat) : (s.clrF x i).cntNew = s.cntNew := rfl

@[simp] theorem State.clrF_snap (s : State) (x : Fld) (i : Nat) : (s.clrF x i).snap = s.snap := rfl

@[simp] theorem State.clrF_hwSet (s : State) (x : Fld) (i : Nat) : (s.clrF x i).hwSet = s.hwSet := rfl

@[simp] theorem State.clrF_swClr (s : State) (x : Fld) (i : Nat) : (s.clrF x i).swClr = s.swClr := rfl

@[simp] theorem State.clrF_mem (s : State) (x : Fld) (i : Nat) : (s.clrF x i).mem = s.mem := rfl

@[simp] theorem State.clrF_slot0 (s : State) (x : Fld) (i : Nat) : (s.clrF x i).slot0 = s.slot0 := rfl

@[simp] theorem State.clrF_slot1 (s : State) (x : Fld) (i : Nat) : (s.clrF x i).slot1 = s.slot1 := rfl

@[simp] theorem State.clrF_gen (s : State) (x : Fld) (i : Nat) : (s.clrF x i).gen = s.gen := rfl

@[simp] theorem State.clrF_tab (s : State) (x : Fld) (i : Nat) : (s.clrF x i).tab = s.tab := rfl

@[simp] theorem State.clrF_fwd (s : State) (x : Fld) (i : Nat) : (s.clrF x i).fwd = s.fwd := rfl

@[simp] theorem State.clrF_tm (s : State) (x : Fld) (i : Nat) : (s.clrF x i).tm = s.tm := rfl

@[simp] theorem State.clrF_mac (s : State) (x : Fld) (i : Nat) : (s.clrF x i).mac = s.mac := rfl

@[simp] theorem State.clrF_time (s : State) (x : Fld) (i : Nat) : (s.clrF x i).time = s.time := rfl

@[simp] theorem State.clrF_stk (s : State) (x : Fld) (i : Nat) : (s.clrF x i).stk = s.stk := rfl

@[simp] theorem State.clrF_jor (s : State) (x : Fld) (i : Nat) : (s.clrF x i).jor = s.jor := rfl

@[simp] theorem State.clrF_flt (s : State) (x : Fld) (i : Nat) : (s.clrF x i).flt = s.flt := rfl

@[simp] theorem State.clrF_pmc (s : State) (x : Fld) (i : Nat) : (s.clrF x i).pmc = s.pmc := rfl

@[simp] theorem State.clrF_dom (s : State) (x : Fld) (i : Nat) : (s.clrF x i).dom = s.dom := rfl

@[simp] theorem State.clrF_lanes (s : State) (x : Fld) (i : Nat) : (s.clrF x i).lanes = s.lanes := rfl

@[simp] theorem State.clrF_trk (s : State) (x : Fld) (i : Nat) : (s.clrF x i).trk = s.trk := rfl

@[simp] theorem State.clrF_clk (s : State) (x : Fld) (i : Nat) : (s.clrF x i).clk = s.clk := rfl

@[simp] theorem State.clrF_hob (s : State) (x : Fld) (i : Nat) : (s.clrF x i).hob = s.hob := rfl

@[simp] theorem State.clrF_pwr (s : State) (x : Fld) (i : Nat) : (s.clrF x i).pwr = s.pwr := rfl

@[simp] theorem State.clrF_tlm (s : State) (x : Fld) (i : Nat) : (s.clrF x i).tlm = s.tlm := rfl

@[simp] theorem State.clrF_uc (s : State) (x : Fld) (i : Nat) : (s.clrF x i).uc = s.uc := rfl

@[simp] theorem State.clrF_boot (s : State) (x : Fld) (i : Nat) : (s.clrF x i).boot = s.boot := rfl

@[simp] theorem State.clrF_jtag (s : State) (x : Fld) (i : Nat) : (s.clrF x i).jtag = s.jtag := rfl

@[simp] theorem State.cclr_pending (s : State) (c : Cnt) (i j : Nat) : (s.cclr c i j).pending = s.pending := rfl

@[simp] theorem State.cclr_cc (s : State) (c : Cnt) (i j : Nat) : (s.cclr c i j).cc = s.cc := rfl

@[simp] theorem State.cclr_nt (s : State) (c : Cnt) (i j : Nat) : (s.cclr c i j).nt = s.nt := rfl

@[simp] theorem State.cclr_free (s : State) (c : Cnt) (i j : Nat) : (s.cclr c i j).free = s.free := rfl

@[simp] theorem State.cclr_csr (s : State) (c : Cnt) (i j : Nat) : (s.cclr c i j).csr = s.csr := rfl

@[simp] theorem State.cclr_cntNew (s : State) (c : Cnt) (i j : Nat) : (s.cclr c i j).cntNew = s.cntNew := rfl

@[simp] theorem State.cclr_snap (s : State) (c : Cnt) (i j : Nat) : (s.cclr c i j).snap = s.snap := rfl

@[simp] theorem State.cclr_hwSet (s : State) (c : Cnt) (i j : Nat) : (s.cclr c i j).hwSet = s.hwSet := rfl

@[simp] theorem State.cclr_swClr (s : State) (c : Cnt) (i j : Nat) : (s.cclr c i j).swClr = s.swClr := rfl

@[simp] theorem State.cclr_mem (s : State) (c : Cnt) (i j : Nat) : (s.cclr c i j).mem = s.mem := rfl

@[simp] theorem State.cclr_slot0 (s : State) (c : Cnt) (i j : Nat) : (s.cclr c i j).slot0 = s.slot0 := rfl

@[simp] theorem State.cclr_slot1 (s : State) (c : Cnt) (i j : Nat) : (s.cclr c i j).slot1 = s.slot1 := rfl

@[simp] theorem State.cclr_gen (s : State) (c : Cnt) (i j : Nat) : (s.cclr c i j).gen = s.gen := rfl

@[simp] theorem State.cclr_tab (s : State) (c : Cnt) (i j : Nat) : (s.cclr c i j).tab = s.tab := rfl

@[simp] theorem State.cclr_fwd (s : State) (c : Cnt) (i j : Nat) : (s.cclr c i j).fwd = s.fwd := rfl

@[simp] theorem State.cclr_tm (s : State) (c : Cnt) (i j : Nat) : (s.cclr c i j).tm = s.tm := rfl

@[simp] theorem State.cclr_mac (s : State) (c : Cnt) (i j : Nat) : (s.cclr c i j).mac = s.mac := rfl

@[simp] theorem State.cclr_time (s : State) (c : Cnt) (i j : Nat) : (s.cclr c i j).time = s.time := rfl

@[simp] theorem State.cclr_stk (s : State) (c : Cnt) (i j : Nat) : (s.cclr c i j).stk = s.stk := rfl

@[simp] theorem State.cclr_jor (s : State) (c : Cnt) (i j : Nat) : (s.cclr c i j).jor = s.jor := rfl

@[simp] theorem State.cclr_flt (s : State) (c : Cnt) (i j : Nat) : (s.cclr c i j).flt = s.flt := rfl

@[simp] theorem State.cclr_pmc (s : State) (c : Cnt) (i j : Nat) : (s.cclr c i j).pmc = s.pmc := rfl

@[simp] theorem State.cclr_dom (s : State) (c : Cnt) (i j : Nat) : (s.cclr c i j).dom = s.dom := rfl

@[simp] theorem State.cclr_lanes (s : State) (c : Cnt) (i j : Nat) : (s.cclr c i j).lanes = s.lanes := rfl

@[simp] theorem State.cclr_trk (s : State) (c : Cnt) (i j : Nat) : (s.cclr c i j).trk = s.trk := rfl

@[simp] theorem State.cclr_clk (s : State) (c : Cnt) (i j : Nat) : (s.cclr c i j).clk = s.clk := rfl

@[simp] theorem State.cclr_hob (s : State) (c : Cnt) (i j : Nat) : (s.cclr c i j).hob = s.hob := rfl

@[simp] theorem State.cclr_pwr (s : State) (c : Cnt) (i j : Nat) : (s.cclr c i j).pwr = s.pwr := rfl

@[simp] theorem State.cclr_tlm (s : State) (c : Cnt) (i j : Nat) : (s.cclr c i j).tlm = s.tlm := rfl

@[simp] theorem State.cclr_uc (s : State) (c : Cnt) (i j : Nat) : (s.cclr c i j).uc = s.uc := rfl

@[simp] theorem State.cclr_boot (s : State) (c : Cnt) (i j : Nat) : (s.cclr c i j).boot = s.boot := rfl

@[simp] theorem State.cclr_jtag (s : State) (c : Cnt) (i j : Nat) : (s.cclr c i j).jtag = s.jtag := rfl

@[simp] theorem State.orBit_pending (s : State) (a b : Nat) : (s.orBit a b).pending = s.pending := rfl

@[simp] theorem State.orBit_cc (s : State) (a b : Nat) : (s.orBit a b).cc = s.cc := rfl

@[simp] theorem State.orBit_nt (s : State) (a b : Nat) : (s.orBit a b).nt = s.nt := rfl

@[simp] theorem State.orBit_free (s : State) (a b : Nat) : (s.orBit a b).free = s.free := rfl

@[simp] theorem State.orBit_cnt (s : State) (a b : Nat) : (s.orBit a b).cnt = s.cnt := rfl

@[simp] theorem State.orBit_cntNew (s : State) (a b : Nat) : (s.orBit a b).cntNew = s.cntNew := rfl

@[simp] theorem State.orBit_snap (s : State) (a b : Nat) : (s.orBit a b).snap = s.snap := rfl

@[simp] theorem State.orBit_hwSet (s : State) (a b : Nat) : (s.orBit a b).hwSet = s.hwSet := rfl

@[simp] theorem State.orBit_swClr (s : State) (a b : Nat) : (s.orBit a b).swClr = s.swClr := rfl

@[simp] theorem State.orBit_mem (s : State) (a b : Nat) : (s.orBit a b).mem = s.mem := rfl

@[simp] theorem State.orBit_slot0 (s : State) (a b : Nat) : (s.orBit a b).slot0 = s.slot0 := rfl

@[simp] theorem State.orBit_slot1 (s : State) (a b : Nat) : (s.orBit a b).slot1 = s.slot1 := rfl

@[simp] theorem State.orBit_gen (s : State) (a b : Nat) : (s.orBit a b).gen = s.gen := rfl

@[simp] theorem State.orBit_tab (s : State) (a b : Nat) : (s.orBit a b).tab = s.tab := rfl

@[simp] theorem State.orBit_fwd (s : State) (a b : Nat) : (s.orBit a b).fwd = s.fwd := rfl

@[simp] theorem State.orBit_tm (s : State) (a b : Nat) : (s.orBit a b).tm = s.tm := rfl

@[simp] theorem State.orBit_mac (s : State) (a b : Nat) : (s.orBit a b).mac = s.mac := rfl

@[simp] theorem State.orBit_time (s : State) (a b : Nat) : (s.orBit a b).time = s.time := rfl

@[simp] theorem State.orBit_stk (s : State) (a b : Nat) : (s.orBit a b).stk = s.stk := rfl

@[simp] theorem State.orBit_jor (s : State) (a b : Nat) : (s.orBit a b).jor = s.jor := rfl

@[simp] theorem State.orBit_flt (s : State) (a b : Nat) : (s.orBit a b).flt = s.flt := rfl

@[simp] theorem State.orBit_pmc (s : State) (a b : Nat) : (s.orBit a b).pmc = s.pmc := rfl

@[simp] theorem State.orBit_dom (s : State) (a b : Nat) : (s.orBit a b).dom = s.dom := rfl

@[simp] theorem State.orBit_lanes (s : State) (a b : Nat) : (s.orBit a b).lanes = s.lanes := rfl

@[simp] theorem State.orBit_trk (s : State) (a b : Nat) : (s.orBit a b).trk = s.trk := rfl

@[simp] theorem State.orBit_clk (s : State) (a b : Nat) : (s.orBit a b).clk = s.clk := rfl

@[simp] theorem State.orBit_hob (s : State) (a b : Nat) : (s.orBit a b).hob = s.hob := rfl

@[simp] theorem State.orBit_pwr (s : State) (a b : Nat) : (s.orBit a b).pwr = s.pwr := rfl

@[simp] theorem State.orBit_tlm (s : State) (a b : Nat) : (s.orBit a b).tlm = s.tlm := rfl

@[simp] theorem State.orBit_uc (s : State) (a b : Nat) : (s.orBit a b).uc = s.uc := rfl

@[simp] theorem State.orBit_boot (s : State) (a b : Nat) : (s.orBit a b).boot = s.boot := rfl

@[simp] theorem State.orBit_jtag (s : State) (a b : Nat) : (s.orBit a b).jtag = s.jtag := rfl

@[simp] theorem State.clrBit_pending (s : State) (a b : Nat) : (s.clrBit a b).pending = s.pending := rfl

@[simp] theorem State.clrBit_cc (s : State) (a b : Nat) : (s.clrBit a b).cc = s.cc := rfl

@[simp] theorem State.clrBit_nt (s : State) (a b : Nat) : (s.clrBit a b).nt = s.nt := rfl

@[simp] theorem State.clrBit_free (s : State) (a b : Nat) : (s.clrBit a b).free = s.free := rfl

@[simp] theorem State.clrBit_cnt (s : State) (a b : Nat) : (s.clrBit a b).cnt = s.cnt := rfl

@[simp] theorem State.clrBit_cntNew (s : State) (a b : Nat) : (s.clrBit a b).cntNew = s.cntNew := rfl

@[simp] theorem State.clrBit_snap (s : State) (a b : Nat) : (s.clrBit a b).snap = s.snap := rfl

@[simp] theorem State.clrBit_hwSet (s : State) (a b : Nat) : (s.clrBit a b).hwSet = s.hwSet := rfl

@[simp] theorem State.clrBit_swClr (s : State) (a b : Nat) : (s.clrBit a b).swClr = s.swClr := rfl

@[simp] theorem State.clrBit_mem (s : State) (a b : Nat) : (s.clrBit a b).mem = s.mem := rfl

@[simp] theorem State.clrBit_slot0 (s : State) (a b : Nat) : (s.clrBit a b).slot0 = s.slot0 := rfl

@[simp] theorem State.clrBit_slot1 (s : State) (a b : Nat) : (s.clrBit a b).slot1 = s.slot1 := rfl

@[simp] theorem State.clrBit_gen (s : State) (a b : Nat) : (s.clrBit a b).gen = s.gen := rfl

@[simp] theorem State.clrBit_tab (s : State) (a b : Nat) : (s.clrBit a b).tab = s.tab := rfl

@[simp] theorem State.clrBit_fwd (s : State) (a b : Nat) : (s.clrBit a b).fwd = s.fwd := rfl

@[simp] theorem State.clrBit_tm (s : State) (a b : Nat) : (s.clrBit a b).tm = s.tm := rfl

@[simp] theorem State.clrBit_mac (s : State) (a b : Nat) : (s.clrBit a b).mac = s.mac := rfl

@[simp] theorem State.clrBit_time (s : State) (a b : Nat) : (s.clrBit a b).time = s.time := rfl

@[simp] theorem State.clrBit_stk (s : State) (a b : Nat) : (s.clrBit a b).stk = s.stk := rfl

@[simp] theorem State.clrBit_jor (s : State) (a b : Nat) : (s.clrBit a b).jor = s.jor := rfl

@[simp] theorem State.clrBit_flt (s : State) (a b : Nat) : (s.clrBit a b).flt = s.flt := rfl

@[simp] theorem State.clrBit_pmc (s : State) (a b : Nat) : (s.clrBit a b).pmc = s.pmc := rfl

@[simp] theorem State.clrBit_dom (s : State) (a b : Nat) : (s.clrBit a b).dom = s.dom := rfl

@[simp] theorem State.clrBit_lanes (s : State) (a b : Nat) : (s.clrBit a b).lanes = s.lanes := rfl

@[simp] theorem State.clrBit_trk (s : State) (a b : Nat) : (s.clrBit a b).trk = s.trk := rfl

@[simp] theorem State.clrBit_clk (s : State) (a b : Nat) : (s.clrBit a b).clk = s.clk := rfl

@[simp] theorem State.clrBit_hob (s : State) (a b : Nat) : (s.clrBit a b).hob = s.hob := rfl

@[simp] theorem State.clrBit_pwr (s : State) (a b : Nat) : (s.clrBit a b).pwr = s.pwr := rfl

@[simp] theorem State.clrBit_tlm (s : State) (a b : Nat) : (s.clrBit a b).tlm = s.tlm := rfl

@[simp] theorem State.clrBit_uc (s : State) (a b : Nat) : (s.clrBit a b).uc = s.uc := rfl

@[simp] theorem State.clrBit_boot (s : State) (a b : Nat) : (s.clrBit a b).boot = s.boot := rfl

@[simp] theorem State.clrBit_jtag (s : State) (a b : Nat) : (s.clrBit a b).jtag = s.jtag := rfl

@[simp] theorem State.raise_pending (s : State) (c l e info : Nat) (inj : Bool) : (s.raise c l e info inj).pending = s.pending := rfl

@[simp] theorem State.raise_cc (s : State) (c l e info : Nat) (inj : Bool) : (s.raise c l e info inj).cc = s.cc := rfl

@[simp] theorem State.raise_nt (s : State) (c l e info : Nat) (inj : Bool) : (s.raise c l e info inj).nt = s.nt := rfl

@[simp] theorem State.raise_free (s : State) (c l e info : Nat) (inj : Bool) : (s.raise c l e info inj).free = s.free := rfl

@[simp] theorem State.raise_csr (s : State) (c l e info : Nat) (inj : Bool) : (s.raise c l e info inj).csr = s.csr := rfl

@[simp] theorem State.raise_cnt (s : State) (c l e info : Nat) (inj : Bool) : (s.raise c l e info inj).cnt = s.cnt := rfl

@[simp] theorem State.raise_cntNew (s : State) (c l e info : Nat) (inj : Bool) : (s.raise c l e info inj).cntNew = s.cntNew := rfl

@[simp] theorem State.raise_snap (s : State) (c l e info : Nat) (inj : Bool) : (s.raise c l e info inj).snap = s.snap := rfl

@[simp] theorem State.raise_hwSet (s : State) (c l e info : Nat) (inj : Bool) : (s.raise c l e info inj).hwSet = s.hwSet := rfl

@[simp] theorem State.raise_swClr (s : State) (c l e info : Nat) (inj : Bool) : (s.raise c l e info inj).swClr = s.swClr := rfl

@[simp] theorem State.raise_mem (s : State) (c l e info : Nat) (inj : Bool) : (s.raise c l e info inj).mem = s.mem := rfl

@[simp] theorem State.raise_slot0 (s : State) (c l e info : Nat) (inj : Bool) : (s.raise c l e info inj).slot0 = s.slot0 := rfl

@[simp] theorem State.raise_slot1 (s : State) (c l e info : Nat) (inj : Bool) : (s.raise c l e info inj).slot1 = s.slot1 := rfl

@[simp] theorem State.raise_gen (s : State) (c l e info : Nat) (inj : Bool) : (s.raise c l e info inj).gen = s.gen := rfl

@[simp] theorem State.raise_tab (s : State) (c l e info : Nat) (inj : Bool) : (s.raise c l e info inj).tab = s.tab := rfl

@[simp] theorem State.raise_fwd (s : State) (c l e info : Nat) (inj : Bool) : (s.raise c l e info inj).fwd = s.fwd := rfl

@[simp] theorem State.raise_tm (s : State) (c l e info : Nat) (inj : Bool) : (s.raise c l e info inj).tm = s.tm := rfl

@[simp] theorem State.raise_mac (s : State) (c l e info : Nat) (inj : Bool) : (s.raise c l e info inj).mac = s.mac := rfl

@[simp] theorem State.raise_time (s : State) (c l e info : Nat) (inj : Bool) : (s.raise c l e info inj).time = s.time := rfl

@[simp] theorem State.raise_stk (s : State) (c l e info : Nat) (inj : Bool) : (s.raise c l e info inj).stk = s.stk := rfl

@[simp] theorem State.raise_jor (s : State) (c l e info : Nat) (inj : Bool) : (s.raise c l e info inj).jor = s.jor := rfl

@[simp] theorem State.raise_pmc (s : State) (c l e info : Nat) (inj : Bool) : (s.raise c l e info inj).pmc = s.pmc := rfl

@[simp] theorem State.raise_dom (s : State) (c l e info : Nat) (inj : Bool) : (s.raise c l e info inj).dom = s.dom := rfl

@[simp] theorem State.raise_lanes (s : State) (c l e info : Nat) (inj : Bool) : (s.raise c l e info inj).lanes = s.lanes := rfl

@[simp] theorem State.raise_trk (s : State) (c l e info : Nat) (inj : Bool) : (s.raise c l e info inj).trk = s.trk := rfl

@[simp] theorem State.raise_clk (s : State) (c l e info : Nat) (inj : Bool) : (s.raise c l e info inj).clk = s.clk := rfl

@[simp] theorem State.raise_hob (s : State) (c l e info : Nat) (inj : Bool) : (s.raise c l e info inj).hob = s.hob := rfl

@[simp] theorem State.raise_pwr (s : State) (c l e info : Nat) (inj : Bool) : (s.raise c l e info inj).pwr = s.pwr := rfl

@[simp] theorem State.raise_tlm (s : State) (c l e info : Nat) (inj : Bool) : (s.raise c l e info inj).tlm = s.tlm := rfl

@[simp] theorem State.raise_uc (s : State) (c l e info : Nat) (inj : Bool) : (s.raise c l e info inj).uc = s.uc := rfl

@[simp] theorem State.raise_boot (s : State) (c l e info : Nat) (inj : Bool) : (s.raise c l e info inj).boot = s.boot := rfl

@[simp] theorem State.raise_jtag (s : State) (c l e info : Nat) (inj : Bool) : (s.raise c l e info inj).jtag = s.jtag := rfl

@[simp] theorem State.setRing_pending (s : State) (j : Nat) (r : Ring) : (s.setRing j r).pending = s.pending := rfl

@[simp] theorem State.setRing_cc (s : State) (j : Nat) (r : Ring) : (s.setRing j r).cc = s.cc := rfl

@[simp] theorem State.setRing_nt (s : State) (j : Nat) (r : Ring) : (s.setRing j r).nt = s.nt := rfl

@[simp] theorem State.setRing_free (s : State) (j : Nat) (r : Ring) : (s.setRing j r).free = s.free := rfl

@[simp] theorem State.setRing_csr (s : State) (j : Nat) (r : Ring) : (s.setRing j r).csr = s.csr := rfl

@[simp] theorem State.setRing_cnt (s : State) (j : Nat) (r : Ring) : (s.setRing j r).cnt = s.cnt := rfl

@[simp] theorem State.setRing_cntNew (s : State) (j : Nat) (r : Ring) : (s.setRing j r).cntNew = s.cntNew := rfl

@[simp] theorem State.setRing_snap (s : State) (j : Nat) (r : Ring) : (s.setRing j r).snap = s.snap := rfl

@[simp] theorem State.setRing_hwSet (s : State) (j : Nat) (r : Ring) : (s.setRing j r).hwSet = s.hwSet := rfl

@[simp] theorem State.setRing_swClr (s : State) (j : Nat) (r : Ring) : (s.setRing j r).swClr = s.swClr := rfl

@[simp] theorem State.setRing_mem (s : State) (j : Nat) (r : Ring) : (s.setRing j r).mem = s.mem := rfl

@[simp] theorem State.setRing_slot0 (s : State) (j : Nat) (r : Ring) : (s.setRing j r).slot0 = s.slot0 := rfl

@[simp] theorem State.setRing_slot1 (s : State) (j : Nat) (r : Ring) : (s.setRing j r).slot1 = s.slot1 := rfl

@[simp] theorem State.setRing_gen (s : State) (j : Nat) (r : Ring) : (s.setRing j r).gen = s.gen := rfl

@[simp] theorem State.setRing_tab (s : State) (j : Nat) (r : Ring) : (s.setRing j r).tab = s.tab := rfl

@[simp] theorem State.setRing_fwd (s : State) (j : Nat) (r : Ring) : (s.setRing j r).fwd = s.fwd := rfl

@[simp] theorem State.setRing_tm (s : State) (j : Nat) (r : Ring) : (s.setRing j r).tm = s.tm := rfl

@[simp] theorem State.setRing_mac (s : State) (j : Nat) (r : Ring) : (s.setRing j r).mac = s.mac := rfl

@[simp] theorem State.setRing_time (s : State) (j : Nat) (r : Ring) : (s.setRing j r).time = s.time := rfl

@[simp] theorem State.setRing_stk (s : State) (j : Nat) (r : Ring) : (s.setRing j r).stk = s.stk := rfl

@[simp] theorem State.setRing_flt (s : State) (j : Nat) (r : Ring) : (s.setRing j r).flt = s.flt := rfl

@[simp] theorem State.setRing_pmc (s : State) (j : Nat) (r : Ring) : (s.setRing j r).pmc = s.pmc := rfl

@[simp] theorem State.setRing_dom (s : State) (j : Nat) (r : Ring) : (s.setRing j r).dom = s.dom := rfl

@[simp] theorem State.setRing_lanes (s : State) (j : Nat) (r : Ring) : (s.setRing j r).lanes = s.lanes := rfl

@[simp] theorem State.setRing_trk (s : State) (j : Nat) (r : Ring) : (s.setRing j r).trk = s.trk := rfl

@[simp] theorem State.setRing_clk (s : State) (j : Nat) (r : Ring) : (s.setRing j r).clk = s.clk := rfl

@[simp] theorem State.setRing_hob (s : State) (j : Nat) (r : Ring) : (s.setRing j r).hob = s.hob := rfl

@[simp] theorem State.setRing_pwr (s : State) (j : Nat) (r : Ring) : (s.setRing j r).pwr = s.pwr := rfl

@[simp] theorem State.setRing_tlm (s : State) (j : Nat) (r : Ring) : (s.setRing j r).tlm = s.tlm := rfl

@[simp] theorem State.setRing_uc (s : State) (j : Nat) (r : Ring) : (s.setRing j r).uc = s.uc := rfl

@[simp] theorem State.setRing_boot (s : State) (j : Nat) (r : Ring) : (s.setRing j r).boot = s.boot := rfl

@[simp] theorem State.setRing_jtag (s : State) (j : Nat) (r : Ring) : (s.setRing j r).jtag = s.jtag := rfl

@[simp] theorem State.ev_pending (s : State) (code slice : Nat) (cls : Option Nat) (n : Nat) : (s.ev code slice cls n).pending = s.pending := rfl

@[simp] theorem State.ev_cc (s : State) (code slice : Nat) (cls : Option Nat) (n : Nat) : (s.ev code slice cls n).cc = s.cc := rfl

@[simp] theorem State.ev_nt (s : State) (code slice : Nat) (cls : Option Nat) (n : Nat) : (s.ev code slice cls n).nt = s.nt := rfl

@[simp] theorem State.ev_free (s : State) (code slice : Nat) (cls : Option Nat) (n : Nat) : (s.ev code slice cls n).free = s.free := rfl

@[simp] theorem State.ev_csr (s : State) (code slice : Nat) (cls : Option Nat) (n : Nat) : (s.ev code slice cls n).csr = s.csr := rfl

@[simp] theorem State.ev_cnt (s : State) (code slice : Nat) (cls : Option Nat) (n : Nat) : (s.ev code slice cls n).cnt = s.cnt := rfl

@[simp] theorem State.ev_cntNew (s : State) (code slice : Nat) (cls : Option Nat) (n : Nat) : (s.ev code slice cls n).cntNew = s.cntNew := rfl

@[simp] theorem State.ev_snap (s : State) (code slice : Nat) (cls : Option Nat) (n : Nat) : (s.ev code slice cls n).snap = s.snap := rfl

@[simp] theorem State.ev_hwSet (s : State) (code slice : Nat) (cls : Option Nat) (n : Nat) : (s.ev code slice cls n).hwSet = s.hwSet := rfl

@[simp] theorem State.ev_swClr (s : State) (code slice : Nat) (cls : Option Nat) (n : Nat) : (s.ev code slice cls n).swClr = s.swClr := rfl

@[simp] theorem State.ev_mem (s : State) (code slice : Nat) (cls : Option Nat) (n : Nat) : (s.ev code slice cls n).mem = s.mem := rfl

@[simp] theorem State.ev_slot0 (s : State) (code slice : Nat) (cls : Option Nat) (n : Nat) : (s.ev code slice cls n).slot0 = s.slot0 := rfl

@[simp] theorem State.ev_slot1 (s : State) (code slice : Nat) (cls : Option Nat) (n : Nat) : (s.ev code slice cls n).slot1 = s.slot1 := rfl

@[simp] theorem State.ev_gen (s : State) (code slice : Nat) (cls : Option Nat) (n : Nat) : (s.ev code slice cls n).gen = s.gen := rfl

@[simp] theorem State.ev_tab (s : State) (code slice : Nat) (cls : Option Nat) (n : Nat) : (s.ev code slice cls n).tab = s.tab := rfl

@[simp] theorem State.ev_fwd (s : State) (code slice : Nat) (cls : Option Nat) (n : Nat) : (s.ev code slice cls n).fwd = s.fwd := rfl

@[simp] theorem State.ev_tm (s : State) (code slice : Nat) (cls : Option Nat) (n : Nat) : (s.ev code slice cls n).tm = s.tm := rfl

@[simp] theorem State.ev_mac (s : State) (code slice : Nat) (cls : Option Nat) (n : Nat) : (s.ev code slice cls n).mac = s.mac := rfl

@[simp] theorem State.ev_time (s : State) (code slice : Nat) (cls : Option Nat) (n : Nat) : (s.ev code slice cls n).time = s.time := rfl

@[simp] theorem State.ev_stk (s : State) (code slice : Nat) (cls : Option Nat) (n : Nat) : (s.ev code slice cls n).stk = s.stk := rfl

@[simp] theorem State.ev_jor (s : State) (code slice : Nat) (cls : Option Nat) (n : Nat) : (s.ev code slice cls n).jor = s.jor := rfl

@[simp] theorem State.ev_flt (s : State) (code slice : Nat) (cls : Option Nat) (n : Nat) : (s.ev code slice cls n).flt = s.flt := rfl

@[simp] theorem State.ev_dom (s : State) (code slice : Nat) (cls : Option Nat) (n : Nat) : (s.ev code slice cls n).dom = s.dom := rfl

@[simp] theorem State.ev_lanes (s : State) (code slice : Nat) (cls : Option Nat) (n : Nat) : (s.ev code slice cls n).lanes = s.lanes := rfl

@[simp] theorem State.ev_trk (s : State) (code slice : Nat) (cls : Option Nat) (n : Nat) : (s.ev code slice cls n).trk = s.trk := rfl

@[simp] theorem State.ev_clk (s : State) (code slice : Nat) (cls : Option Nat) (n : Nat) : (s.ev code slice cls n).clk = s.clk := rfl

@[simp] theorem State.ev_hob (s : State) (code slice : Nat) (cls : Option Nat) (n : Nat) : (s.ev code slice cls n).hob = s.hob := rfl

@[simp] theorem State.ev_pwr (s : State) (code slice : Nat) (cls : Option Nat) (n : Nat) : (s.ev code slice cls n).pwr = s.pwr := rfl

@[simp] theorem State.ev_tlm (s : State) (code slice : Nat) (cls : Option Nat) (n : Nat) : (s.ev code slice cls n).tlm = s.tlm := rfl

@[simp] theorem State.ev_uc (s : State) (code slice : Nat) (cls : Option Nat) (n : Nat) : (s.ev code slice cls n).uc = s.uc := rfl

@[simp] theorem State.ev_boot (s : State) (code slice : Nat) (cls : Option Nat) (n : Nat) : (s.ev code slice cls n).boot = s.boot := rfl

@[simp] theorem State.ev_jtag (s : State) (code slice : Nat) (cls : Option Nat) (n : Nat) : (s.ev code slice cls n).jtag = s.jtag := rfl

@[simp] theorem State.fresh_pending (s : State)  : (s.fresh).pending = s.pending := rfl

@[simp] theorem State.fresh_cc (s : State)  : (s.fresh).cc = s.cc := rfl

@[simp] theorem State.fresh_nt (s : State)  : (s.fresh).nt = s.nt := rfl

@[simp] theorem State.fresh_csr (s : State)  : (s.fresh).csr = s.csr := rfl

@[simp] theorem State.fresh_cnt (s : State)  : (s.fresh).cnt = s.cnt := rfl

@[simp] theorem State.fresh_cntNew (s : State)  : (s.fresh).cntNew = s.cntNew := rfl

@[simp] theorem State.fresh_snap (s : State)  : (s.fresh).snap = s.snap := rfl

@[simp] theorem State.fresh_hwSet (s : State)  : (s.fresh).hwSet = s.hwSet := rfl

@[simp] theorem State.fresh_swClr (s : State)  : (s.fresh).swClr = s.swClr := rfl

@[simp] theorem State.fresh_mem (s : State)  : (s.fresh).mem = s.mem := rfl

@[simp] theorem State.fresh_slot0 (s : State)  : (s.fresh).slot0 = s.slot0 := rfl

@[simp] theorem State.fresh_slot1 (s : State)  : (s.fresh).slot1 = s.slot1 := rfl

@[simp] theorem State.fresh_gen (s : State)  : (s.fresh).gen = s.gen := rfl

@[simp] theorem State.fresh_tab (s : State)  : (s.fresh).tab = s.tab := rfl

@[simp] theorem State.fresh_fwd (s : State)  : (s.fresh).fwd = s.fwd := rfl

@[simp] theorem State.fresh_tm (s : State)  : (s.fresh).tm = s.tm := rfl

@[simp] theorem State.fresh_mac (s : State)  : (s.fresh).mac = s.mac := rfl

@[simp] theorem State.fresh_time (s : State)  : (s.fresh).time = s.time := rfl

@[simp] theorem State.fresh_stk (s : State)  : (s.fresh).stk = s.stk := rfl

@[simp] theorem State.fresh_jor (s : State)  : (s.fresh).jor = s.jor := rfl

@[simp] theorem State.fresh_flt (s : State)  : (s.fresh).flt = s.flt := rfl

@[simp] theorem State.fresh_pmc (s : State)  : (s.fresh).pmc = s.pmc := rfl

@[simp] theorem State.fresh_dom (s : State)  : (s.fresh).dom = s.dom := rfl

@[simp] theorem State.fresh_lanes (s : State)  : (s.fresh).lanes = s.lanes := rfl

@[simp] theorem State.fresh_trk (s : State)  : (s.fresh).trk = s.trk := rfl

@[simp] theorem State.fresh_clk (s : State)  : (s.fresh).clk = s.clk := rfl

@[simp] theorem State.fresh_hob (s : State)  : (s.fresh).hob = s.hob := rfl

@[simp] theorem State.fresh_pwr (s : State)  : (s.fresh).pwr = s.pwr := rfl

@[simp] theorem State.fresh_tlm (s : State)  : (s.fresh).tlm = s.tlm := rfl

@[simp] theorem State.fresh_uc (s : State)  : (s.fresh).uc = s.uc := rfl

@[simp] theorem State.fresh_boot (s : State)  : (s.fresh).boot = s.boot := rfl

@[simp] theorem State.fresh_jtag (s : State)  : (s.fresh).jtag = s.jtag := rfl

@[simp] theorem State.infl_pending (s : State) (n : Nat) (d : Int) : (s.infl n d).pending = s.pending := rfl

@[simp] theorem State.infl_cc (s : State) (n : Nat) (d : Int) : (s.infl n d).cc = s.cc := rfl

@[simp] theorem State.infl_nt (s : State) (n : Nat) (d : Int) : (s.infl n d).nt = s.nt := rfl

@[simp] theorem State.infl_free (s : State) (n : Nat) (d : Int) : (s.infl n d).free = s.free := rfl

@[simp] theorem State.infl_cnt (s : State) (n : Nat) (d : Int) : (s.infl n d).cnt = s.cnt := rfl

@[simp] theorem State.infl_cntNew (s : State) (n : Nat) (d : Int) : (s.infl n d).cntNew = s.cntNew := rfl

@[simp] theorem State.infl_snap (s : State) (n : Nat) (d : Int) : (s.infl n d).snap = s.snap := rfl

@[simp] theorem State.infl_hwSet (s : State) (n : Nat) (d : Int) : (s.infl n d).hwSet = s.hwSet := rfl

@[simp] theorem State.infl_swClr (s : State) (n : Nat) (d : Int) : (s.infl n d).swClr = s.swClr := rfl

@[simp] theorem State.infl_mem (s : State) (n : Nat) (d : Int) : (s.infl n d).mem = s.mem := rfl

@[simp] theorem State.infl_slot0 (s : State) (n : Nat) (d : Int) : (s.infl n d).slot0 = s.slot0 := rfl

@[simp] theorem State.infl_slot1 (s : State) (n : Nat) (d : Int) : (s.infl n d).slot1 = s.slot1 := rfl

@[simp] theorem State.infl_gen (s : State) (n : Nat) (d : Int) : (s.infl n d).gen = s.gen := rfl

@[simp] theorem State.infl_tab (s : State) (n : Nat) (d : Int) : (s.infl n d).tab = s.tab := rfl

@[simp] theorem State.infl_fwd (s : State) (n : Nat) (d : Int) : (s.infl n d).fwd = s.fwd := rfl

@[simp] theorem State.infl_tm (s : State) (n : Nat) (d : Int) : (s.infl n d).tm = s.tm := rfl

@[simp] theorem State.infl_mac (s : State) (n : Nat) (d : Int) : (s.infl n d).mac = s.mac := rfl

@[simp] theorem State.infl_time (s : State) (n : Nat) (d : Int) : (s.infl n d).time = s.time := rfl

@[simp] theorem State.infl_stk (s : State) (n : Nat) (d : Int) : (s.infl n d).stk = s.stk := rfl

@[simp] theorem State.infl_jor (s : State) (n : Nat) (d : Int) : (s.infl n d).jor = s.jor := rfl

@[simp] theorem State.infl_flt (s : State) (n : Nat) (d : Int) : (s.infl n d).flt = s.flt := rfl

@[simp] theorem State.infl_pmc (s : State) (n : Nat) (d : Int) : (s.infl n d).pmc = s.pmc := rfl

@[simp] theorem State.infl_dom (s : State) (n : Nat) (d : Int) : (s.infl n d).dom = s.dom := rfl

@[simp] theorem State.infl_lanes (s : State) (n : Nat) (d : Int) : (s.infl n d).lanes = s.lanes := rfl

@[simp] theorem State.infl_trk (s : State) (n : Nat) (d : Int) : (s.infl n d).trk = s.trk := rfl

@[simp] theorem State.infl_clk (s : State) (n : Nat) (d : Int) : (s.infl n d).clk = s.clk := rfl

@[simp] theorem State.infl_hob (s : State) (n : Nat) (d : Int) : (s.infl n d).hob = s.hob := rfl

@[simp] theorem State.infl_pwr (s : State) (n : Nat) (d : Int) : (s.infl n d).pwr = s.pwr := rfl

@[simp] theorem State.infl_tlm (s : State) (n : Nat) (d : Int) : (s.infl n d).tlm = s.tlm := rfl

@[simp] theorem State.infl_uc (s : State) (n : Nat) (d : Int) : (s.infl n d).uc = s.uc := rfl

@[simp] theorem State.infl_boot (s : State) (n : Nat) (d : Int) : (s.infl n d).boot = s.boot := rfl

@[simp] theorem State.infl_jtag (s : State) (n : Nat) (d : Int) : (s.infl n d).jtag = s.jtag := rfl

@[simp] theorem State.setReg_pending (s : State) (c : Fin 4) (r : Fin 32) (v : BitVec 64) : (s.setReg c r v).pending = s.pending := by
  unfold State.setReg; split <;> rfl

@[simp] theorem State.setReg_cc (s : State) (c : Fin 4) (r : Fin 32) (v : BitVec 64) : (s.setReg c r v).cc = s.cc := by
  unfold State.setReg; split <;> rfl

@[simp] theorem State.setReg_nt (s : State) (c : Fin 4) (r : Fin 32) (v : BitVec 64) : (s.setReg c r v).nt = s.nt := by
  unfold State.setReg; split <;> rfl

@[simp] theorem State.setReg_free (s : State) (c : Fin 4) (r : Fin 32) (v : BitVec 64) : (s.setReg c r v).free = s.free := by
  unfold State.setReg; split <;> rfl

@[simp] theorem State.setReg_csr (s : State) (c : Fin 4) (r : Fin 32) (v : BitVec 64) : (s.setReg c r v).csr = s.csr := by
  unfold State.setReg; split <;> rfl

@[simp] theorem State.setReg_cnt (s : State) (c : Fin 4) (r : Fin 32) (v : BitVec 64) : (s.setReg c r v).cnt = s.cnt := by
  unfold State.setReg; split <;> rfl

@[simp] theorem State.setReg_cntNew (s : State) (c : Fin 4) (r : Fin 32) (v : BitVec 64) : (s.setReg c r v).cntNew = s.cntNew := by
  unfold State.setReg; split <;> rfl

@[simp] theorem State.setReg_snap (s : State) (c : Fin 4) (r : Fin 32) (v : BitVec 64) : (s.setReg c r v).snap = s.snap := by
  unfold State.setReg; split <;> rfl

@[simp] theorem State.setReg_hwSet (s : State) (c : Fin 4) (r : Fin 32) (v : BitVec 64) : (s.setReg c r v).hwSet = s.hwSet := by
  unfold State.setReg; split <;> rfl

@[simp] theorem State.setReg_swClr (s : State) (c : Fin 4) (r : Fin 32) (v : BitVec 64) : (s.setReg c r v).swClr = s.swClr := by
  unfold State.setReg; split <;> rfl

@[simp] theorem State.setReg_mem (s : State) (c : Fin 4) (r : Fin 32) (v : BitVec 64) : (s.setReg c r v).mem = s.mem := by
  unfold State.setReg; split <;> rfl

@[simp] theorem State.setReg_slot0 (s : State) (c : Fin 4) (r : Fin 32) (v : BitVec 64) : (s.setReg c r v).slot0 = s.slot0 := by
  unfold State.setReg; split <;> rfl

@[simp] theorem State.setReg_slot1 (s : State) (c : Fin 4) (r : Fin 32) (v : BitVec 64) : (s.setReg c r v).slot1 = s.slot1 := by
  unfold State.setReg; split <;> rfl

@[simp] theorem State.setReg_gen (s : State) (c : Fin 4) (r : Fin 32) (v : BitVec 64) : (s.setReg c r v).gen = s.gen := by
  unfold State.setReg; split <;> rfl

@[simp] theorem State.setReg_tab (s : State) (c : Fin 4) (r : Fin 32) (v : BitVec 64) : (s.setReg c r v).tab = s.tab := by
  unfold State.setReg; split <;> rfl

@[simp] theorem State.setReg_fwd (s : State) (c : Fin 4) (r : Fin 32) (v : BitVec 64) : (s.setReg c r v).fwd = s.fwd := by
  unfold State.setReg; split <;> rfl

@[simp] theorem State.setReg_tm (s : State) (c : Fin 4) (r : Fin 32) (v : BitVec 64) : (s.setReg c r v).tm = s.tm := by
  unfold State.setReg; split <;> rfl

@[simp] theorem State.setReg_mac (s : State) (c : Fin 4) (r : Fin 32) (v : BitVec 64) : (s.setReg c r v).mac = s.mac := by
  unfold State.setReg; split <;> rfl

@[simp] theorem State.setReg_time (s : State) (c : Fin 4) (r : Fin 32) (v : BitVec 64) : (s.setReg c r v).time = s.time := by
  unfold State.setReg; split <;> rfl

@[simp] theorem State.setReg_jor (s : State) (c : Fin 4) (r : Fin 32) (v : BitVec 64) : (s.setReg c r v).jor = s.jor := by
  unfold State.setReg; split <;> rfl

@[simp] theorem State.setReg_flt (s : State) (c : Fin 4) (r : Fin 32) (v : BitVec 64) : (s.setReg c r v).flt = s.flt := by
  unfold State.setReg; split <;> rfl

@[simp] theorem State.setReg_pmc (s : State) (c : Fin 4) (r : Fin 32) (v : BitVec 64) : (s.setReg c r v).pmc = s.pmc := by
  unfold State.setReg; split <;> rfl

@[simp] theorem State.setReg_dom (s : State) (c : Fin 4) (r : Fin 32) (v : BitVec 64) : (s.setReg c r v).dom = s.dom := by
  unfold State.setReg; split <;> rfl

@[simp] theorem State.setReg_lanes (s : State) (c : Fin 4) (r : Fin 32) (v : BitVec 64) : (s.setReg c r v).lanes = s.lanes := by
  unfold State.setReg; split <;> rfl

@[simp] theorem State.setReg_trk (s : State) (c : Fin 4) (r : Fin 32) (v : BitVec 64) : (s.setReg c r v).trk = s.trk := by
  unfold State.setReg; split <;> rfl

@[simp] theorem State.setReg_clk (s : State) (c : Fin 4) (r : Fin 32) (v : BitVec 64) : (s.setReg c r v).clk = s.clk := by
  unfold State.setReg; split <;> rfl

@[simp] theorem State.setReg_hob (s : State) (c : Fin 4) (r : Fin 32) (v : BitVec 64) : (s.setReg c r v).hob = s.hob := by
  unfold State.setReg; split <;> rfl

@[simp] theorem State.setReg_pwr (s : State) (c : Fin 4) (r : Fin 32) (v : BitVec 64) : (s.setReg c r v).pwr = s.pwr := by
  unfold State.setReg; split <;> rfl

@[simp] theorem State.setReg_tlm (s : State) (c : Fin 4) (r : Fin 32) (v : BitVec 64) : (s.setReg c r v).tlm = s.tlm := by
  unfold State.setReg; split <;> rfl

@[simp] theorem State.setReg_uc (s : State) (c : Fin 4) (r : Fin 32) (v : BitVec 64) : (s.setReg c r v).uc = s.uc := by
  unfold State.setReg; split <;> rfl

@[simp] theorem State.setReg_boot (s : State) (c : Fin 4) (r : Fin 32) (v : BitVec 64) : (s.setReg c r v).boot = s.boot := by
  unfold State.setReg; split <;> rfl

@[simp] theorem State.setReg_jtag (s : State) (c : Fin 4) (r : Fin 32) (v : BitVec 64) : (s.setReg c r v).jtag = s.jtag := by
  unfold State.setReg; split <;> rfl

@[simp] theorem State.setSlot_pending (s : State) (n : Nat) (g : GenSlot) : (s.setSlot n g).pending = s.pending := by
  unfold State.setSlot; split <;> rfl

@[simp] theorem State.setSlot_cc (s : State) (n : Nat) (g : GenSlot) : (s.setSlot n g).cc = s.cc := by
  unfold State.setSlot; split <;> rfl

@[simp] theorem State.setSlot_nt (s : State) (n : Nat) (g : GenSlot) : (s.setSlot n g).nt = s.nt := by
  unfold State.setSlot; split <;> rfl

@[simp] theorem State.setSlot_free (s : State) (n : Nat) (g : GenSlot) : (s.setSlot n g).free = s.free := by
  unfold State.setSlot; split <;> rfl

@[simp] theorem State.setSlot_csr (s : State) (n : Nat) (g : GenSlot) : (s.setSlot n g).csr = s.csr := by
  unfold State.setSlot; split <;> rfl

@[simp] theorem State.setSlot_cnt (s : State) (n : Nat) (g : GenSlot) : (s.setSlot n g).cnt = s.cnt := by
  unfold State.setSlot; split <;> rfl

@[simp] theorem State.setSlot_cntNew (s : State) (n : Nat) (g : GenSlot) : (s.setSlot n g).cntNew = s.cntNew := by
  unfold State.setSlot; split <;> rfl

@[simp] theorem State.setSlot_snap (s : State) (n : Nat) (g : GenSlot) : (s.setSlot n g).snap = s.snap := by
  unfold State.setSlot; split <;> rfl

@[simp] theorem State.setSlot_hwSet (s : State) (n : Nat) (g : GenSlot) : (s.setSlot n g).hwSet = s.hwSet := by
  unfold State.setSlot; split <;> rfl

@[simp] theorem State.setSlot_swClr (s : State) (n : Nat) (g : GenSlot) : (s.setSlot n g).swClr = s.swClr := by
  unfold State.setSlot; split <;> rfl

@[simp] theorem State.setSlot_mem (s : State) (n : Nat) (g : GenSlot) : (s.setSlot n g).mem = s.mem := by
  unfold State.setSlot; split <;> rfl

@[simp] theorem State.setSlot_gen (s : State) (n : Nat) (g : GenSlot) : (s.setSlot n g).gen = s.gen := by
  unfold State.setSlot; split <;> rfl

@[simp] theorem State.setSlot_tab (s : State) (n : Nat) (g : GenSlot) : (s.setSlot n g).tab = s.tab := by
  unfold State.setSlot; split <;> rfl

@[simp] theorem State.setSlot_fwd (s : State) (n : Nat) (g : GenSlot) : (s.setSlot n g).fwd = s.fwd := by
  unfold State.setSlot; split <;> rfl

@[simp] theorem State.setSlot_tm (s : State) (n : Nat) (g : GenSlot) : (s.setSlot n g).tm = s.tm := by
  unfold State.setSlot; split <;> rfl

@[simp] theorem State.setSlot_mac (s : State) (n : Nat) (g : GenSlot) : (s.setSlot n g).mac = s.mac := by
  unfold State.setSlot; split <;> rfl

@[simp] theorem State.setSlot_time (s : State) (n : Nat) (g : GenSlot) : (s.setSlot n g).time = s.time := by
  unfold State.setSlot; split <;> rfl

@[simp] theorem State.setSlot_stk (s : State) (n : Nat) (g : GenSlot) : (s.setSlot n g).stk = s.stk := by
  unfold State.setSlot; split <;> rfl

@[simp] theorem State.setSlot_jor (s : State) (n : Nat) (g : GenSlot) : (s.setSlot n g).jor = s.jor := by
  unfold State.setSlot; split <;> rfl

@[simp] theorem State.setSlot_flt (s : State) (n : Nat) (g : GenSlot) : (s.setSlot n g).flt = s.flt := by
  unfold State.setSlot; split <;> rfl

@[simp] theorem State.setSlot_pmc (s : State) (n : Nat) (g : GenSlot) : (s.setSlot n g).pmc = s.pmc := by
  unfold State.setSlot; split <;> rfl

@[simp] theorem State.setSlot_dom (s : State) (n : Nat) (g : GenSlot) : (s.setSlot n g).dom = s.dom := by
  unfold State.setSlot; split <;> rfl

@[simp] theorem State.setSlot_lanes (s : State) (n : Nat) (g : GenSlot) : (s.setSlot n g).lanes = s.lanes := by
  unfold State.setSlot; split <;> rfl

@[simp] theorem State.setSlot_trk (s : State) (n : Nat) (g : GenSlot) : (s.setSlot n g).trk = s.trk := by
  unfold State.setSlot; split <;> rfl

@[simp] theorem State.setSlot_clk (s : State) (n : Nat) (g : GenSlot) : (s.setSlot n g).clk = s.clk := by
  unfold State.setSlot; split <;> rfl

@[simp] theorem State.setSlot_hob (s : State) (n : Nat) (g : GenSlot) : (s.setSlot n g).hob = s.hob := by
  unfold State.setSlot; split <;> rfl

@[simp] theorem State.setSlot_pwr (s : State) (n : Nat) (g : GenSlot) : (s.setSlot n g).pwr = s.pwr := by
  unfold State.setSlot; split <;> rfl

@[simp] theorem State.setSlot_tlm (s : State) (n : Nat) (g : GenSlot) : (s.setSlot n g).tlm = s.tlm := by
  unfold State.setSlot; split <;> rfl

@[simp] theorem State.setSlot_uc (s : State) (n : Nat) (g : GenSlot) : (s.setSlot n g).uc = s.uc := by
  unfold State.setSlot; split <;> rfl

@[simp] theorem State.setSlot_boot (s : State) (n : Nat) (g : GenSlot) : (s.setSlot n g).boot = s.boot := by
  unfold State.setSlot; split <;> rfl

@[simp] theorem State.setSlot_jtag (s : State) (n : Nat) (g : GenSlot) : (s.setSlot n g).jtag = s.jtag := by
  unfold State.setSlot; split <;> rfl

@[simp] theorem State.store_pending (s : State) (a : Nat) (b : List Byte) : (s.store a b).pending = s.pending := by
  induction b generalizing s a with
  | nil => rfl
  | cons x b ih => exact ih _ _

@[simp] theorem State.store_cc (s : State) (a : Nat) (b : List Byte) : (s.store a b).cc = s.cc := by
  induction b generalizing s a with
  | nil => rfl
  | cons x b ih => exact ih _ _

@[simp] theorem State.store_nt (s : State) (a : Nat) (b : List Byte) : (s.store a b).nt = s.nt := by
  induction b generalizing s a with
  | nil => rfl
  | cons x b ih => exact ih _ _

@[simp] theorem State.store_free (s : State) (a : Nat) (b : List Byte) : (s.store a b).free = s.free := by
  induction b generalizing s a with
  | nil => rfl
  | cons x b ih => exact ih _ _

@[simp] theorem State.store_csr (s : State) (a : Nat) (b : List Byte) : (s.store a b).csr = s.csr := by
  induction b generalizing s a with
  | nil => rfl
  | cons x b ih => exact ih _ _

@[simp] theorem State.store_cnt (s : State) (a : Nat) (b : List Byte) : (s.store a b).cnt = s.cnt := by
  induction b generalizing s a with
  | nil => rfl
  | cons x b ih => exact ih _ _

@[simp] theorem State.store_cntNew (s : State) (a : Nat) (b : List Byte) : (s.store a b).cntNew = s.cntNew := by
  induction b generalizing s a with
  | nil => rfl
  | cons x b ih => exact ih _ _

@[simp] theorem State.store_snap (s : State) (a : Nat) (b : List Byte) : (s.store a b).snap = s.snap := by
  induction b generalizing s a with
  | nil => rfl
  | cons x b ih => exact ih _ _

@[simp] theorem State.store_hwSet (s : State) (a : Nat) (b : List Byte) : (s.store a b).hwSet = s.hwSet := by
  induction b generalizing s a with
  | nil => rfl
  | cons x b ih => exact ih _ _

@[simp] theorem State.store_swClr (s : State) (a : Nat) (b : List Byte) : (s.store a b).swClr = s.swClr := by
  induction b generalizing s a with
  | nil => rfl
  | cons x b ih => exact ih _ _

@[simp] theorem State.store_slot0 (s : State) (a : Nat) (b : List Byte) : (s.store a b).slot0 = s.slot0 := by
  induction b generalizing s a with
  | nil => rfl
  | cons x b ih => exact ih _ _

@[simp] theorem State.store_slot1 (s : State) (a : Nat) (b : List Byte) : (s.store a b).slot1 = s.slot1 := by
  induction b generalizing s a with
  | nil => rfl
  | cons x b ih => exact ih _ _

@[simp] theorem State.store_gen (s : State) (a : Nat) (b : List Byte) : (s.store a b).gen = s.gen := by
  induction b generalizing s a with
  | nil => rfl
  | cons x b ih => exact ih _ _

@[simp] theorem State.store_tab (s : State) (a : Nat) (b : List Byte) : (s.store a b).tab = s.tab := by
  induction b generalizing s a with
  | nil => rfl
  | cons x b ih => exact ih _ _

@[simp] theorem State.store_fwd (s : State) (a : Nat) (b : List Byte) : (s.store a b).fwd = s.fwd := by
  induction b generalizing s a with
  | nil => rfl
  | cons x b ih => exact ih _ _

@[simp] theorem State.store_tm (s : State) (a : Nat) (b : List Byte) : (s.store a b).tm = s.tm := by
  induction b generalizing s a with
  | nil => rfl
  | cons x b ih => exact ih _ _

@[simp] theorem State.store_mac (s : State) (a : Nat) (b : List Byte) : (s.store a b).mac = s.mac := by
  induction b generalizing s a with
  | nil => rfl
  | cons x b ih => exact ih _ _

@[simp] theorem State.store_time (s : State) (a : Nat) (b : List Byte) : (s.store a b).time = s.time := by
  induction b generalizing s a with
  | nil => rfl
  | cons x b ih => exact ih _ _

@[simp] theorem State.store_stk (s : State) (a : Nat) (b : List Byte) : (s.store a b).stk = s.stk := by
  induction b generalizing s a with
  | nil => rfl
  | cons x b ih => exact ih _ _

@[simp] theorem State.store_jor (s : State) (a : Nat) (b : List Byte) : (s.store a b).jor = s.jor := by
  induction b generalizing s a with
  | nil => rfl
  | cons x b ih => exact ih _ _

@[simp] theorem State.store_flt (s : State) (a : Nat) (b : List Byte) : (s.store a b).flt = s.flt := by
  induction b generalizing s a with
  | nil => rfl
  | cons x b ih => exact ih _ _

@[simp] theorem State.store_pmc (s : State) (a : Nat) (b : List Byte) : (s.store a b).pmc = s.pmc := by
  induction b generalizing s a with
  | nil => rfl
  | cons x b ih => exact ih _ _

@[simp] theorem State.store_dom (s : State) (a : Nat) (b : List Byte) : (s.store a b).dom = s.dom := by
  induction b generalizing s a with
  | nil => rfl
  | cons x b ih => exact ih _ _

@[simp] theorem State.store_lanes (s : State) (a : Nat) (b : List Byte) : (s.store a b).lanes = s.lanes := by
  induction b generalizing s a with
  | nil => rfl
  | cons x b ih => exact ih _ _

@[simp] theorem State.store_trk (s : State) (a : Nat) (b : List Byte) : (s.store a b).trk = s.trk := by
  induction b generalizing s a with
  | nil => rfl
  | cons x b ih => exact ih _ _

@[simp] theorem State.store_clk (s : State) (a : Nat) (b : List Byte) : (s.store a b).clk = s.clk := by
  induction b generalizing s a with
  | nil => rfl
  | cons x b ih => exact ih _ _

@[simp] theorem State.store_hob (s : State) (a : Nat) (b : List Byte) : (s.store a b).hob = s.hob := by
  induction b generalizing s a with
  | nil => rfl
  | cons x b ih => exact ih _ _

@[simp] theorem State.store_pwr (s : State) (a : Nat) (b : List Byte) : (s.store a b).pwr = s.pwr := by
  induction b generalizing s a with
  | nil => rfl
  | cons x b ih => exact ih _ _

@[simp] theorem State.store_tlm (s : State) (a : Nat) (b : List Byte) : (s.store a b).tlm = s.tlm := by
  induction b generalizing s a with
  | nil => rfl
  | cons x b ih => exact ih _ _

@[simp] theorem State.store_uc (s : State) (a : Nat) (b : List Byte) : (s.store a b).uc = s.uc := by
  induction b generalizing s a with
  | nil => rfl
  | cons x b ih => exact ih _ _

@[simp] theorem State.store_boot (s : State) (a : Nat) (b : List Byte) : (s.store a b).boot = s.boot := by
  induction b generalizing s a with
  | nil => rfl
  | cons x b ih => exact ih _ _

@[simp] theorem State.store_jtag (s : State) (a : Nat) (b : List Byte) : (s.store a b).jtag = s.jtag := by
  induction b generalizing s a with
  | nil => rfl
  | cons x b ih => exact ih _ _

@[simp] theorem State.flag_pending (s : State) (x : Fld) (i j k b : Nat) : (s.flag x i j k b).pending = s.pending := by
  unfold State.flag; dsimp only; split <;> first | rfl | (split <;> rfl)

@[simp] theorem State.flag_cc (s : State) (x : Fld) (i j k b : Nat) : (s.flag x i j k b).cc = s.cc := by
  unfold State.flag; dsimp only; split <;> first | rfl | (split <;> rfl)

@[simp] theorem State.flag_nt (s : State) (x : Fld) (i j k b : Nat) : (s.flag x i j k b).nt = s.nt := by
  unfold State.flag; dsimp only; split <;> first | rfl | (split <;> rfl)

@[simp] theorem State.flag_free (s : State) (x : Fld) (i j k b : Nat) : (s.flag x i j k b).free = s.free := by
  unfold State.flag; dsimp only; split <;> first | rfl | (split <;> rfl)

@[simp] theorem State.flag_cnt (s : State) (x : Fld) (i j k b : Nat) : (s.flag x i j k b).cnt = s.cnt := by
  unfold State.flag; dsimp only; split <;> first | rfl | (split <;> rfl)

@[simp] theorem State.flag_cntNew (s : State) (x : Fld) (i j k b : Nat) : (s.flag x i j k b).cntNew = s.cntNew := by
  unfold State.flag; dsimp only; split <;> first | rfl | (split <;> rfl)

@[simp] theorem State.flag_snap (s : State) (x : Fld) (i j k b : Nat) : (s.flag x i j k b).snap = s.snap := by
  unfold State.flag; dsimp only; split <;> first | rfl | (split <;> rfl)

@[simp] theorem State.flag_swClr (s : State) (x : Fld) (i j k b : Nat) : (s.flag x i j k b).swClr = s.swClr := by
  unfold State.flag; dsimp only; split <;> first | rfl | (split <;> rfl)

@[simp] theorem State.flag_mem (s : State) (x : Fld) (i j k b : Nat) : (s.flag x i j k b).mem = s.mem := by
  unfold State.flag; dsimp only; split <;> first | rfl | (split <;> rfl)

@[simp] theorem State.flag_slot0 (s : State) (x : Fld) (i j k b : Nat) : (s.flag x i j k b).slot0 = s.slot0 := by
  unfold State.flag; dsimp only; split <;> first | rfl | (split <;> rfl)

@[simp] theorem State.flag_slot1 (s : State) (x : Fld) (i j k b : Nat) : (s.flag x i j k b).slot1 = s.slot1 := by
  unfold State.flag; dsimp only; split <;> first | rfl | (split <;> rfl)

@[simp] theorem State.flag_gen (s : State) (x : Fld) (i j k b : Nat) : (s.flag x i j k b).gen = s.gen := by
  unfold State.flag; dsimp only; split <;> first | rfl | (split <;> rfl)

@[simp] theorem State.flag_tab (s : State) (x : Fld) (i j k b : Nat) : (s.flag x i j k b).tab = s.tab := by
  unfold State.flag; dsimp only; split <;> first | rfl | (split <;> rfl)

@[simp] theorem State.flag_fwd (s : State) (x : Fld) (i j k b : Nat) : (s.flag x i j k b).fwd = s.fwd := by
  unfold State.flag; dsimp only; split <;> first | rfl | (split <;> rfl)

@[simp] theorem State.flag_tm (s : State) (x : Fld) (i j k b : Nat) : (s.flag x i j k b).tm = s.tm := by
  unfold State.flag; dsimp only; split <;> first | rfl | (split <;> rfl)

@[simp] theorem State.flag_mac (s : State) (x : Fld) (i j k b : Nat) : (s.flag x i j k b).mac = s.mac := by
  unfold State.flag; dsimp only; split <;> first | rfl | (split <;> rfl)

@[simp] theorem State.flag_time (s : State) (x : Fld) (i j k b : Nat) : (s.flag x i j k b).time = s.time := by
  unfold State.flag; dsimp only; split <;> first | rfl | (split <;> rfl)

@[simp] theorem State.flag_stk (s : State) (x : Fld) (i j k b : Nat) : (s.flag x i j k b).stk = s.stk := by
  unfold State.flag; dsimp only; split <;> first | rfl | (split <;> rfl)

@[simp] theorem State.flag_jor (s : State) (x : Fld) (i j k b : Nat) : (s.flag x i j k b).jor = s.jor := by
  unfold State.flag; dsimp only; split <;> first | rfl | (split <;> rfl)

@[simp] theorem State.flag_flt (s : State) (x : Fld) (i j k b : Nat) : (s.flag x i j k b).flt = s.flt := by
  unfold State.flag; dsimp only; split <;> first | rfl | (split <;> rfl)

@[simp] theorem State.flag_pmc (s : State) (x : Fld) (i j k b : Nat) : (s.flag x i j k b).pmc = s.pmc := by
  unfold State.flag; dsimp only; split <;> first | rfl | (split <;> rfl)

@[simp] theorem State.flag_dom (s : State) (x : Fld) (i j k b : Nat) : (s.flag x i j k b).dom = s.dom := by
  unfold State.flag; dsimp only; split <;> first | rfl | (split <;> rfl)

@[simp] theorem State.flag_lanes (s : State) (x : Fld) (i j k b : Nat) : (s.flag x i j k b).lanes = s.lanes := by
  unfold State.flag; dsimp only; split <;> first | rfl | (split <;> rfl)

@[simp] theorem State.flag_trk (s : State) (x : Fld) (i j k b : Nat) : (s.flag x i j k b).trk = s.trk := by
  unfold State.flag; dsimp only; split <;> first | rfl | (split <;> rfl)

@[simp] theorem State.flag_clk (s : State) (x : Fld) (i j k b : Nat) : (s.flag x i j k b).clk = s.clk := by
  unfold State.flag; dsimp only; split <;> first | rfl | (split <;> rfl)

@[simp] theorem State.flag_hob (s : State) (x : Fld) (i j k b : Nat) : (s.flag x i j k b).hob = s.hob := by
  unfold State.flag; dsimp only; split <;> first | rfl | (split <;> rfl)

@[simp] theorem State.flag_pwr (s : State) (x : Fld) (i j k b : Nat) : (s.flag x i j k b).pwr = s.pwr := by
  unfold State.flag; dsimp only; split <;> first | rfl | (split <;> rfl)

@[simp] theorem State.flag_tlm (s : State) (x : Fld) (i j k b : Nat) : (s.flag x i j k b).tlm = s.tlm := by
  unfold State.flag; dsimp only; split <;> first | rfl | (split <;> rfl)

@[simp] theorem State.flag_uc (s : State) (x : Fld) (i j k b : Nat) : (s.flag x i j k b).uc = s.uc := by
  unfold State.flag; dsimp only; split <;> first | rfl | (split <;> rfl)

@[simp] theorem State.flag_boot (s : State) (x : Fld) (i j k b : Nat) : (s.flag x i j k b).boot = s.boot := by
  unfold State.flag; dsimp only; split <;> first | rfl | (split <;> rfl)

@[simp] theorem State.flag_jtag (s : State) (x : Fld) (i j k b : Nat) : (s.flag x i j k b).jtag = s.jtag := by
  unfold State.flag; dsimp only; split <;> first | rfl | (split <;> rfl)

@[simp] theorem State.irq_pending (s : State) (n : Nat) : (s.irq n).pending = s.pending := by
  simp [State.irq]

@[simp] theorem State.irq_cc (s : State) (n : Nat) : (s.irq n).cc = s.cc := by
  simp [State.irq]

@[simp] theorem State.irq_nt (s : State) (n : Nat) : (s.irq n).nt = s.nt := by
  simp [State.irq]

@[simp] theorem State.irq_free (s : State) (n : Nat) : (s.irq n).free = s.free := by
  simp [State.irq]

@[simp] theorem State.irq_cnt (s : State) (n : Nat) : (s.irq n).cnt = s.cnt := by
  simp [State.irq]

@[simp] theorem State.irq_cntNew (s : State) (n : Nat) : (s.irq n).cntNew = s.cntNew := by
  simp [State.irq]

@[simp] theorem State.irq_snap (s : State) (n : Nat) : (s.irq n).snap = s.snap := by
  simp [State.irq]

@[simp] theorem State.irq_swClr (s : State) (n : Nat) : (s.irq n).swClr = s.swClr := by
  simp [State.irq]

@[simp] theorem State.irq_mem (s : State) (n : Nat) : (s.irq n).mem = s.mem := by
  simp [State.irq]

@[simp] theorem State.irq_slot0 (s : State) (n : Nat) : (s.irq n).slot0 = s.slot0 := by
  simp [State.irq]

@[simp] theorem State.irq_slot1 (s : State) (n : Nat) : (s.irq n).slot1 = s.slot1 := by
  simp [State.irq]

@[simp] theorem State.irq_gen (s : State) (n : Nat) : (s.irq n).gen = s.gen := by
  simp [State.irq]

@[simp] theorem State.irq_tab (s : State) (n : Nat) : (s.irq n).tab = s.tab := by
  simp [State.irq]

@[simp] theorem State.irq_fwd (s : State) (n : Nat) : (s.irq n).fwd = s.fwd := by
  simp [State.irq]

@[simp] theorem State.irq_tm (s : State) (n : Nat) : (s.irq n).tm = s.tm := by
  simp [State.irq]

@[simp] theorem State.irq_mac (s : State) (n : Nat) : (s.irq n).mac = s.mac := by
  simp [State.irq]

@[simp] theorem State.irq_time (s : State) (n : Nat) : (s.irq n).time = s.time := by
  simp [State.irq]

@[simp] theorem State.irq_stk (s : State) (n : Nat) : (s.irq n).stk = s.stk := by
  simp [State.irq]

@[simp] theorem State.irq_jor (s : State) (n : Nat) : (s.irq n).jor = s.jor := by
  simp [State.irq]

@[simp] theorem State.irq_flt (s : State) (n : Nat) : (s.irq n).flt = s.flt := by
  simp [State.irq]

@[simp] theorem State.irq_pmc (s : State) (n : Nat) : (s.irq n).pmc = s.pmc := by
  simp [State.irq]

@[simp] theorem State.irq_dom (s : State) (n : Nat) : (s.irq n).dom = s.dom := by
  simp [State.irq]

@[simp] theorem State.irq_lanes (s : State) (n : Nat) : (s.irq n).lanes = s.lanes := by
  simp [State.irq]

@[simp] theorem State.irq_trk (s : State) (n : Nat) : (s.irq n).trk = s.trk := by
  simp [State.irq]

@[simp] theorem State.irq_clk (s : State) (n : Nat) : (s.irq n).clk = s.clk := by
  simp [State.irq]

@[simp] theorem State.irq_hob (s : State) (n : Nat) : (s.irq n).hob = s.hob := by
  simp [State.irq]

@[simp] theorem State.irq_pwr (s : State) (n : Nat) : (s.irq n).pwr = s.pwr := by
  simp [State.irq]

@[simp] theorem State.irq_tlm (s : State) (n : Nat) : (s.irq n).tlm = s.tlm := by
  simp [State.irq]

@[simp] theorem State.irq_uc (s : State) (n : Nat) : (s.irq n).uc = s.uc := by
  simp [State.irq]

@[simp] theorem State.irq_boot (s : State) (n : Nat) : (s.irq n).boot = s.boot := by
  simp [State.irq]

@[simp] theorem State.irq_jtag (s : State) (n : Nat) : (s.irq n).jtag = s.jtag := by
  simp [State.irq]

end Sys2Proof.Machine
end

