-- ==== Sys2Proof/Laws/Tab.lean ====
section
/-! SUPPORT. The laws of sparse tables: what a key holds after a set, and that every operation keeps the canonical form. -/

namespace Sys2Proof.Machine
variable {α : Type} [Inhabited α]

theorem Tab.get_erase_same (t : Tab α) (k : Nat) : (t.erase k).get k = default := by
  induction t with
  | nil => rfl
  | cons e t ih =>
    obtain ⟨k', v⟩ := e
    by_cases h : k' = k
    · simpa [Tab.erase, h] using ih
    · simpa [Tab.erase, Tab.get, h] using ih

theorem Tab.get_erase_other (t : Tab α) {k j : Nat} (h : j ≠ k) : (t.erase k).get j = t.get j := by
  induction t with
  | nil => rfl
  | cons e t ih =>
    obtain ⟨k', v⟩ := e
    by_cases h1 : k' = k
    · have h2 : k' ≠ j := by omega
      have h3 : k ≠ j := by omega
      simpa [Tab.erase, Tab.get, h1, h3] using ih
    · simp only [Tab.erase, h1, if_false, Tab.get, ih]

theorem Tab.get_insert_other (t : Tab α) {k j : Nat} (v : α) (h : j ≠ k) : (t.insert k v).get j = t.get j := by
  induction t with
  | nil => simp [Tab.insert, Tab.get, Ne.symm h]
  | cons e t ih =>
    obtain ⟨k', v'⟩ := e
    by_cases h1 : k < k'
    · simp [Tab.insert, Tab.get, h1, Ne.symm h]
    · simp only [Tab.insert, h1, if_false, Tab.get, ih]

theorem Tab.get_insert_same (t : Tab α) (k : Nat) (v : α) (h : ∀ p ∈ t, p.1 ≠ k) : (t.insert k v).get k = v := by
  induction t with
  | nil => simp [Tab.insert, Tab.get]
  | cons e t ih =>
    obtain ⟨k', v'⟩ := e
    have h0 : k' ≠ k := h (k', v') (by simp)
    by_cases h1 : k < k'
    · simp [Tab.insert, Tab.get, h1]
    · simp only [Tab.insert, Tab.get, h1, h0, if_false]
      exact ih (fun p hp => h p (by simp [hp]))

omit [Inhabited α] in
theorem Tab.mem_erase {t : Tab α} {k : Nat} {p : Nat × α} (h : p ∈ t.erase k) : p ∈ t ∧ p.1 ≠ k := by
  induction t with
  | nil => simp [Tab.erase] at h
  | cons e t ih =>
    obtain ⟨k', v⟩ := e
    by_cases h1 : k' = k
    · simp only [Tab.erase, h1, if_true] at h
      exact ⟨List.mem_cons_of_mem _ (ih h).1, (ih h).2⟩
    · simp only [Tab.erase, h1, if_false, List.mem_cons] at h
      rcases h with h | h
      · subst h; exact ⟨List.mem_cons_self, h1⟩
      · exact ⟨List.mem_cons_of_mem _ (ih h).1, (ih h).2⟩

omit [Inhabited α] in
theorem Tab.mem_insert {t : Tab α} {k : Nat} {v : α} {p : Nat × α} (h : p ∈ t.insert k v) : p ∈ t ∨ p = (k, v) := by
  induction t with
  | nil => simpa [Tab.insert] using h
  | cons e t ih =>
    obtain ⟨k', v'⟩ := e
    by_cases h1 : k < k'
    · simp only [Tab.insert, h1, if_true, List.mem_cons] at h ⊢
      tauto
    · simp only [Tab.insert, h1, if_false, List.mem_cons] at h ⊢
      rcases h with h | h
      · exact Or.inl (Or.inl h)
      · rcases ih h with h | h <;> tauto

/-- A key that does not hold the unlisted value is listed. -/
theorem Tab.get_mem {t : Tab α} {k : Nat} (h : Tab.get t k ≠ default) : ∃ p ∈ t, Tab.get t k = p.2 := by
  induction t with
  | nil => exact absurd rfl h
  | cons p t ih =>
    obtain ⟨a, v⟩ := p
    by_cases e : a = k
    · exact ⟨(a, v), by simp, by simp [Tab.get, e]⟩
    · have e' : Tab.get ((a, v) :: t) k = Tab.get t k := by simp [Tab.get, e]
      rw [e'] at h ⊢
      obtain ⟨q, hq, hv⟩ := ih h
      exact ⟨q, by simp [hq], hv⟩

variable [DecidableEq α]

/-- A key holds what was last set at it. -/
@[simp] theorem Tab.get_set_same (t : Tab α) (k : Nat) (v : α) : (t.set k v).get k = v := by
  unfold Tab.set
  split
  · next h => rw [Tab.get_erase_same, h]
  · exact Tab.get_insert_same _ _ _ (fun p hp => (Tab.mem_erase hp).2)

/-- A set leaves every other key alone. -/
theorem Tab.get_set_other (t : Tab α) {k j : Nat} (v : α) (h : j ≠ k) : (t.set k v).get j = t.get j := by
  unfold Tab.set
  split
  · exact Tab.get_erase_other t h
  · rw [Tab.get_insert_other _ v h, Tab.get_erase_other t h]

theorem Tab.get_set (t : Tab α) (k j : Nat) (v : α) : (t.set k v).get j = if j = k then v else t.get j := by
  by_cases h : j = k
  · subst h; simp
  · simp [h, Tab.get_set_other]

theorem Tab.wf_cons {k : Nat} {v : α} {t : Tab α} :
    Tab.wf ((k, v) :: t) = true ↔ v ≠ default ∧ (∀ p ∈ t, k < p.1) ∧ t.wf = true := by
  simp [Tab.wf, and_assoc]

theorem Tab.wf_erase {t : Tab α} (k : Nat) (h : t.wf = true) : (t.erase k).wf = true := by
  induction t with
  | nil => rfl
  | cons e t ih =>
    obtain ⟨k', v⟩ := e
    obtain ⟨hv, hk, ht⟩ := Tab.wf_cons.mp h
    by_cases h1 : k' = k
    · simpa [Tab.erase, h1] using ih ht
    · simp only [Tab.erase, h1, if_false]
      exact Tab.wf_cons.mpr ⟨hv, fun p hp => hk p (Tab.mem_erase hp).1, ih ht⟩

theorem Tab.wf_insert {t : Tab α} {k : Nat} {v : α} (h : t.wf = true) (hv : v ≠ default) (hk : ∀ p ∈ t, p.1 ≠ k) :
    (t.insert k v).wf = true := by
  induction t with
  | nil => simp [Tab.insert, Tab.wf, hv]
  | cons e t ih =>
    obtain ⟨k', v'⟩ := e
    obtain ⟨hv', hk', ht⟩ := Tab.wf_cons.mp h
    have h0 : k' ≠ k := hk (k', v') (by simp)
    by_cases h1 : k < k'
    · simp only [Tab.insert, h1, if_true]
      refine Tab.wf_cons.mpr ⟨hv, ?_, h⟩
      intro p hp
      rcases List.mem_cons.mp hp with hp | hp
      · subst hp; exact h1
      · exact Nat.lt_trans h1 (hk' p hp)
    · simp only [Tab.insert, h1, if_false]
      refine Tab.wf_cons.mpr ⟨hv', ?_, ih ht (fun p hp => hk p (by simp [hp]))⟩
      intro p hp
      rcases Tab.mem_insert hp with hp | hp
      · exact hk' p hp
      · subst hp; simp only; omega

/-- Setting a key keeps the canonical form. -/
theorem Tab.wf_set {t : Tab α} (k : Nat) (v : α) (h : t.wf = true) : (t.set k v).wf = true := by
  unfold Tab.set
  split
  · exact Tab.wf_erase k h
  · next hv => exact Tab.wf_insert (Tab.wf_erase k h) hv (fun p hp => (Tab.mem_erase hp).2)

theorem Tab.wf_upd {t : Tab α} (k : Nat) (f : α → α) (h : t.wf = true) : (t.upd k f).wf = true :=
  Tab.wf_set _ _ h

theorem Tab.wf_sets {t : Tab α} (l : List (Nat × α)) (h : t.wf = true) : (t.sets l).wf = true := by
  induction l generalizing t with
  | nil => exact h
  | cons e l ih => obtain ⟨k, v⟩ := e; exact ih (Tab.wf_set k v h)

theorem Tab.wf_keep {t : Tab α} (p : Nat → α → Bool) (h : t.wf = true) : (t.keep p).wf = true := by
  induction t with
  | nil => rfl
  | cons e t ih =>
    obtain ⟨k, v⟩ := e
    obtain ⟨hv, hk, ht⟩ := Tab.wf_cons.mp h
    unfold Tab.keep at ih ⊢
    rw [List.filter_cons]
    split
    · exact Tab.wf_cons.mpr ⟨hv, fun q hq => hk q (List.mem_of_mem_filter hq), ih ht⟩
    · exact ih ht

theorem Tab.wf_clearRange {t : Tab α} (lo n : Nat) (h : t.wf = true) : (t.clearRange lo n).wf = true :=
  Tab.wf_keep _ h

end Sys2Proof.Machine
end

