-- ==== Sys2Proof/Laws/Word.lean ====
section
/-! SUPPORT. The laws of bit fields: what a field reads after it, or another field of the same word, is written. -/

namespace Sys2Proof.Machine

theorem wordBits_testBit (w : Word) (lsb wd i : Nat) :
    (wordBits w lsb wd).testBit i = (decide (i < wd) && w.getLsbD (lsb + i)) := by
  simp [wordBits, Nat.testBit_mod_two_pow, Nat.testBit_div_two_pow, BitVec.getLsbD, Nat.add_comm]

theorem wordPut_getLsbD (w : Word) (lsb wd v i : Nat) :
    (wordPut w lsb wd v).getLsbD i =
      (decide (i < 32) && (if lsb ≤ i ∧ i < lsb + wd then v.testBit (i - lsb) else w.getLsbD i)) := by
  by_cases h : i < 32
  · have e : ((2 ^ wd - 1) * 2 ^ lsb).testBit i = decide (lsb ≤ i ∧ i < lsb + wd) := by
      rw [Nat.mul_comm, Nat.testBit_two_pow_mul]
      by_cases h1 : lsb ≤ i
      · simp [h1, Nat.testBit_two_pow_sub_one]; omega
      · simp [h1]
    have e2 : ((v % 2 ^ wd) * 2 ^ lsb).testBit i = (decide (lsb ≤ i ∧ i < lsb + wd) && v.testBit (i - lsb)) := by
      rw [Nat.mul_comm, Nat.testBit_two_pow_mul, Nat.testBit_mod_two_pow]
      by_cases h1 : lsb ≤ i
      · have : (i - lsb < wd) ↔ (i < lsb + wd) := by omega
        simp [h1, this]
      · simp [h1]
    simp only [wordPut, BitVec.getLsbD_or, BitVec.getLsbD_and, BitVec.getLsbD_not, BitVec.getLsbD_ofNat, h, e, e2, decide_true,
      Bool.true_and]
    by_cases h3 : lsb ≤ i ∧ i < lsb + wd <;> simp [h3]
  · have h' : 32 ≤ i := by omega
    simp [h, BitVec.getLsbD_of_ge _ _ h']

/-- A field reads what was last written to it. -/
theorem wordBits_put_same (w : Word) {lsb wd : Nat} (v : Nat) (h : lsb + wd ≤ 32) :
    wordBits (wordPut w lsb wd v) lsb wd = v % 2 ^ wd := by
  apply Nat.eq_of_testBit_eq
  intro i
  rw [wordBits_testBit, wordPut_getLsbD, Nat.testBit_mod_two_pow]
  by_cases hi : i < wd
  · have : lsb + i < 32 := by omega
    simp [hi, this]
  · simp [hi]

/-- A write to a field leaves a field that does not meet it alone. -/
theorem wordBits_put_other (w : Word) {lsb wd lsb' wd' : Nat} (v : Nat) (h : lsb' + wd' ≤ lsb ∨ lsb + wd ≤ lsb') :
    wordBits (wordPut w lsb wd v) lsb' wd' = wordBits w lsb' wd' := by
  apply Nat.eq_of_testBit_eq
  intro i
  rw [wordBits_testBit, wordBits_testBit, wordPut_getLsbD]
  by_cases hi : i < wd'
  · by_cases h32 : lsb' + i < 32
    · have : ¬ (lsb ≤ lsb' + i ∧ lsb' + i < lsb + wd) := by omega
      simp [h32, this]
    · have h' : 32 ≤ lsb' + i := by omega
      simp [h32, BitVec.getLsbD_of_ge _ _ h']
  · simp [hi]

/-- A field is below two to its width. -/
theorem wordBits_lt (w : Word) (lsb wd : Nat) : wordBits w lsb wd < 2 ^ wd := Nat.mod_lt _ (by positivity)

end Sys2Proof.Machine
end

