-- ==== Sys2Proof/Laws/Ops.lean ====
section
/-! SUPPORT. What the shared operations do: registers and their fields, counters, status flags, Stoker's general registers and
byte-addressed memory. -/

namespace Sys2Proof.Machine

/-! ### Registers -/

@[simp] theorem State.rget_rset_same (s : State) (r : Reg) (v : Word) (i j k : Nat) : (s.rset r v i j k).rget r i j k = v := by
  simp [State.rget, State.rset]

/-- A write of a register leaves every other address alone. -/
theorem State.csr_rset_other (s : State) (r : Reg) (v : Word) (i j k : Nat) {a : Nat} (h : a ≠ r.addr i j k) :
    (s.rset r v i j k).csr.get a = s.csr.get a := Tab.get_set_other _ _ h

theorem State.rget_rset_other (s : State) {r q : Reg} (v : Word) {i j k i' j' k' : Nat} (h : q.addr i' j' k' ≠ r.addr i j k) :
    (s.rset r v i j k).rget q i' j' k' = s.rget q i' j' k' := by
  simp [State.rget, State.csr_rset_other s r v i j k h]

/-- A field reads what was last written to it. -/
theorem State.f_setF_same (s : State) (x : Fld) (v i j k : Nat) (h : x.lsb + x.w ≤ 32) : (s.setF x v i j k).f x i j k = v % 2 ^ x.w := by
  simp [State.f, State.setF, wordBits_put_same _ _ h]

/-- A write of a field leaves another field of its register alone. -/
theorem State.f_setF_field (s : State) {x y : Fld} (v i j k : Nat) (hr : y.reg = x.reg)
    (h : y.lsb + y.w ≤ x.lsb ∨ x.lsb + x.w ≤ y.lsb) : (s.setF x v i j k).f y i j k = s.f y i j k := by
  simp [State.f, State.setF, hr, wordBits_put_other _ _ h]

/-- A write of a field leaves every other address alone. -/
theorem State.csr_setF_other (s : State) (x : Fld) (v i j k : Nat) {a : Nat} (h : a ≠ x.reg.addr i j k) :
    (s.setF x v i j k).csr.get a = s.csr.get a := State.csr_rset_other _ _ _ _ _ _ h

/-- A write of a field leaves the fields of other registers alone. -/
theorem State.f_setF_reg (s : State) {x y : Fld} (v : Nat) {i j k i' j' k' : Nat} (h : y.reg.addr i' j' k' ≠ x.reg.addr i j k) :
    (s.setF x v i j k).f y i' j' k' = s.f y i' j' k' := by
  simp [State.f, State.setF, State.rget_rset_other s _ h]

/-- A field is below two to its width. -/
theorem State.f_lt (s : State) (x : Fld) (i j k : Nat) : s.f x i j k < 2 ^ x.w := wordBits_lt _ _ _

/-- What a field reads depends on `csr` alone. -/
theorem State.f_congr {s t : State} (x : Fld) (i j k : Nat) (h : t.csr.get (x.reg.addr i j k) = s.csr.get (x.reg.addr i j k)) :
    t.f x i j k = s.f x i j k := by simp [State.f, State.rget, h]

/-! ### Counters -/

@[simp] theorem State.cval_count_same (s : State) (c : Cnt) (n i j : Nat) :
    (s.count c n i j).cval c i j = min (s.cval c i j + n) (2 ^ 48 - 1) := by simp [State.count, State.cval]

theorem State.cnt_count_other (s : State) (c : Cnt) (n i j : Nat) {a : Nat} (h : a ≠ c.addr i j) :
    (s.count c n i j).cnt.get a = s.cnt.get a := Tab.get_set_other _ _ h

/-- A cleared counter holds what it has counted in this cc. -/
@[simp] theorem State.cval_cclr_same (s : State) (c : Cnt) (i j : Nat) : (s.cclr c i j).cval c i j = min (s.cnew c i j) (2 ^ 48 - 1) := by
  simp [State.cclr, State.cval]

@[simp] theorem State.cnew_cclr (s : State) (c d : Cnt) (i j i' j' : Nat) : (s.cclr c i j).cnew d i' j' = s.cnew d i' j' := rfl

theorem State.cnt_cclr_other (s : State) (c : Cnt) (i j : Nat) {a : Nat} (h : a ≠ c.addr i j) :
    (s.cclr c i j).cnt.get a = s.cnt.get a := Tab.get_set_other s.cnt _ h

/-- Clearing several counters leaves in each what it has counted in this cc, leaves every other alone, and touches nothing but counters. -/
theorem State.cclrs_spec (s : State) (cs : List Cnt) (i j : Nat) :
    (∀ c ∈ cs, (s.cclrs cs i j).cval c i j = min (s.cnew c i j) (2 ^ 48 - 1)) ∧
    (∀ a, (∀ c ∈ cs, a ≠ c.addr i j) → (s.cclrs cs i j).cnt.get a = s.cnt.get a) ∧
    s.cclrs cs i j = { s with cnt := (s.cclrs cs i j).cnt } := by
  induction cs generalizing s with
  | nil => exact ⟨by simp, by simp [State.cclrs], rfl⟩
  | cons c cs ih =>
    obtain ⟨h1, h2, h3⟩ := ih (s.cclr c i j)
    have e : s.cclrs (c :: cs) i j = (s.cclr c i j).cclrs cs i j := rfl
    refine ⟨?_, ?_, ?_⟩
    · intro d hd
      rw [e]
      by_cases hm : d ∈ cs
      · exact h1 d hm
      · have hdc : d = c := by simpa [hm] using hd
        subst hdc
        by_cases hx : ∃ x ∈ cs, d.addr i j = x.addr i j
        · obtain ⟨x, hx, hxe⟩ := hx
          have := h1 x hx
          simpa [State.cval, State.cnew, hxe] using this
        · push Not at hx
          have := h2 (d.addr i j) hx
          rw [State.cval, this]; exact State.cval_cclr_same s d i j
    · intro a ha
      rw [e, h2 a (fun x hx => ha x (by simp [hx])), State.cnt_cclr_other _ _ _ _ (ha c (by simp))]
    · rw [e, h3]; rfl

/-! ### Stoker's general registers -/

@[simp] theorem State.reg_rset (s : State) (q : Reg) (v : Word) (i j k : Nat) (c : Fin 4) (r : Fin 32) :
    (s.rset q v i j k).reg c r = s.reg c r := rfl

@[simp] theorem State.reg_setF (s : State) (x : Fld) (v i j k : Nat) (c : Fin 4) (r : Fin 32) : (s.setF x v i j k).reg c r = s.reg c r := rfl

/-- A register reads what was last written to it; r0 reads 0. -/
theorem State.reg_setReg_same (s : State) (c : Fin 4) (r : Fin 32) (v : BitVec 64) :
    (s.setReg c r v).reg c r = if r = 0 then 0 else v := by
  by_cases h : r = 0 <;> simp [State.setReg, State.reg, h]

/-- A write of a register leaves every other register of every core alone. -/
theorem State.reg_setReg_other (s : State) (c c' : Fin 4) (r r' : Fin 32) (v : BitVec 64) (h : ¬ (c' = c ∧ r' = r)) :
    (s.setReg c r v).reg c' r' = s.reg c' r' := by
  by_cases h0 : r = 0
  · simp [State.setReg, h0]
  · have hk : 32 * c'.val + r'.val ≠ 32 * c.val + r.val := by
      intro e
      exact h ⟨Fin.ext (by omega), Fin.ext (by omega)⟩
    simp [State.setReg, State.reg, h0, Tab.get_set_other _ _ hk]

@[simp] theorem State.f_setReg (s : State) (c : Fin 4) (r : Fin 32) (v : BitVec 64) (x : Fld) (i j k : Nat) :
    (s.setReg c r v).f x i j k = s.f x i j k := by simp [State.f, State.rget]

/-! ### Byte-addressed memory -/

/-- A store leaves every byte outside it alone. -/
theorem State.mem_store_other (s : State) (a : Nat) (bs : List Byte) {b : Nat} (h : b < a ∨ a + bs.length ≤ b) :
    (s.store a bs).mem.get b = s.mem.get b := by
  induction bs generalizing s a with
  | nil => rfl
  | cons x bs ih =>
    simp only [List.length_cons] at h
    rw [State.store, ih _ (a + 1) (by omega)]
    exact Tab.get_set_other _ _ (by omega)

/-- A store puts its bytes in place. -/
theorem State.mem_store_at (s : State) (a : Nat) (bs : List Byte) {i : Nat} (h : i < bs.length) :
    (s.store a bs).mem.get (a + i) = bs[i] := by
  induction bs generalizing s a i with
  | nil => simp at h
  | cons x bs ih =>
    rw [State.store]
    cases i with
    | zero => rw [State.mem_store_other _ _ _ (by omega)]; simp
    | succ i =>
      have := ih { s with mem := s.mem.set a x } (a + 1) (i := i) (by simpa using h)
      simpa [Nat.add_assoc, Nat.add_comm 1] using this

/-- Every store keeps the memory's canonical form. -/
theorem State.mem_wf_store (s : State) (a : Nat) (bs : List Byte) (h : s.mem.wf = true) : (s.store a bs).mem.wf = true := by
  induction bs generalizing s a with
  | nil => exact h
  | cons x bs ih => exact ih _ _ (Tab.wf_set _ _ h)

end Sys2Proof.Machine
end

