-- ==== Sys2Proof/Laws/Shared.lean ====
section
/-! SUPPORT. The shared operations on flags, faults, messages, time and memory: what each changes, and that each keeps `State.Sound`. -/

namespace Sys2Proof.Machine

/-! ### Status flags -/

theorem State.bit_orBit (s : State) (a b a' b' : Nat) (hb : b' < 32) :
    ((s.orBit a b).csr.get a').getLsbD b' = ((s.csr.get a').getLsbD b' || (a' == a && b' == b)) := by
  by_cases h : a' = a
  · subst h
    have e : (2 ^ b : Nat).testBit b' = (b' == b) := by
      rw [Nat.testBit_two_pow, Bool.eq_iff_iff, decide_eq_true_iff, beq_iff_eq]; exact eq_comm
    rw [State.orBit, Tab.get_set_same, BitVec.getLsbD_or, BitVec.getLsbD_ofNat, e]
    simp [hb]
  · simp [State.orBit, Tab.get_set_other _ _ h, h]

/-- Setting a flag changes registers and the marks of the flags set in this cc alone. -/
theorem State.flag_only (s : State) (x : Fld) (i j k b : Nat) :
    s.flag x i j k b = { s with csr := (s.flag x i j k b).csr, hwSet := (s.flag x i j k b).hwSet } := by
  unfold State.flag
  split
  · dsimp only; split <;> rfl
  · rfl

/-- A flag that has been set reads 1. -/
theorem State.flag_bit (s : State) (x : Fld) (i j k b : Nat) (h : x.lsb + b < 32) :
    ((s.flag x i j k b).csr.get (x.reg.addr i j k)).getLsbD (x.lsb + b) = true := by
  unfold State.flag
  split
  · dsimp only
    split
    · rw [show ∀ (t : State) l, ({ t with hwSet := l } : State).csr = t.csr from fun _ _ => rfl, State.bit_orBit _ _ _ _ _ h]
      simp [State.bit_orBit _ _ _ _ _ h]
    · simp [State.bit_orBit _ _ _ _ _ h]
  · simp [State.bit_orBit _ _ _ _ _ h]

/-- Setting a flag changes its own register and its companion's alone. -/
theorem State.flag_other (s : State) (x : Fld) (i j k b : Nat) {a : Nat} (h : a ≠ x.reg.addr i j k)
    (hc : ∀ c, x.sa = some c → a ≠ x.reg.addr i j k + c.1) : (s.flag x i j k b).csr.get a = s.csr.get a := by
  unfold State.flag
  split
  · next d l e =>
    dsimp only
    have := hc _ e
    split <;> simp [State.orBit, Tab.get_set_other _ _ h, Tab.get_set_other _ _ this]
  · simp [State.orBit, Tab.get_set_other _ _ h]

/-- A write of 1 to a flag changes registers and the marks of this cc alone. -/
theorem State.w1c_only (s : State) (x : Fld) (a b : Nat) :
    s.w1c x a b = { s with csr := (s.w1c x a b).csr, hwSet := (s.w1c x a b).hwSet, swClr := (s.w1c x a b).swClr } := by
  unfold State.w1c
  dsimp only
  split
  · split <;> rfl
  · rfl

/-! ### Messages to the host -/

/-- A message joins its ring's queue of 16, or is counted as dropped. -/
theorem State.hostMsg_spec (s : State) (j kind core code : Nat) :
    (s.msgRoom j = true → ((s.hostMsg j kind core code).ring j).msgs =
      (s.ring j).msgs ++ [{ mseq := s.f JOR_MSG_NEXT_MSEQ j, kind, core, code := code % 65536 }]) ∧
    (s.msgRoom j = false → s.hostMsg j kind core code = s.count C_JOR_MSG_DROP 1 j) ∧
    s.hostMsg j kind core code =
      { s with
        csr := (s.hostMsg j kind core code).csr
        cnt := (s.hostMsg j kind core code).cnt
        cntNew := (s.hostMsg j kind core code).cntNew
        jor := (s.hostMsg j kind core code).jor } := by
  unfold State.hostMsg
  refine ⟨fun h => ?_, fun h => by simp [h], ?_⟩
  · simp [h, State.ring, State.setRing, State.setF, State.rset]
  · split <;> rfl

/-- A ring that has been changed reads as changed, and the other as before. -/
theorem State.ring_setRing (s : State) (i j : Nat) (r : Ring) : (s.setRing j r).ring i = if i = j then r else s.ring i := by
  simp [State.ring, State.setRing, Tab.get_set]

/-! ### Generation slots -/

theorem State.slot_setSlot_same (s : State) (n : Nat) (g : GenSlot) : (s.setSlot n g).slot n = g := by
  by_cases h : n = 0 <;> simp [State.setSlot, State.slot, h]

/-- Replacing a slot leaves the other as it is. -/
theorem State.slot_setSlot_other (s : State) {n m : Nat} (g : GenSlot) (h : ¬ (n = 0 ↔ m = 0)) : (s.setSlot n g).slot m = s.slot m := by
  by_cases hn : n = 0 <;> by_cases hm : m = 0 <;> simp_all [State.setSlot, State.slot]

/-- A configuration register reads what was last written to it in its slot. -/
theorem GenSlot.rget_rset_same (g : GenSlot) (r : Reg) (v : Word) (i j k : Nat) : (g.rset r v i j k).rget r i j k = v := by
  simp [GenSlot.rget, GenSlot.rset]

/-! ### Soundness -/

/-- What soundness rests on: memory, registers, counters and NT. -/
theorem State.Sound.of_eq {s t : State} (h : s.Sound) (hm : t.mem = s.mem) (hc : t.csr = s.csr) (hn : t.cnt = s.cnt) (ht : t.nt = s.nt) :
    t.Sound := by
  simpa [State.Sound, hm, hc, hn, ht] using h

/-- Registers may change in any way that keeps their canonical form. -/
theorem State.Sound.of_csr {s t : State} (h : s.Sound) (hm : t.mem = s.mem) (hc : t.csr.wf = true) (hn : t.cnt = s.cnt) (ht : t.nt = s.nt) :
    t.Sound := by
  obtain ⟨h1, -, h3, h4, h5⟩ := h
  exact ⟨hm ▸ h1, hc, hn ▸ h3, hn ▸ h4, ht ▸ h5⟩

theorem State.Sound.rset {s : State} (h : s.Sound) (r : Reg) (v : Word) (i j k : Nat) : (s.rset r v i j k).Sound :=
  h.of_csr rfl (Tab.wf_set _ _ h.2.1) rfl rfl

theorem State.Sound.setF {s : State} (h : s.Sound) (x : Fld) (v i j k : Nat) : (s.setF x v i j k).Sound := h.rset _ _ _ _ _

theorem State.Sound.satF {s : State} (h : s.Sound) (x : Fld) (n i j k : Nat) : (s.satF x n i j k).Sound := h.setF _ _ _ _ _

/-- A counter may take any value below 2^48. -/
theorem State.Sound.setCnt {s : State} (h : s.Sound) (a v : Nat) (hv : v < 2 ^ 48) : ({ s with cnt := s.cnt.set a v } : State).Sound := by
  obtain ⟨h1, h2, h3, h4, h5⟩ := h
  refine ⟨h1, h2, Tab.wf_set _ _ h3, fun e he => ?_, h5⟩
  simp only [Tab.set] at he
  split at he
  · exact h4 e (Tab.mem_erase he).1
  · rcases Tab.mem_insert he with he | rfl
    · exact h4 e (Tab.mem_erase he).1
    · exact hv

theorem State.Sound.count {s : State} (h : s.Sound) (c : Cnt) (n i j : Nat) : (s.count c n i j).Sound := h.setCnt _ _ (by omega)

theorem State.Sound.uncount {s : State} (h : s.Sound) (c : Cnt) (i j : Nat) : (s.uncount c i j).Sound := by
  obtain ⟨h1, h2, h3, h4, h5⟩ := h
  have hv : s.cval c i j - 1 < 2 ^ 48 := by
    have : s.cval c i j < 2 ^ 48 := by
      by_cases hm : ∃ e ∈ s.cnt, s.cnt.get (c.addr i j) = e.2
      · obtain ⟨e, he, hx⟩ := hm
        have := h4 e he
        rw [State.cval, hx]; exact this
      · have : s.cnt.get (c.addr i j) = 0 := by
          by_contra hne
          exact hm ((Tab.get_mem hne).elim fun e he => ⟨e, he.1, he.2⟩)
        simp [State.cval, this]
    omega
  exact State.Sound.of_eq (s := { s with cnt := s.cnt.set (c.addr i j) (s.cval c i j - 1) })
    (State.Sound.setCnt ⟨h1, h2, h3, h4, h5⟩ _ _ hv) rfl rfl rfl rfl

theorem State.Sound.countF {s : State} (h : s.Sound) (x : Fld) (i : Nat) : (s.countF x i).Sound :=
  (h.satF x 1 i 0 0).of_eq rfl rfl rfl rfl

theorem State.Sound.uncountF {s : State} (h : s.Sound) (x : Fld) (i : Nat) : (s.uncountF x i).Sound :=
  (h.setF x _ i 0 0).of_eq rfl rfl rfl rfl

theorem State.Sound.clrF {s : State} (h : s.Sound) (x : Fld) (i : Nat) : (s.clrF x i).Sound := h.setF _ _ _ _ _

theorem State.Sound.cclr {s : State} (h : s.Sound) (c : Cnt) (i j : Nat) : (s.cclr c i j).Sound := h.setCnt _ _ (by omega)

theorem State.Sound.foldl {α : Type} {f : State → α → State} (hf : ∀ s a, s.Sound → (f s a).Sound) (l : List α) {s : State} (h : s.Sound) :
    (l.foldl f s).Sound := by
  induction l generalizing s with
  | nil => exact h
  | cons a l ih => exact ih (hf _ _ h)

theorem State.Sound.cclrs {s : State} (h : s.Sound) (cs : List Cnt) (i j : Nat) : (s.cclrs cs i j).Sound :=
  h.foldl (fun _ c hs => hs.cclr c i j) cs

theorem State.Sound.orBit {s : State} (h : s.Sound) (a b : Nat) : (s.orBit a b).Sound := h.of_csr rfl (Tab.wf_set _ _ h.2.1) rfl rfl

theorem State.Sound.clrBit {s : State} (h : s.Sound) (a b : Nat) : (s.clrBit a b).Sound := h.of_csr rfl (Tab.wf_set _ _ h.2.1) rfl rfl

theorem State.Sound.flag {s : State} (h : s.Sound) (x : Fld) (i j k b : Nat) : (s.flag x i j k b).Sound := by
  unfold State.flag
  split
  · dsimp only
    split
    · exact ((h.orBit _ _).of_eq (t := { s.orBit _ _ with hwSet := _ }) rfl rfl rfl rfl).orBit _ _ |>.of_eq rfl rfl rfl rfl
    · exact (h.orBit _ _).of_eq rfl rfl rfl rfl
  · exact (h.orBit _ _).of_eq rfl rfl rfl rfl

theorem State.Sound.w1c {s : State} (h : s.Sound) (x : Fld) (a b : Nat) : (s.w1c x a b).Sound := by
  have h1 : ({ s with swClr := (a, x.lsb + b) :: s.swClr } : State).Sound := h.of_eq rfl rfl rfl rfl
  unfold State.w1c
  dsimp only
  split
  · split
    · exact (h1.orBit _ _).of_eq rfl rfl rfl rfl
    · exact h1
  · exact h1.clrBit _ _

theorem State.Sound.irq {s : State} (h : s.Sound) (n : Nat) : (s.irq n).Sound := h.flag _ _ _ _ _

theorem State.Sound.raise {s : State} (h : s.Sound) (cls level code info : Nat) (inj : Bool) : (s.raise cls level code info inj).Sound :=
  h.of_eq rfl rfl rfl rfl

theorem State.Sound.setRing {s : State} (h : s.Sound) (j : Nat) (r : Ring) : (s.setRing j r).Sound := h.of_eq rfl rfl rfl rfl

theorem State.Sound.hostMsg {s : State} (h : s.Sound) (j kind core code : Nat) : (s.hostMsg j kind core code).Sound := by
  unfold State.hostMsg
  split
  · exact ((h.setRing _ _).setF _ _ _ _ _).setF _ _ _ _ _
  · exact h.count _ _ _ _

theorem State.Sound.ev {s : State} (h : s.Sound) (code slice : Nat) (cls : Option Nat) (n : Nat) : (s.ev code slice cls n).Sound :=
  h.of_eq rfl rfl rfl rfl

theorem State.Sound.fresh {s : State} (h : s.Sound) : s.fresh.Sound := h.of_eq rfl rfl rfl rfl

theorem State.Sound.when {s : State} (h : s.Sound) (c : Bool) (f : State → State) (hf : s.Sound → (f s).Sound) : (s.when c f).Sound := by
  cases c
  · exact h
  · exact hf h

theorem State.Sound.setSlot {s : State} (h : s.Sound) (n : Nat) (g : GenSlot) : (s.setSlot n g).Sound := by
  unfold State.setSlot
  split <;> exact h.of_eq rfl rfl rfl rfl

theorem State.Sound.setReg {s : State} (h : s.Sound) (k : Fin 4) (r : Fin 32) (v : BitVec 64) : (s.setReg k r v).Sound := by
  unfold State.setReg
  split
  · exact h
  · exact h.of_eq rfl rfl rfl rfl

theorem State.Sound.setNt3 {s : State} (h : s.Sound) (hi mid lo : Fld) (t i : Nat) : (s.setNt3 hi mid lo t i).Sound :=
  ((h.setF _ _ _ _ _).setF _ _ _ _ _).setF _ _ _ _ _

theorem State.Sound.infl {s : State} (h : s.Sound) (slot : Nat) (d : Int) : (s.infl slot d).Sound := h.setF _ _ _ _ _

/-- A store changes memory alone. -/
theorem State.store_only (s : State) (a : Nat) (bs : List Byte) : s.store a bs = { s with mem := (s.store a bs).mem } := by
  induction bs generalizing s a with
  | nil => rfl
  | cons b bs ih => rw [State.store, ih]

theorem State.Sound.store {s : State} (h : s.Sound) (a : Nat) (bs : List Byte) : (s.store a bs).Sound := by
  rw [State.store_only]
  exact ⟨State.mem_wf_store s a bs h.1, h.2⟩

theorem State.Sound.setSram32 {s : State} (h : s.Sound) (o v : Nat) : (s.setSram32 o v).Sound := h.store _ _

end Sys2Proof.Machine
end

