-- ==== Sys2Proof/Laws/Stoker.lean ====
section
/-! SUPPORT. How a Stoker instruction can end, once for every instruction: at the next word, at a jump's target, at itself, or with an
exception. -/

namespace Sys2Proof.Machine

/-- An instruction counted as retired changes nothing but the events that wait to be counted. -/
theorem State.retired_eq (s : State) (k : Nat) (u : Bool) :
    s.retired k u = { s with pmc := { s.pmc with events := (s.retired k u).pmc.events } } := rfl

@[simp] theorem State.retired_csr (s : State) (k : Nat) (u : Bool) : (s.retired k u).csr = s.csr := rfl
@[simp] theorem State.retired_stk (s : State) (k : Nat) (u : Bool) : (s.retired k u).stk = s.stk := rfl
@[simp] theorem State.retired_mem (s : State) (k : Nat) (u : Bool) : (s.retired k u).mem = s.mem := rfl
@[simp] theorem State.retired_reg (s : State) (k : Nat) (u : Bool) (c : Fin 4) (r : Fin 32) : (s.retired k u).reg c r = s.reg c r := rfl

/-- The sequencer's way through an instruction changes its own registers alone. -/
theorem State.microRun_only (s : State) (k : Fin 4) : s.microRun k = { s with uc := { s.uc with seq := (s.microRun k).uc.seq } } := rfl

@[simp] theorem State.microRun_csr (s : State) (k : Fin 4) : (s.microRun k).csr = s.csr := rfl
@[simp] theorem State.microRun_stk (s : State) (k : Fin 4) : (s.microRun k).stk = s.stk := rfl
@[simp] theorem State.microRun_mem (s : State) (k : Fin 4) : (s.microRun k).mem = s.mem := rfl
@[simp] theorem State.microRun_reg (s : State) (k c : Fin 4) (r : Fin 32) : (s.microRun k).reg c r = s.reg c r := rfl
@[simp] theorem State.microRun_pc (s : State) (k : Fin 4) (c : Nat) : (s.microRun k).pc c = s.pc c := rfl
@[simp] theorem State.microRun_user (s : State) (k : Fin 4) (c : Nat) : (s.microRun k).user c = s.user c := rfl

/-- The sequencers of the other cores stay. -/
theorem State.microRun_other (s : State) (k : Fin 4) {c : Nat} (h : c ≠ k.val) : (s.microRun k).uc.seq.get c = s.uc.seq.get c :=
  Tab.get_set_other _ _ h

/-- On a core that runs, with a legal encoding and a privilege that allows it, an instruction ends as its body says. -/
theorem State.instr_body (s : State) (k : Fin 4) (super ok : Bool) (body : State → Ended) (hr : s.coreRuns k = true) (ho : ok = true)
    (hp : super = false ∨ s.user k = false) : s.instr k super ok body = .next ((body (s.microRun k)).settle k (s.pc k) (s.user k)) := by
  have : (super && s.user k.val) = false := by rcases hp with h | h <;> simp [h]
  simp [State.instr, State.instrStep, State.when, hr, ho, this]

/-- An illegal encoding leaves cause 1 pending. -/
theorem State.instr_illegal (s : State) (k : Fin 4) (super : Bool) (body : State → Ended) (hr : s.coreRuns k = true) :
    s.instr k super false body = .next ((s.microRun k).except k 1 0) := by simp [State.instr, State.instrStep, State.when, hr, Ended.settle]

/-- A privileged instruction leaves cause 2 pending at user level. -/
theorem State.instr_user (s : State) (k : Fin 4) (body : State → Ended) (hr : s.coreRuns k = true) (hu : s.user k = true) :
    s.instr k true true body = .next ((s.microRun k).except k 2 0) := by
  simp [State.instr, State.instrStep, State.when, hr, hu, Ended.settle]

/-- A core that does not run passes its instructions over. -/
theorem State.instr_idle (s : State) (k : Fin 4) (super ok : Bool) (body : State → Ended) (hr : s.coreRuns k = false) :
    s.instr k super ok body = .next s := by simp [State.instr, State.when, hr]

/-- PC after an instruction that ends at the next word. -/
theorem Ended.settle_next_pc (s : State) (k pc : Nat) (u : Bool) : ((Ended.next s).settle k pc u).pc k = (pc + 8) % 2 ^ 32 := by
  simp only [Ended.settle, State.pc]
  rw [State.f_setF_same _ _ _ _ _ _ (by decide)]
  exact Nat.mod_eq_of_lt (Nat.mod_lt _ (by decide))

/-- PC after a jump. -/
theorem Ended.settle_jump_pc (s : State) (k pc a : Nat) (u : Bool) (h : a < 2 ^ 32) : ((Ended.jump s a).settle k pc u).pc k = a := by
  simp only [Ended.settle, State.pc]
  rw [State.f_setF_same _ _ _ _ _ _ (by decide)]
  exact Nat.mod_eq_of_lt h

end Sys2Proof.Machine
end

