-- ==== Sys2Proof/WellFormed.lean ====
section
/-! DEFINITION. Which commands are well formed: the bounds that the spec puts on what a command carries, where its operand's type does
not already hold them.  A command that is not well formed is none that the chip can meet. -/

namespace Sys2Proof

/-- A cell of the shared buffer (R213): 21 bits. -/
def cellOk (c : Nat) : Bool := c < 2097152

/-- The cells that the pool manager hands out for one request (R223, R233): at most `n`, each a cell of the buffer. -/
def blockOk (n : Nat) (cells : List Nat) : Bool := cells.length ≤ n && cells.all cellOk

/-- Blocks handed out for several requests, each at most a B64 block (R222). -/
def blocksOk (bs : List (List Nat)) : Bool := bs.all (blockOk 64)

/-- Errors of action words (R188): a stage below `n`, one of the eight words of the bundle, and 1 corrected or 2 uncorrectable. -/
def eccOk (n : Nat) (ecc : List (Nat × Nat × Nat)) : Bool :=
  ecc.all (fun e => decide (e.1 < n) && decide (e.2.1 < 8) && (e.2.2 == 1 || e.2.2 == 2))

/-- Bit errors of a cell (R215, R218): a chunk below 10 and a mask of its 266 bits. -/
def flipsOk (errs : List (Nat × Nat)) : Bool := errs.all (fun e => decide (e.1 < 10) && decide (e.2 < 2 ^ 266))

/-- Codewords of a lane (R68, R69): after how many clean ones each comes, and how many of its 544 symbols are wrong. -/
def fecOk (fec : List (Nat × Nat)) : Bool := fec.all (fun e => decide (e.2 ≤ 544))

/-- A frame of the Joring link (R421): 3 to 35 words. -/
def frameOk (ws : List (BitVec 64)) : Bool := decide (3 ≤ ws.length) && ws.length ≤ 35

/-- Is a command well formed. -/
def Instr.wellFormed : Instr → Bool
  | .receiveFrame _ ecc => eccOk 12 ecc
  | .frameEndIngress _ => true
  | .frameEnqueue _ cells _ => blockOk 64 cells
  | .poolFallback _ cells _ => blockOk 64 cells
  | .recircPass _ ecc => eccOk 12 ecc
  | .cellWriteGrant _ => true
  | .cellReadGrant _ errs => flipsOk errs
  | .dequeueDecision _ => true
  | .meteredDequeue _ => true
  | .egressPipeline _ ecc => eccOk 6 ecc
  | .egressMacStart _ cells => blocksOk cells
  | .transmitUnderrun _ => true
  | .frameTxEnd _ _ cells => blocksOk cells
  | .generatedFrameSend _ => true
  | .xoffChange _ _ => true
  | .fcResend _ => true
  | .pauseDecode _ => true
  | .pfcDecode _ => true
  | .pauseTimerExpiry _ => true
  | .residueAdmit _ _ => true
  | .residueExpiry _ => true
  | .gateStateChange _ => true
  | .gateSwapRequest _ => true
  | .gateSwap _ => true
  | .lpiEntry _ => true
  | .lpiExit _ => true
  | .lpiWakeEnd _ => true
  | .portUp _ => true
  | .flushDone _ _ => true
  | .localFaultRx _ _ => true
  | .remoteFaultRx _ => true
  | .remoteFaultTimeout _ => true
  | .repinStart _ => true
  | .repinDone => true
  | .wholeSecondTick => true
  | .macCtWrite _ _ => true
  | .refclkLost _ => true
  | .refclkPresent _ => true
  | .pllLock _ => true
  | .laneEnable _ => true
  | .laneDisable _ => true
  | .laneLoopChange _ _ => true
  | .partnerFrameLock _ => true
  | .trainConverged _ => true
  | .partnerReady _ => true
  | .portAligned _ skews => skews.length ≤ 16 && skews.all (fun x => decide (x < 65536))
  | .trainingSignalLoss _ => true
  | .trainTmoExpiry _ => true
  | .backoffEnd _ => true
  | .backoffSignalPresent _ => true
  | .laneFailure _ cause fec => (cause.val == 2 || cause.val == 3 || cause.val == 4 || cause.val == 6) && fecOk fec
  | .markerReceived _ _ _ _ fec => fecOk fec
  | .adaptationFreeze _ => true
  | .adaptationResume _ => true
  | .emberEntry _ => true
  | .rxEmberEntry _ => true
  | .emberRefresh _ => true
  | .emberRefreshMiss _ => true
  | .emberExit _ => true
  | .prbsEnable _ _ _ _ => true
  | .insertErr _ => true
  | .prbsCheckerLock _ bits => bits.length ≤ 1055
  | .prbsLockLost _ bits => bits.length ≤ 1024
  | .laneAuxCfgWrite _ _ => true
  | .laneCntClr _ => true
  | .counterLoRead _ _ => true
  | .auxSleep _ => true
  | .auxWakePattern _ => true
  | .macCntClr _ => true
  | .trunkFrameRx _ bytes _ => bytes.length == 8192
  | .trunkFrameTx _ _ _ => true
  | .deskewRelease _ _ => true
  | .flueRxRead _ => true
  | .flueTxWrite _ _ => true
  | .trkMemCntClr _ => true
  | .prsProgDataAccess _ _ _ => true
  | .prsCntClr _ => true
  | .tableSramWrite _ _ _ => true
  | .tableSramRead _ _ => true
  | .ternaryWrite _ _ _ => true
  | .ternaryRead _ _ => true
  | .keymapWrite _ _ _ => true
  | .keymapRead _ _ => true
  | .tableAccessDone _ _ => true
  | .stgCntClr _ => true
  | .actBundleWrite _ _ _ => true
  | .actBundleRead _ _ _ => true
  | .actCounterRead _ _ => true
  | .actCounterClear _ _ _ => true
  | .actMeterCfgWrite _ _ _ => true
  | .actMeterCfgRead _ _ => true
  | .actMeterTokensRead _ _ => true
  | .actMeterTokensWrite _ _ _ => true
  | .actDropReasonRead _ => true
  | .actDropReasonClear _ _ => true
  | .stgActCntClr _ => true
  | .commitRequest _ _ _ => true
  | .commitCancel => true
  | .checkComplete => true
  | .commitTakeEffect => true
  | .commitMissed => true
  | .staleSweep => true
  | .retireSyncStart => true
  | .syncComplete => true
  | .genCntClr => true
  | .drainFlush => true
  | .drainEnd => true
  | .chipModeClkWrite _ => true
  | .clockRequestApply => true
  | .chipMeterClr => true
  | .chipModeClr => true
  | .carve => true
  | .carvingComplete => true
  | .rebuild => true
  | .rebuildComplete => true
  | .bufCntClr => true
  | .poolCntClr => true
  | .mcGroupWrite _ => true
  | .mcGroupRead _ _ => true
  | .tmPortClr _ => true
  | .tmChipClr => true
  | .ntSnapshotRead => true
  | .sample _ => true
  | .sampleProcess => true
  | .set => true
  | .run => true
  | .hold => true
  | .free => true
  | .requal => true
  | .jumpOvr => true
  | .ppsEdge _ _ => true
  | .sampleTimeout => true
  | .holdMaxExpiry => true
  | .tsqPop _ => true
  | .toutArm _ => true
  | .toutStop _ => true
  | .toutEdge _ => true
  | .tinEdge _ _ _ => true
  | .tinEventRead _ => true
  | .tinLostClr _ => true
  | .timeCntClr => true
  | .timeTsqClr _ => true
  | .hobContrib _ cells => blocksOk cells
  | .hobResult _ cells => blocksOk cells
  | .hobAck _ cells => blocksOk cells
  | .hobAbortFrame _ cells => blocksOk cells
  | .hobLd _ _ => true
  | .hobCmb2 _ _ => true
  | .hobCmba _ _ => true
  | .hobCvt _ _ => true
  | .hobBsq _ _ => true
  | .hobBsxt _ _ => true
  | .stepBoundary _ cells => blocksOk cells
  | .contribResend _ cells => blocksOk cells
  | .stepDeadline _ cells => blocksOk cells
  | .hobPoolRetry _ cells _ => blocksOk cells
  | .hobCtxRead _ => true
  | .hobCtxWrite _ => true
  | .activate _ => true
  | .hobCtxAbort _ => true
  | .hobCtxFree _ => true
  | .nbrRead _ => true
  | .nbrWrite _ => true
  | .hobCtxInvalidCmd _ => true
  | .hobCtxAccessDone cells => blocksOk cells
  | .hobCntClr => true
  | .powerEpoch => true
  | .powerMeasurement total hob _ => total < 65536 && hob < 65536
  | .vgoodReport => true
  | .bellowsAbandon => true
  | .damperDeferEnd _ => true
  | .hintSubmit _ => true
  | .hintDue => true
  | .relearn _ => true
  | .thermalReading temps => temps.all (fun e => decide (e.1 < 64) && decide (e.2 < 65536))
  | .pwrEnergyRead => true
  | .pwrCntClr => true
  | .helloSend _ => true
  | .helloReceive _ => true
  | .helloSilence _ => true
  | .domPortClr _ => true
  | .telemetryEpoch cells => blocksOk cells
  | .tlmCntClr => true
  | .pmcCount => true
  | .pmcCarry => true
  | .pmcCfgWrite idx _ => idx < 1280
  | .pmcClr w _ => w < 40
  | .freeze _ => true
  | .pmcLoRead idx => idx < 1280
  | .nop _ => true
  | .add _ _ _ _ => true
  | .sub _ _ _ _ => true
  | .stkAnd _ _ _ _ => true
  | .stkOr _ _ _ _ => true
  | .stkXor _ _ _ _ => true
  | .shl _ _ _ _ => true
  | .shr _ _ _ _ => true
  | .sra _ _ _ _ => true
  | .mul _ _ _ _ => true
  | .slt _ _ _ _ => true
  | .sltu _ _ _ _ => true
  | .addi _ _ _ _ => true
  | .andi _ _ _ _ => true
  | .ori _ _ _ _ => true
  | .xori _ _ _ _ => true
  | .shli _ _ _ _ => true
  | .shri _ _ _ _ => true
  | .li _ _ _ => true
  | .lih _ _ _ => true
  | .beq _ _ _ _ => true
  | .bne _ _ _ _ => true
  | .blt _ _ _ _ => true
  | .bge _ _ _ _ => true
  | .bltu _ _ _ _ => true
  | .bgeu _ _ _ _ => true
  | .jal _ _ _ => true
  | .jalr _ _ _ _ => true
  | .ld _ _ _ _ => true
  | .ldw _ _ _ _ => true
  | .st _ _ _ _ => true
  | .stw _ _ _ _ => true
  | .csrr _ _ _ _ => true
  | .csrw _ _ _ _ => true
  | .bmov _ _ _ _ => true
  | .rdnt _ _ => true
  | .waitt _ _ => true
  | .sysc _ _ => true
  | .brk _ => true
  | .reti _ => true
  | .waiti _ => true
  | .hosti _ _ _ _ => true
  | .hostis _ _ _ _ => true
  | .tbw _ _ _ _ => true
  | .tscan _ _ _ => true
  | .cmt _ _ _ _ _ => true
  | .phase _ _ _ _ => true
  | .semts _ _ _ => true
  | .semrel _ _ _ => true
  | .send _ _ _ cells _ => blockOk 64 cells
  | .crnext _ _ _ => true
  | .crdone _ _ _ _ _ => true
  | .illegalOpcode _ _ => true
  | .exceptionEntry _ => true
  | .interruptEntry _ => true
  | .machineCheck _ kind _ _ _ _ cells => blockOk 64 cells && kind.val ≤ 4
  | .coreHalt _ => true
  | .coreRun _ => true
  | .swi => true
  | .commandRingTailWrite _ _ => true
  | .ringCfgWrite _ _ => true
  | .rxRingWrite _ _ => true
  | .stkCntClr => true
  | .loadGo => true
  | .patchLoadDone => true
  | .trapOn => true
  | .lock => true
  | .ucPdataRead => true
  | .ucCntClr => true
  | .ringBlockLock _ => true
  | .ringInputUp _ => true
  | .ringInputDown _ => true
  | .brkBlockRx _ _ => true
  | .read _ ws => frameOk ws
  | .write _ ws => frameOk ws
  | .tas _ ws => frameOk ws
  | .rel _ ws => frameOk ws
  | .collect _ ws => frameOk ws
  | .enum _ ws => frameOk ws
  | .badop _ ws => frameOk ws
  | .joringFrameRelay _ ws _ => ws.length ≤ 35
  | .writeQueueDrain _ => true
  | .bufMemStageFetch _ errs => flipsOk errs
  | .semRingTimeout _ => true
  | .jorSemFree _ => true
  | .jorMsgAck _ _ => true
  | .jorCntClr _ => true
  | .powerOnReset _ => true
  | .systemReset => true
  | .softwareReset => true
  | .watchdogReset => true
  | .hardwareInitialisation => true
  | .bootRomStart => true
  | .wdogKick => true
  | .hostload => true
  | .flashRead => true
  | .flashProgram => true
  | .flashErase => true
  | .flashTransferDone _ => true
  | .faultRecord _ => true
  | .safeStateCommand => true
  | .safeEnter => true
  | .safeExit => true
  | .ack _ => true
  | .faultInject _ => true
  | .memInjectArm _ => true
  | .fltCntClr => true
  | .registerWrite _ _ _ => true
  | .startBlockReady _ bytes => decide (1 ≤ bytes.length) && bytes.length ≤ 65535
  | .rxEmberExit _ => true
  | .remoteFaultClear _ => true
  | .hobVgoodLoss => true
  | .jtagInstruction ir _ => ir < 8

end Sys2Proof
end

