-- ==== Sys2Proof/Tests/Slice0.lean ====
section
/-! SUPPORT. Tests of the model, each with its expected result from the specification: well-formedness, worked examples, and for every
obligation states and operands that meet the hypotheses of its clauses, on which the command has the effect that the clause states. -/

namespace Sys2Proof.Tests
open Sys2Proof.Machine

set_option maxRecDepth 100000
set_option Elab.async false

/-- The state after a command. -/
def after (s : State) (c : Instr) : State :=
  match exec c s with
  | .next t => t
  | _ => s

/-! ### Well-formedness: each check refuses an ill-formed term -/

theorem test_ill_ecc_stage : Instr.wellFormed (.receiveFrame 0 [(12, 0, 1)]) = false := by decide
theorem test_ill_ecc_word : Instr.wellFormed (.recircPass 3 [(0, 8, 1)]) = false := by decide
theorem test_ill_ecc_kind : Instr.wellFormed (.egressPipeline 3 [(0, 0, 3)]) = false := by decide
theorem test_ill_ecc_egress_stage : Instr.wellFormed (.egressPipeline 3 [(6, 0, 1)]) = false := by decide
theorem test_ill_block : Instr.wellFormed (.frameEnqueue 3 (List.replicate 65 0) 0) = false := by decide
theorem test_ill_cell : Instr.wellFormed (.frameEnqueue 3 [2097152] 0) = false := by decide
theorem test_ill_fallback : Instr.wellFormed (.poolFallback 3 [2097152] 0) = false := by decide
theorem test_ill_chunk : Instr.wellFormed (.cellReadGrant 0 [(10, 1)]) = false := by decide
theorem test_ill_flips : Instr.wellFormed (.cellReadGrant 0 [(0, 2 * 2 ^ 255 * 2 ^ 10)]) = false := by decide +kernel
theorem test_ill_mac_blocks : Instr.wellFormed (.egressMacStart 3 [[2097152]]) = false := by decide
theorem test_ill_tx_blocks : Instr.wellFormed (.frameTxEnd 3 0 [[2097152]]) = false := by decide
theorem test_ill_skews : Instr.wellFormed (.portAligned 0 (List.replicate 17 0)) = false := by decide
theorem test_ill_skew : Instr.wellFormed (.portAligned 0 [65536]) = false := by decide
theorem test_ill_lane_cause : Instr.wellFormed (.laneFailure 0 1 []) = false := by decide
theorem test_ill_codeword : Instr.wellFormed (.laneFailure 0 4 [(0, 545)]) = false := by decide
theorem test_ill_prbs_bits (l : List Bool) (h : 1024 < l.length) : Instr.wellFormed (.prbsLockLost 0 l) = false := by
  show decide (l.length ≤ 1024) = false
  simp only [decide_eq_false_iff_not]; omega
theorem test_ill_trunk_frame : Instr.wellFormed (.trunkFrameRx 0 [1] 1024) = false := by decide
theorem test_ill_hob_blocks : (Instr.wellFormed (.hobContrib 0 [[2097152]]) || Instr.wellFormed (.hobResult 0 [[2097152]]) ||
    Instr.wellFormed (.hobAck 0 [[2097152]]) || Instr.wellFormed (.hobAbortFrame 0 [[2097152]]) || Instr.wellFormed (.stepBoundary 0 [[2097152]]) ||
    Instr.wellFormed (.contribResend 0 [[2097152]]) || Instr.wellFormed (.stepDeadline 0 [[2097152]]) || Instr.wellFormed (.hobPoolRetry 0 [[2097152]] 0) ||
    Instr.wellFormed (.hobCtxAccessDone [[2097152]]) || Instr.wellFormed (.telemetryEpoch [[2097152]])) = false := by decide
theorem test_ill_power : (Instr.wellFormed (.powerMeasurement 65536 0 true) || Instr.wellFormed (.powerMeasurement 0 65536 true)) = false := by decide
theorem test_ill_thermal : (Instr.wellFormed (.thermalReading [(64, 0)]) || Instr.wellFormed (.thermalReading [(0, 65536)])) = false := by decide
theorem test_ill_pmc : (Instr.wellFormed (.pmcCfgWrite 1280 0) || Instr.wellFormed (.pmcClr 40 0) || Instr.wellFormed (.pmcLoRead 1280)) = false := by decide
theorem test_ill_send : Instr.wellFormed (.send 0 1 2 [2097152] 0) = false := by decide
theorem test_ill_machine_check : (Instr.wellFormed (.machineCheck 0 5 0 0 0 0 []) || Instr.wellFormed (.machineCheck 0 0 0 0 0 0 [2097152])) = false := by decide
theorem test_ill_joring : (Instr.wellFormed (.read 0 [0, 0]) || Instr.wellFormed (.write 0 (List.replicate 36 0)) || Instr.wellFormed (.tas 0 []) ||
    Instr.wellFormed (.rel 0 []) || Instr.wellFormed (.collect 0 []) || Instr.wellFormed (.enum 0 []) || Instr.wellFormed (.badop 0 []) ||
    Instr.wellFormed (.joringFrameRelay 0 (List.replicate 36 0) false)) = false := by decide +kernel
theorem test_ill_stage_fetch : Instr.wellFormed (.bufMemStageFetch 0 [(10, 1)]) = false := by decide
theorem test_ill_start : Instr.wellFormed (.startBlockReady 0 []) = false := by decide
theorem test_ill_long_frame (l : List Byte) (h : 65535 < l.length) : Instr.wellFormed (.startBlockReady 0 l) = false := by
  show (decide (1 ≤ l.length) && decide (l.length ≤ 65535)) = false
  simp only [Bool.and_eq_false_iff, decide_eq_false_iff_not]; omega
theorem test_ill_jtag : Instr.wellFormed (.jtagInstruction 8 []) = false := by decide
theorem test_well_formed : Instr.wellFormed (.receiveFrame 0 [(11, 7, 2)]) = true ∧ Instr.wellFormed (.add 0 1 2 3) = true := by decide
theorem test_no_table_words : decodeTableWord 32 5 = none := rfl

/-! ### Check values and worked examples of the specification -/

/-- R115: the check value of CRC16 over "123456789". -/
theorem test_crc16 : crc16 [0x31, 0x32, 0x33, 0x34, 0x35, 0x36, 0x37, 0x38, 0x39] = 0x29B1 := by decide +kernel
/-- R173: the check value of CRC-32C over "123456789". -/
theorem test_crc32c : crc32c [0x31, 0x32, 0x33, 0x34, 0x35, 0x36, 0x37, 0x38, 0x39] = 0xE3069283 := by decide +kernel
/-- The example of R417: microword 0x028D_6201 has parity 1, NANO 0x0A3, NEXT 0x2C40, is a JUMP and lasts 2 sc; the trap word has even parity. -/
theorem test_microword : parityBit 32 0x028D6201 = 1 ∧ microNano 0x028D6201 = 0x0A3 ∧ microNext 0x028D6201 = 0x2C40 ∧ microSc 0x028D6201 = 2 ∧
    trapWord 0xAC420011 = 0xAC420011 := by decide +kernel
/-- The example of R417: the four next addresses, by Z (source 2) and user level (source 10). -/
theorem test_microword_next :
    let nano := 3 * 2 ^ 164 + 2 * 2 ^ 168 + 10 * 2 ^ 174
    let next (z u : Bool) := nextMicro 0x028D6201 0 0 (condBits nano fun c => if c = 2 then z else if c = 10 then u else false)
    next false false = 0x2C40 ∧ next true false = 0x2C41 ∧ next false true = 0x2C42 ∧ next true true = 0x2C43 := by decide +kernel
/-- FIPS 180-4: the published digest of "abc" under SHA-384. -/
theorem test_sha384 : sha384 [0x61, 0x62, 0x63] =
    0xcb00753f45a35e8bb5a03d699ac65007272c32ab0eded1631a8b605a43ff5bed8086072ba1e7cc2358baeca134c825a7 := by decide +kernel
/-- FIPS 186: the base point lies on P-384. -/
theorem test_curve : (curveG.2 ^ 2 + 3 * curveG.1) % curveP = (curveG.1 ^ 3 + curveB) % curveP := by decide +kernel

/-! ### Stoker: K0 runs at supervisor level right after reset -/

namespace Stk
def w32 (v : Nat) : List Byte := natBytes 4 v
def z : State := State.reset.setF STK_PC_ADDR 0 0
def s : State := (((z.setReg 0 1 5).setReg 0 2 0xFFFFFFFFFFFFFFF0).setReg 0 4 0x1000).store (stkBase + 0x1000) [1, 2, 3, 4, 5, 6, 7, 8, 9, 10]
def user : State := ((s.setF STK_STAT_PRIV 0 0).setF STK_UWIN_LIMIT_SOFS 0x100 0).setReg 0 4 0x10
def r (c : Instr) : BitVec 64 := (after s c).reg 0 3
def pc (c : Instr) : Nat := (after s c).pc 0
def exc (s : State) (c : Instr) : Option (Nat × Nat) := ((after s c).stk.exc.get 0).map fun e => (e.cause, e.code)

/-- Obligations.ArithmeticInstructionsWriteRd. -/
theorem witness_register_instructions : s.coreRuns 0 = true ∧
    [r (.add 0 3 1 2), r (.sub 0 3 1 2), r (.stkAnd 0 3 1 2), r (.stkOr 0 3 1 2), r (.stkXor 0 3 1 2), r (.shl 0 3 1 1), r (.shr 0 3 2 1),
     r (.sra 0 3 2 1), r (.mul 0 3 1 2), r (.slt 0 3 2 1), r (.sltu 0 3 2 1)] =
    [0xFFFFFFFFFFFFFFF5, 21, 0, 0xFFFFFFFFFFFFFFF5, 0xFFFFFFFFFFFFFFF5, 160, 0x07FFFFFFFFFFFFFF, 0xFFFFFFFFFFFFFFFF, 0xFFFFFFFFFFFFFFB0, 1, 0] := by decide +kernel
theorem witness_immediate_instructions :
    [r (.addi 0 3 1 0xFFFFFFFF), r (.andi 0 3 2 0xFF), r (.ori 0 3 1 0x80000000), r (.xori 0 3 1 1), r (.shli 0 3 1 4), r (.shri 0 3 2 4), r (.li 0 3 0x80000000)] =
    [4, 0xF0, 0x80000005, 4, 80, 0x0FFFFFFFFFFFFFFF, 0xFFFFFFFF80000000] ∧
    ((after s (.lih 0 1 0x12345678)).reg 0 1) = 0x1234567800000005 ∧ (after s (.addi 0 0 1 1)).reg 0 0 = 0 ∧ pc (.nop 0) = 8 := by decide +kernel
/-- Obligations.ControlFlowInstructionsMovePc. -/
theorem witness_branches_and_jumps : [pc (.beq 0 1 1 4), pc (.beq 0 1 2 4), pc (.bne 0 1 2 4), pc (.blt 0 2 1 4), pc (.bge 0 1 2 4), pc (.bltu 0 1 2 4), pc (.bgeu 0 2 1 4),
     pc (.jal 0 3 4), pc (.jalr 0 3 4 8)] = [32, 8, 32, 32, 32, 32, 32, 32, 0x1008] ∧ r (.jal 0 3 4) = 8 ∧ r (.jalr 0 3 4 8) = 8 ∧
    exc s (.beq 0 1 1 0xFFFFFFFF) = some (3, 0) ∧ exc s (.jalr 0 3 4 1) = some (3, 0) := by decide +kernel
/-- Obligations.MemoryInstructionsMoveBytes. -/
theorem witness_loads_and_stores : r (.ld 0 3 4 0) = 0x0102030405060708 ∧ r (.ldw 0 3 4 4) = 0x05060708 ∧
    (after s (.st 0 1 4 8)).load (stkBase + 0x1008) 8 = [0, 0, 0, 0, 0, 0, 0, 5] ∧ (after s (.stw 0 2 4 0)).load (stkBase + 0x1000) 5 = [0xFF, 0xFF, 0xFF, 0xF0, 5] ∧
    exc s (.ld 0 3 4 4) = some (3, 0) ∧ exc s (.ldw 0 3 2 0) = some (4, 0) ∧ exc user (.ld 0 3 4 0x100) = some (2, 0) := by decide +kernel
theorem witness_block_move :
    let t := after ((s.setReg 0 5 0x2000).setReg 0 6 8) (.bmov 0 6 4 5)
    t.load (stkBase + 0x2000) 9 = [1, 2, 3, 4, 5, 6, 7, 8, 0] ∧ t.reg 0 5 = 0x2008 ∧ t.reg 0 4 = 0x1008 ∧ t.reg 0 6 = 0 := by decide +kernel
/-- Obligations.PrivilegedInstructionsReachTheChip. -/
theorem witness_privilege : user.user 0 = true ∧ exc user (.waiti 0) = some (2, 0) ∧ exc user (.csrw 0 4 1 0) = some (2, 0) ∧ exc user (.send 0 3 1 [] 0) = some (2, 0) := by decide +kernel
theorem witness_registers_of_the_chip : (after (s.setReg 0 4 (BitVec.ofNat 64 (BOOT_WDOG.addr 0 0 0))) (.csrw 0 4 1 0)).f BOOT_WDOG_MS = 5 ∧
    (after (s.setReg 0 4 (BitVec.ofNat 64 (BOOT_WDOG.addr 0 0 0))) (.csrr 0 3 4 0)).reg 0 3 = 10000 := by decide +kernel
/-- Obligations.CoresWaitTrapAndHalt. -/
theorem witness_traps : exc s (.sysc 0 7) = some (6, 7) ∧ exc s (.brk 0) = some (7, 0) ∧ exc s (.illegalOpcode 0 0xFF) = some (1, 0) := by decide +kernel
/-- The example of R14: 12 s plus 250.75 ns. -/
theorem witness_time_instructions : (after { s with nt := (12 * 10 ^ 9 + 250) * 2 ^ 40 + 3 * 2 ^ 38 } (.rdnt 0 4)).reg 0 4 = 12000000250 ∧
    (after { s with nt := (12 * 10 ^ 9 + 250) * 2 ^ 40 + 3 * 2 ^ 38 } (.rdnt 0 4)).reg 0 5 = 0xC000 ∧
    (after { s with nt := 12 * 10 ^ 9 * 2 ^ 40 } (.waitt 0 1)).pc 0 = 8 ∧ (after s (.waiti 0)).pc 0 = 8 := by decide +kernel
theorem witness_halt_and_run : let t := after s (.coreHalt 0); (after (after s (.coreHalt 0)) (.nop 0)).pc 0 = t.pc 0 ∧
    (after s (.coreRun 1)).on STK_STAT_HALTED 1 = false := by decide +kernel
def trapped : State := { s with stk := { s.stk with exc := s.stk.exc.set 0 (some { cause := 6, code := 7 }) } }
/-- Obligations.HandlersAndMachineChecksAreEntered. -/
theorem witness_exception_entry : let t := after (trapped.setF STK_VEC_ADDR 0x800 0) (.exceptionEntry 0)
    t.pc 0 ≠ 0 ∧ t.on STK_STAT_PRIV 0 = true ∧ t.on STK_STAT_IEN 0 = false ∧ t.stk.exc.get 0 = none := by decide +kernel
def waiting : State := ((s.setF STK_STAT_IEN 1 0).setF STK_IE_EN 0xFFF 0).irq 3
theorem witness_interrupt_entry : waiting.takesIrq 0 = true ∧ (after (waiting.setF STK_VEC_ADDR 0x800 0) (.interruptEntry 0)).on STK_STAT_IEN 0 = false := by decide +kernel
/-- Obligations.RetiRestores. -/
theorem witness_reti : (after (((s.setF STK_EPC_ADDR 0x40 0).setF STK_STAT_IEN 0 0)) (.reti 0)).pc 0 = 0x40 := by decide +kernel
theorem witness_machine_check : let t := after (s.setF STK_MCVEC_ADDR 0x80 0) (.machineCheck 0 0 0 5 0 0 [])
    t.on STK_STAT_MC_ACTIVE 0 = true ∧ t.on UC_STAT_PAR = true ∧ t.f UC_ERR_ADDR = 5 ∧ t.flt.pend.length = 1 := by decide +kernel
theorem witness_host_messages : ((after s (.hosti 0 3 0 0x12)).ring 0).msgs.length = 1 ∧ ((after s (.hostis 0 3 1 0x12)).ring 1).msgs.length = 1 ∧
    (after s .swi).rget STK_IRQ_PEND ≠ 0 := by decide +kernel
/-- Obligations.SemaphoresAreFreedWithoutTheirHolder and Obligations.HostsAndSemaphoresAreServedByCores. -/
theorem witness_semaphores : (after s (.semts 0 3 5)).sem 5 = 3 ∧ (after (s.setSem 5 3) (.semrel 0 3 5)).sem 5 = 0 ∧ (after (s.setSem 5 1) (.semts 0 3 5)).sem 5 = 1 ∧
    (after (s.setSem 5 1) (.jorSemFree 5)).sem 5 = 0 ∧ (after { (s.setSem 5 2).setF JOR_SEM_CFG_TMO_MS 1 with cc := 2000000 } (.semRingTimeout 1)).sem 5 = 0 := by decide +kernel
def tbw : State := ((z.setReg 0 1 0x2000).setReg 0 4 1).store (stkBase + 0x2000) (w32 (3 * 2 ^ 13 + 2 * 2 ^ 25) ++ w32 17 ++ w32 0xDEADBEEF ++ w32 1 ++ w32 2 ++ w32 3 ++ List.replicate 40 0)
/-- Obligations.TableInstructionsWriteAndScan. -/
theorem witness_table_write_instruction : (after tbw (.tbw 0 3 1 4)).pc 0 = 8 ∧ (after tbw (.tbw 0 3 1 4)).reg 0 3 = 1 := by decide +kernel
def scan : State := { (z.setReg 0 1 0x1000).store (stkBase + 0x1000)
    (w32 (2 * 2 ^ 27 + 3 * 2 ^ 22 + 32760) ++ w32 100 ++ w32 0xFF ++ w32 0 ++ w32 0 ++ w32 0 ++ w32 0x42 ++ List.replicate 20 0) with
  tab := { State.reset.tab with sram := State.reset.tab.sram.set (sramKey 2 3 5) 0x342 } }
theorem witness_table_scan : (after scan (.tscan 0 3 1)).reg 0 3 = 5 := by decide +kernel
/-- Obligations.CommitAndSendInstructionsAct. -/
theorem witness_commit_instruction : (after ((State.reset.setReg 0 1 9).setReg 0 4 100) (.cmt 0 3 1 4 0)).f GEN_STAT_CSTATE ≠ 0 := by decide +kernel
def send : State := (((z.setReg 0 1 0x3000).store (stkBase + 0x3000) (w32 (2 ^ 31 + 2 ^ 30 + 5 * 2 ^ 20 + 1) ++ w32 60 ++ w32 0x4000 ++ List.replicate 20 0)).setF MAC_PORT_STAT_STATE 3 1).setF DOM_PORT_STAT_STATE 3 1
theorem witness_send : ((after send (.send 0 3 1 [] 0)).mp 1).gen.length = 1 ∧ (after send (.send 0 3 1 [] 0)).reg 0 3 = 0 := by decide +kernel
def ring : State := ((((z.setF STK_CR_CFG_EN 1 0).setF STK_CR_TAIL_INDEX 5 0).setF STK_CR_BASE_BASE 0x100 0).store (stkBase + 0x4000) (w32 77)).setReg 0 1 0x4000
theorem witness_command_rings : (after ring (.crnext 0 3 0)).pc 0 = 8 ∧ (after { ring with stk := { ring.stk with dup := ring.stk.dup.set 0 [{ id := 77 }] } } (.crdone 0 3 1 4 0)).pc 0 = 8 ∧
    (after ring (.commandRingTailWrite 0 3)).f STK_CR_TAIL_INDEX 0 = 3 := by decide +kernel
/-- Obligations.StokerRingsAreServed. -/
theorem witness_rings : (after ring (.ringCfgWrite 0 0)).on STK_CR_CFG_EN 0 = false ∧
    (let t : State := { (ring.setF STK_RX_CFG_EN 1 32).setF STK_RX_BASE_BASE 0x200 32 with stk := { ring.stk with rx := ring.stk.rx.set 32 [{ aux := true, ended := true, bytes := [1, 2, 3], len := 64 }] } };
     (after t (.rxRingWrite 32 0)).stk.rx.get 32) = [] := by decide +kernel
theorem witness_phase : (after ((s.setF STK_STAT_HALTED 0 0).setReg 0 1 0) (.phase 0 3 1 0)).pc 0 = 8 := by decide +kernel
/-! The other clauses of the statements above. -/
def act (s : State) : State := s.setF STK_STAT_MC_ACTIVE 1 0
def halting : State := { trapped with stk := { trapped.stk with haltReq := trapped.stk.haltReq.set 0 true } }
theorem witness_other_traps : exc s (.rdnt 0 5) = some (1, 0) ∧ exc s (.rdnt 0 0) = some (1, 0) ∧ (after { s with nt := 4 } (.waitt 0 1)).pc 0 = 0 ∧ exc s (.shli 0 3 1 64) = some (1, 0) ∧
    exc s (.illegalOpcode 0 (BitVec.ofNat 64 (0x58 * 2 ^ 56))) = none ∧ exc s (.illegalOpcode 0 (BitVec.ofNat 64 (0x59 * 2 ^ 56))) = some (1, 0) := by decide +kernel
theorem witness_halts : trapped.on STK_STAT_HALTED 0 = false ∧ (after trapped (.coreHalt 0)).stk.haltReq.get 0 = true ∧ (after trapped (.coreHalt 0)).on STK_STAT_HALTED 0 = false ∧
    (after halting (.exceptionEntry 0)).on STK_STAT_HALTED 0 = true ∧ (after (after halting (.exceptionEntry 0)) (.coreRun 0)).on STK_STAT_HALTED 0 = false := by decide +kernel
theorem witness_machine_check_cases : s.stk.exc.get 0 = none ∧ s.stk.waiting.get 0 = false ∧ s.stk.haltReq.get 0 = false ∧
    (after (act s) (.machineCheck 0 3 0 5 0 0 [])).f STK_STAT_HALT_CAUSE 0 = 2 ∧ (after s (.machineCheck 0 4 0 0x7F 0 0 [])).f UC_ERR_ADDR = 63 ∧ (after s (.machineCheck 0 4 0 5 0 0 [])).cval C_UC_PAR_ERR = 1 ∧
    (after ((act s).setF STK_MC_RESUME_ADDR 0x60 0) (.reti 0)).pc 0 = 0x60 ∧ (after (act s) (.reti 0)).on STK_STAT_MC_ACTIVE 0 = false := by decide +kernel
def fullRing : State := s.setRing 0 { s.ring 0 with msgs := List.replicate 16 {} }
theorem witness_host_message_cases : exc s (.hosti 0 3 0 0x8000) = some (1, 0) ∧ ((after fullRing (.hostis 0 3 0 5)).ring 0).msgs.length = 16 ∧ (after fullRing (.hosti 0 3 0 5)).cval C_JOR_MSG_DROP 0 = 1 ∧
    (after fullRing (.hostis 0 3 0 5)).f STK_STAT_HALT_CAUSE 0 = 1 ∧ exc s (.semts 0 3 64) = some (1, 0) ∧ (after (s.setSem 5 2) (.semrel 0 3 5)).sem 5 = 2 ∧
    (after (s.setSem 5 2) (.semRingTimeout 1)).sem 5 = 2 := by decide +kernel
def desc (w0 w1 : Nat) : State := (z.setReg 0 1 0x1000).store (stkBase + 0x1000) (w32 w0 ++ w32 w1 ++ w32 0xFF ++ List.replicate 12 0 ++ w32 0x42 ++ List.replicate 20 0)
theorem witness_table_scan_cases : (after (desc (2 * 2 ^ 27 + 3 * 2 ^ 22 + 32760) 100) (.tscan 0 3 1)).reg 0 3 = 2 ^ 62 ∧ (after (desc 5 32768) (.tscan 0 3 1)).sram32 0x1004 = 30720 ∧
    [desc 5 0, desc 5 32769, desc (18 * 2 ^ 22) 5].map (exc · (.tscan 0 3 1)) = [some (1, 0), some (1, 0), some (1, 0)] ∧
    exc (z.setReg 0 1 8) (.tscan 0 3 1) = some (3, 0) ∧ exc (z.setReg 0 1 0xFFFFE0) (.tscan 0 3 1) = some (4, 0) := by decide +kernel
theorem witness_table_write_cases : [(0x2000, 0), (0x2000, 257), (0x2010, 1), (0xFFFFC0, 2)].map (fun p => exc ((tbw.setReg 0 1 p.1).setReg 0 4 p.2) (.tbw 0 3 1 4)) = [some (1, 0), some (1, 0), some (3, 0), some (4, 0)] ∧
    tbw.tbwWaits (tbw.load (stkBase + 0x2000) 64) = false ∧ (tbw.setF STG_ACC_STAT_BUSY 1 (natBits (3 * 2 ^ 13 + 2 * 2 ^ 25) 25 5)).tbwWaits (tbw.load (stkBase + 0x2000) 64) = true := by decide +kernel
def req : State := let g := { State.reset with cc := 50000 }.setF GEN_STAT_CSTATE 4; { g with gen := { g.gen with req := some { num := 5, tc := 100 } } }
theorem witness_commit_instruction_cases : (after req (.cmt 0 3 1 4 16)).reg 0 3 = 3 ∧ (after State.reset (.cmt 0 3 1 4 16)).reg 0 3 = 4 ∧ (after State.reset (.cmt 0 3 1 4 16)).gen = State.reset.gen ∧
    (after ((({ State.reset with cc := 50000 }.setF GEN_STAT_CSTATE 0).setReg 0 1 9).setReg 0 4 100) (.cmt 0 3 1 4 0)).reg 0 3 = 1 ∧ (after req (.cmt 0 3 1 4 0)).reg 0 3 = 2 := by decide +kernel
def sendTo (len queue : Nat) (s : State) : State := s.store (stkBase + 0x3000) (w32 (2 ^ 31 + 2 ^ 30 + queue * 2 ^ 16 + 1) ++ w32 len ++ w32 0x4000 ++ List.replicate 20 0)
def code (s : State) : BitVec 64 := (after s (.send 0 3 1 [] 0)).reg 0 3
theorem witness_send_cases : [code (sendTo 59 5 send), code (sendTo 15997 5 send), code (sendTo 60 12 send), code (sendTo 60 11 (send.setF MAC_PORT_STAT_STATE 2 1)),
      code (send.setMp 1 fun m => { m with gen := List.replicate 4 { direct := true } })] = [3, 3, 3, 2, 1] ∧
    (after (send.setMp 1 fun m => { m with gen := List.replicate 4 { direct := true } }) (.send 0 3 1 [] 0)).cval C_STK_SEND_DROP = 1 ∧
    exc (send.setReg 0 1 0x3010) (.send 0 3 1 [] 0) = some (3, 0) ∧ exc (send.setReg 0 1 0x1000000) (.send 0 3 1 [] 0) = some (4, 0) := by decide +kernel
/-- Entry 0 of ring 0 has REQ_ID 0x51 and is in the window as `l` says. -/
def entry (l : List DupEntry) : State := { (ring.store (stkBase + 0x4000) (w32 0x51)) with stk := { ring.stk with dup := ring.stk.dup.set 0 l } }
def next (s : State) : BitVec 64 := (after s (.crnext 0 3 0)).reg 0 3
theorem witness_command_ring_next : [next (ring.setF STK_CR_CFG_EN 0 0), next (ring.setF STK_CR_TAIL_INDEX 0 0), next (entry []), next (entry [{ id := 0x51 }]), next (entry [{ id := 0x51, done := true, status := 2 ^ 31 + 7, result := 9 }])] =
      [2 ^ 63, 2 ^ 63, 0x4000, 2 ^ 62 + 0x4000, 2 ^ 62 + 0x4000] ∧ (after (entry []) (.crnext 0 3 0)).stk.dup.get 0 = [{ id := 0x51 }] ∧ (after (entry []) (.crnext 0 3 0)).f STK_CR_HEAD_INDEX 0 = 1 ∧
    (after (entry [{ id := 0x51 }]) (.crnext 0 3 0)).sram32 0x4030 = 2 ^ 30 ∧
    (after (entry [{ id := 0x51, done := true, status := 2 ^ 31 + 7, result := 9 }]) (.crnext 0 3 0)).sram32 0x4030 = 2 ^ 31 + 2 ^ 30 + 7 ∧
    (after (entry [{ id := 0x51, done := true, status := 7, result := 9 }]) (.crnext 0 3 0)).sram32 0x4034 = 9 ∧ (after (entry [{ id := 0x51 }]) (.crnext 0 3 0)).cval C_STK_CR_DUP0 = 1 := by decide +kernel
theorem witness_command_ring_done : let d (s : State) : State := after (s.setReg 0 4 0x900000003) (.crdone 0 3 1 4 0)
    (d (entry [{ id := 0x51 }])).stk.dup.get 0 = [{ id := 0x51, done := true, status := 2 ^ 31 + 3, result := 9 }] ∧ (d (entry [{ id := 0x51 }])).reg 0 3 = 0 ∧ (d (entry [])).reg 0 3 = 1 ∧ (d (entry [])).sram32 0x4034 = 9 ∧
    exc (ring.setReg 0 1 0x4020) (.crdone 0 3 1 4 0) = some (3, 0) ∧ exc (ring.setReg 0 1 0x4400) (.crdone 0 3 1 4 0) = some (3, 0) ∧ exc (ring.setReg 0 1 0x3FC0) (.crdone 0 3 1 4 0) = some (3, 0) := by decide +kernel
def waitsIn (r : Fin 34) (x : RxFrame) : State := { (ring.setF STK_RX_CFG_EN 1 r).setF STK_RX_BASE_BASE 0x200 r with stk := { ring.stk with rx := ring.stk.rx.set r [{ aux := x.aux, bytes := [1, 2] }, x] } }
theorem witness_ring_slots : let x : RxFrame := { aux := true, ended := true, bytes := [1, 2, 3], len := 64 }
    (after (waitsIn 32 x) (.rxRingWrite 32 0)).f STK_RX_HEAD_INDEX 32 = 1 ∧ ((after (waitsIn 32 x) (.rxRingWrite 32 0)).stk.rx.get 32).length = 1 ∧
    natBit ((after (waitsIn 32 x) (.rxRingWrite 32 0)).f STK_IRQ_PEND_PEND) 3 = true ∧ natBit ((after (waitsIn 31 { x with aux := false }) (.rxRingWrite 31 0)).f STK_IRQ_PEND_PEND) 2 = true ∧
    (after ((waitsIn 32 x).setF STK_RX_CFG_EN 0 32) (.rxRingWrite 32 0)).cval C_STK_RX_DROP = 1 ∧ (after ((waitsIn 32 x).setF STK_RX_TAIL_INDEX 1 32) (.rxRingWrite 32 0)).cval C_STK_RX_DROP = 1 ∧
    ((waitsIn 32 { x with ended := false }).stk.rx.get 32).find? (·.ended) = none := by decide +kernel
theorem witness_ring_set_up : (after ring (.ringCfgWrite 0 0x8000000F)).f STK_CR_CFG_LOG2 0 = 12 ∧ (after ring (.ringCfgWrite 1 3)).f STK_CR_CFG_LOG2 1 = 4 ∧
    (after ring (.ringCfgWrite 2 0x81FF0005)).f STK_RX_CFG_SLOT 0 = 258 ∧ (after ring (.ringCfgWrite 35 0)).f STK_RX_CFG_SLOT 33 = 2 ∧ (after (entry [{ id := 1 }]) (.ringCfgWrite 0 0)).stk.dup.get 0 = [] := by decide +kernel
end Stk

/-! ### Lanes, ports and trunks -/

namespace Lane
def lane (st : Nat) (n : Fin 514) : State :=
  { State.reset.setF LANE_OCT_STAT_PLL_LOCK 1 0 with cc := 9000000000, lanes := { auxLock := 3 } }.setF LANE_STAT_STATE st n
def st (s : State) (c : Instr) (n : Nat) : Nat := (after s c).f LANE_STAT_STATE n
def cfg : GenSlot := ({} : GenSlot).rset MAC_PORT_CFG (wordPut (wordPut 0x24000000 4 3 1) 0 1 1) 0

/-- Obligations.LanesTrainServeAndFail, first part: the premises of each clause hold, and each event of R78's table takes the lane on. -/
theorem witness_lanes_train :
    ((lane 0 1).safe = false ∧ (lane 0 1).pllLocked 1 = true ∧ (lane 0 1).auxAsleep 1 = false ∧ (lane 0 1).prbsOn 1 = false ∧ (lane 0 1).f LANE_CTL_LOOP 1 = 0 ∧
      State.reset.pllLocked 8 = false) ∧
    [st (lane 0 1) (.laneEnable 1) 1, st State.reset (.laneEnable 8) 8, st (lane 1 1) (.partnerFrameLock 1) 1, st (lane 2 1) (.trainConverged 1) 1,
      st (lane 3 1) (.partnerReady 1) 1, st (lane 5 1) (.laneDisable 1) 1] = [1, 0, 2, 3, 4, 0] := by decide +kernel
theorem witness_ports_align : ((lane 4 0).setSlot 0 cfg).siblings 0 = [0] ∧ st ((lane 4 0).setSlot 0 cfg) (.portAligned 0 [1800]) 0 = 5 ∧
    st (lane 3 0) (.portAligned 0 [0]) 0 = 3 := by decide +kernel
theorem witness_training_ends : (lane 2 1).siblings 1 = [1] ∧ (lane 2 1).training 1 = true ∧ st (lane 2 1) (.trainingSignalLoss 1) 1 = 1 ∧
    st (lane 2 1) (.trainTmoExpiry 1) 1 = 6 ∧ st { lane 2 1 with cc := 749999999 } (.trainTmoExpiry 1) 1 = 2 ∧
    st { lane 2 1 with cc := 750000000 } (.trainTmoExpiry 1) 1 = 6 := by decide +kernel
theorem witness_backoff : st (lane 6 1) (.backoffEnd 1) 1 = 1 ∧ st (lane 6 1) (.backoffSignalPresent 1) 1 = 1 := by decide +kernel

/-- The second part: a lane in DATA, awake, in receive Ember and in transmit Ember. -/
def ember : State := (lane 5 1).setF LANE_STAT_RX_EMBER 1 1
def sending : State := (lane 5 1).setF LANE_STAT_TX_EMBER 1 1
theorem witness_lanes_in_data : (lane 5 1).siblings 1 = [1] ∧ [2, 3, 4, 6].map (fun c => st (lane 5 1) (.laneFailure 1 (Fin.ofNat 16 c) []) 1) = [1, 1, 5, 1] ∧
    st ember (.laneFailure 1 2 []) 1 = 5 ∧ (after (lane 5 1) (.laneFailure 1 4 [(3, 2)])).cval C_LANE_FEC_SYM 1 = 2 ∧
    st (lane 5 1) (.laneFailure 1 4 (List.replicate 8 (0, 16))) 1 = 5 ∧ st (lane 5 1) (.laneFailure 1 4 (List.replicate 9 (0, 16))) 1 = 1 ∧ (after (lane 5 1) (.adaptationFreeze 1)).on LANE_STAT_FROZEN 1 = true ∧
    (after (after (lane 5 1) (.adaptationFreeze 1)) (.adaptationResume 1)).on LANE_STAT_FROZEN 1 = false := by decide +kernel
/-- A marker block of R70 with SEQ `q` for a port of `width` lanes, LANE_IDX 0. -/
def mark (q : Nat) (width : Nat := 1) : BitVec 257 :=
  let w := 0x5CD1E3 * 2 ^ 24 + width * 2 ^ 8 + q
  BitVec.ofNat 257 (w * 2 ^ 209 + (2 ^ 48 - 1 - w) * 2 ^ 161)
def marked (good bad : Nat) : State := (lane 5 1).setLn 1 (fun x => { x with goodMarks := good, badMarks := bad, seq := some 255 })
/-- R71: SEQ counts modulo 256, the complement is checked, and spacing counts. -/
theorem test_marker_fields : [markerValid (some 255) (mark 0), markerValid (some 254) (mark 0), markerValid none (mark 9), markerValid none (mark 9 ^^^ BitVec.ofNat 257 (2 ^ 161))] =
    [true, false, true, false] := by decide +kernel
theorem witness_markers : (after (marked 1 2) (.markerReceived 1 false (mark 0) 4096 [])).on LANE_STAT_AM_LOCK 1 = true ∧
    ((after (marked 1 2) (.markerReceived 1 false (mark 0) 4096 [])).ln 1).badMarks = 0 ∧
    (after (marked 1 2) (.markerReceived 1 false (mark 0) 4095 [])).on LANE_STAT_AM_LOCK 1 = false ∧
    st (marked 1 1) (.markerReceived 1 true (mark 7) 4096 []) 1 = 5 ∧ st (marked 1 2) (.markerReceived 1 true (mark 7) 4096 []) 1 = 1 := by decide +kernel
theorem witness_ember : (lane 5 1).laneRate 0 1 ≤ 2 ∧ (after (lane 5 1) (.rxEmberEntry 1)).on LANE_STAT_RX_EMBER 1 = true ∧
    (after ember (.rxEmberExit 1)).on LANE_STAT_RX_EMBER 1 = false ∧ sending.laneLpi 1 = false ∧ (after sending (.emberExit 1)).on LANE_STAT_TX_EMBER 1 = false ∧
    ((after sending (.emberRefresh 1)).ln 1).refreshAt = 9000000000 ∧ st ember (.emberRefreshMiss 1) 1 = 1 := by decide +kernel
/-- Two markers that do not fit the port, a marker of a slower lane as IEEE 802.3 judges it, and a lane in receive Ember. -/
theorem witness_marker_cases : (after (marked 1 2) (.markerReceived 1 true (mark 0 2) 4096 [])).f LANE_STAT_FAIL_CAUSE 1 = 6 ∧
    (((marked 1 2).setLn 1 fun x => { x with misWidth := true }).mismatch ((marked 1 2).siblings 1)) = true ∧
    (after (ember.setLn 1 fun x => { x with badMarks := 2 }) (.markerReceived 1 false (mark 7) 4096 [])).f LANE_STAT_STATE 1 = 5 ∧
    (after (marked 0 2) (.markerReceived 1 false (mark 7) 4096 [])).f LANE_STAT_FAIL_CAUSE 1 = 3 := by decide +kernel
theorem witness_slow_markers : (lane 5 512).laneRate 0 512 ≠ 0 ∧ (after ((lane 5 512).setLn 512 fun x => { x with goodMarks := 1 }) (.markerReceived 512 true 0 7 [])).on LANE_STAT_AM_LOCK 512 = true ∧
    ((after (lane 5 512) (.markerReceived 512 false 0 7 [])).ln 512).badMarks = 1 := by decide +kernel
def asleep : State := (((lane 5 0).setSlot 0 cfg).setF MAC_PORT_STAT_STATE 3 0).setMp 0 (fun m => { m with asleep := true })
theorem witness_ember_entry : asleep.laneLpi 0 = true ∧ (after asleep (.emberEntry 0)).on LANE_STAT_TX_EMBER 0 = true := by decide +kernel

/-- Obligations.LaneClocksPatternsAndAuxPorts. -/
def prbs : State := (((lane 8 1).setF LANE_PRBS_GEN_EN 1 1).setF LANE_PRBS_CHK_EN 1 1).setF LANE_PRBS_CHK_LOCK 1 1
/-- `n` bits of a pattern after a register of ones. -/
def pattern (p r : Nat) : Nat → List Bool
  | 0 => []
  | n + 1 => patternBit p r :: pattern p (patternPush r (patternBit p r)) n
theorem witness_clocks : (after (lane 0 1) (.refclkPresent 0)).on LANE_REFCLK_PRESENT 0 = true ∧
    (after ((lane 0 1).setF LANE_REFCLK_PRESENT 1 1) (.pllLock 8)).on LANE_OCT_STAT_PLL_LOCK 8 = true := by decide +kernel
theorem witness_clock_lost : let t := after (((lane 5 1).setF LANE_REFCLK_PRESENT 1 0)) (.refclkLost 0)
    t.on LANE_OCT_STAT_PLL_LOCK 0 = false ∧ t.f LANE_STAT_STATE 1 = 0 ∧ t.f LANE_STAT_FAIL_CAUSE 1 = 7 := by decide +kernel
theorem witness_patterns : (after (lane 0 1) (.prbsEnable 1 true true 9)).f LANE_PRBS_PATTERN 1 = 5 ∧ st (lane 0 1) (.prbsEnable 1 true true 3) 1 = 8 ∧
    ((after prbs (.insertErr 1)).ln 1).inverted.length = 1 ∧ (after (prbs.setF LANE_PRBS_CHK_LOCK 0 1) (.prbsCheckerLock 1 (pattern 0 127 1031))).on LANE_PRBS_CHK_LOCK 1 = true ∧
    (after (prbs.setF LANE_PRBS_CHK_LOCK 0 1) (.prbsCheckerLock 1 (pattern 0 127 1030))).on LANE_PRBS_CHK_LOCK 1 = false ∧
    (after prbs (.prbsLockLost 1 (List.replicate 64 true))).on LANE_PRBS_CHK_LOCK 1 = true ∧ (after prbs (.prbsLockLost 1 (List.replicate 65 true))).on LANE_PRBS_LOCK_LOST 1 = true := by decide +kernel
theorem witness_loops_and_aux : (after (lane 0 1) (.laneLoopChange 1 3)).f LANE_CTL_LOOP 1 = 3 ∧ (after (lane 0 1) (.laneLoopChange 1 4)).f LANE_CTL_LOOP 1 = 0 ∧
    (after State.reset (.laneAuxCfgWrite 0 4)).f LANE_AUX_CFG_RATE 0 = 4 ∧ (after State.reset (.laneAuxCfgWrite 0 1)).on LANE_AUX_CFG_CFG_ERR 0 = true ∧
    (after State.reset (.laneAuxCfgWrite 0 5)).on LANE_AUX_CFG_CFG_ERR 0 = true ∧ (after State.reset (.auxSleep 1)).on MAC_AUX_CTL_SLEEP 1 = true ∧
    (after (((lane 0 1).setF MAC_AUX_CTL_SLEEP 1 0).setF MAC_AUX_CTL_WAKE_EN 1 0) (.auxWakePattern 0)).on MAC_AUX_CTL_WAKE 0 = true := by decide +kernel
end Lane

namespace Port
def z : State := { State.reset with cc := 9000000, nt := 5 * 2 ^ 40 }
def port (st dom : Nat) : State := (z.setF MAC_PORT_STAT_STATE st 0).setF DOM_PORT_STAT_STATE dom 0
def ready : State := ((port 1 0).setF LANE_STAT_STATE 5 0).setSlot 0 Lane.cfg
def st (s : State) (c : Instr) : Nat := (after s c).f MAC_PORT_STAT_STATE 0

/-- Obligations.PortsComeUpGoDownAndCrossThresholds. -/
theorem witness_port_up : ready.linkReady 0 = true ∧ st ready (.portUp 0) = 3 ∧ (after ready (.portUp 0)).f DOM_PORT_STAT_STATE 0 = 1 ∧
    st (ready.setF TM_PORT_STAT_FLUSHING 1 0) (.portUp 0) = 2 ∧ st (port 1 0) (.portUp 0) = 1 ∧ (after (ready.setF DOM_PORT_STAT_STATE 3 0) (.portUp 0)).f DOM_PORT_STAT_STATE 0 = 3 := by decide +kernel
def flushing : State := ((port 2 0).setF TM_PORT_STAT_FLUSHING 1 0).setTp 0 (fun t => { t with flushEnd := 9000000 })
theorem witness_flush_done : st flushing (.flushDone 0 0) = 3 ∧ st { flushing with cc := 8999999 } (.flushDone 0 0) = 2 := by decide +kernel
theorem witness_port_faults : [st (port 3 2) (.localFaultRx 0 true), st (port 2 0) (.localFaultRx 0 true), st (port 0 0) (.localFaultRx 0 true), st (port 3 2) (.remoteFaultRx 0)] = [1, 1, 0, 3] ∧
    (after (port 3 2) (.localFaultRx 0 true)).on MAC_PORT_STAT_DOWN_EV 0 = true ∧ (after (port 3 2) (.localFaultRx 0 true)).on TM_PORT_STAT_FLUSHING 0 = true ∧
    (after (after (port 3 2) (.remoteFaultRx 0)) (.remoteFaultClear 0)).on MAC_PORT_STAT_RF 0 = false := by decide +kernel
def busy : State := { (port 3 2).setMp 0 (fun m => { m with gen := [{ direct := true }], trunkFault := true }) with fwd := { z.fwd with copies := [(4, { state := .sending, port := 0 })] } }
theorem witness_port_left : let t := after busy (.localFaultRx 0 true)
    busy.fwd.copies.wf = true ∧ (t.copy 4).state = .none ∧ (t.mp 0).gen = [] ∧ (after (after busy (.localFaultRx 0 true)) (.localFaultRx 0 false)).on MAC_PORT_STAT_LF 0 = true ∧
    (after (after (port 3 2) (.localFaultRx 0 true)) (.localFaultRx 0 false)).on MAC_PORT_STAT_LF 0 = false := by decide +kernel
def faulty : State := (after (port 3 2) (.remoteFaultRx 0))
theorem witness_remote_fault_timeout : (faulty.mp 0).rfFrom = some 9000000 ∧ st { faulty with cc := 10499999 } (.remoteFaultTimeout 0) = 3 ∧
    st { faulty with cc := 10500000 } (.remoteFaultTimeout 0) = 1 := by decide +kernel
def second : State := { (((z.setF MAC_CT_T_CUR 5 1).setF MAC_CT_T_BASE 2 1).setF MAC_CT_T_CUR 7 2).setMp 2 (fun m => { m with underrun := true }) with nt := 3 * 10 ^ 9 * 2 ^ 40 + 7 }
theorem witness_thresholds : second.time.secondDone < ntSec second.nt ∧ ntSec z.nt ≤ z.time.secondDone ∧ (after second (.macCtWrite 1 9)).f MAC_CT_T_CUR 1 = 9 ∧
    (after second (.macCtWrite 1 3)).f MAC_CT_T_CUR 1 = 5 ∧ second.f MAC_CT_T_BASE 1 < second.f MAC_CT_T_CUR 1 ∧ (second.mp 2).underrun = true := by decide +kernel

/-- Obligations.PortsPauseAndSleep. -/
def paused : State := ((port 3 2).setMp 0 (fun m => { m with pauseEnd := 7, decode := [{ at_ := 9000000, times := [0x100], pfc := false }] })).setSlot 0 Lane.cfg
def pfc : State := ((port 3 2).setMp 0 (fun m => { m with decode := [{ at_ := 5, times := [0, 9, 8, 0, 7], vector := 0x1B, pfc := true }] })).setSlot 0 Lane.cfg
theorem witness_pause : natBit (paused.f MAC_FC_CFG_PAUSE_EXEMPT 0) 3 = false ∧ (after paused (.pauseDecode 0)).fcPaused 0 3 9000001 = true ∧
    ((after { paused with cc := 8999999 } (.pauseDecode 0)).mp 0).decode = (paused.mp 0).decode ∧ ((after paused (.pauseTimerExpiry 0)).mp 0).pauseEnd = 0 ∧
    ((after pfc (.pfcDecode 0)).mp 0).decode = [] ∧ (after pfc (.pfcDecode 0)).fcPaused 0 1 9000001 = true := by decide +kernel
def eee : State := ((port 3 3).setF MAC_EEE_EN 1 0).setMp 0 (fun m => { m with idleFrom := some 0 })
def sleeper : State := (eee.setMp 0 (fun m => { m with asleep := true })).setQueue 0 3 [7]
def waker : State := eee.setMp 0 (fun m => { m with lpiExit := some 8985000 })
theorem witness_lpi : (eee.isTrunk eee.active 0 = false ∧ natBit (eee.f CHIP_MODE_MODE) 2 = false ∧ eee.sendingOn 0 = [] ∧ eee.flushable 0 = []) ∧
    (after eee (.lpiEntry 0)).on MAC_PORT_STAT_LPI_TX 0 = true ∧ (after { eee with cc := 14999 } (.lpiEntry 0)).on MAC_PORT_STAT_LPI_TX 0 = false ∧
    (after (eee.setQueue 0 3 [7]) (.lpiEntry 0)).on MAC_PORT_STAT_LPI_TX 0 = false ∧ ((after sleeper (.lpiExit 0)).mp 0).lpiExit = some 9000000 ∧
    (after sleeper (.lpiExit 0)).queuePaused 0 5 9000000 = true ∧ waker.f MAC_EEE_TW_TX_US 0 = 1 ∧ ((after waker (.lpiWakeEnd 0)).mp 0).lpiExit = none ∧
    ((after { waker with cc := 8986499 } (.lpiWakeEnd 0)).mp 0).lpiExit = some 8985000 := by decide +kernel
end Port

/-! Obligations.TrunksFrameTheirMembers: a group of three member lanes. -/
namespace Trunk
def cfg : GenSlot := ((({} : GenSlot).rset TRK_GRP_CFG (BitVec.ofNat 32 (2 ^ 31 + 2 ^ 17 + 7)) 0 0).rset TRK_GRP_ID 0x0B0A 0 0).rset MAC_PORT_CFG (wordPut (wordPut 0x24000000 4 3 7) 0 1 1) 0
def members : State :=
  let s := [0, 1, 2].foldl (fun s n => s.setF LANE_STAT_STATE 5 n) ({ State.reset with cc := 5000 }.setSlot 0 cfg)
  [0, 1, 2].foldl (fun s n => (s.setF TRK_MEM_STAT_STATE 7 n).setTmem n (fun x => { x with align := 2, mfc := 100 + n, arr := 4000 + n })) s
def put (a h m : Nat) : State := members.setTmem 0 (fun x => { x with align := a, hits := h, misses := m })
def ovh : List Byte := trunkOvh 101 0x0B 0 false true 5 0x33 0 7 7
def al (s : State) (o : List Byte) : Nat × Nat := (((after s (.trunkFrameRx 0 o 1024)).tmem 0).align, (after s (.trunkFrameRx 0 o 1024)).f TRK_MEM_STAT_STATE 0)
theorem witness_trunk_frames : members.memGroup 0 = some 0 ∧ members.laneData 0 = true ∧ members.memGroup 16 = none ∧ ovhValid ovh = true ∧ ovhValid [] = false ∧
    [al (put 0 0 0) ovh, al (put 0 0 0) [], al (put 1 1 0) [], al (put 1 1 0) ovh, al (put 1 2 0) ovh, al members ovh, al (put 2 0 2) [], al (put 2 0 3) []] =
    [(1, 2), (0, 7), (0, 1), (1, 7), (2, 7), (2, 7), (2, 7), (0, 1)] := by decide +kernel
def sender : State := members.setTgrp 0 0 (fun x => { x with rel := some 99, act := 7, bptr := 2, txMfc := 65535, txBptr := 1 })
theorem witness_trunk_send : sender.caOn TRK_GRP_CFG_EN 0 0 = true ∧ sender.grpLanes 0 0 = [0, 1, 2] ∧ sender.usable 0 0 = [0, 1, 2] ∧
    ((after sender (.trunkFrameTx 0 0 5)).tgrp 0 0).txMfc = 0 ∧ ((after sender (.trunkFrameTx 0 0 5)).tgrp 0 0).sent.length = 3 := by decide +kernel
theorem witness_trunk_release : (∀ n ∈ sender.usable 0 0, 0 ≤ mfcDiff (sender.tmem n).mfc 100) ∧ ((after sender (.deskewRelease 0 0)).tgrp 0 0).rel = some 100 ∧
    (∀ n ∈ sender.usable 0 0, mfcDiff (sender.tmem n).mfc 301 < 0) ∧
    (after (sender.setF TRK_MEM_STAT_STATE 1 1) (.deskewRelease 0 0)).cnt.map (·.2) = [992] := by decide +kernel
def fifos (r t : Nat) : State := members.setFsp 1 { rx := List.replicate r 0x41, tx := List.replicate t 0x42 }
theorem witness_flue : ((after (fifos 2 63) (.flueTxWrite 1 0x43)).fsp 1).tx.length = 64 ∧ (after (fifos 2 64) (.flueTxWrite 1 0x43)).on TRK_FSP_STAT_TX_FULL 1 = true ∧
    ((after (fifos 2 0) (.flueRxRead 1)).fsp 1).rx.length = 1 ∧ ((after (fifos 0 0) (.flueRxRead 1)).fsp 1).rx = [] := by decide +kernel
end Trunk

/-! ### Frames, cells, egress and queues -/

namespace Rx
def lead (et : Nat) (da : List Byte) (n : Nat) : List Byte := bytesAt (bytesAt da 0 6 ++ List.replicate 6 7 ++ natBytes 2 et ++ [0, 1, 0, 9]) 0 n
def hello : List Byte := [0x03, 0x4E, 0x48, 0x00, 0x00, 0x01]
def base : State := (({ State.reset with cc := 60000, nt := 5 * 2 ^ 40 }.setSlot 0 Lane.cfg).setF MAC_PORT_STAT_STATE 3 0).setF GEN_ACTIVE_NUM 9
def waits (s : State) (bs : List (List Byte)) : State := { s with fwd := { s.fwd with wait := s.fwd.wait.set 0 (bs.map fun b => { bytes := b, ready := 2 ^ 39 }) } }
def one : State := waits base [lead 0x800 [] 60, lead 0x800 [] 64]

/-- Obligations.FramesStartEndAndReturn, start: fewer than four waiting, four waiting, no slot, a HELD port, MAC control and a hello. -/
theorem witness_start_blocks : ((after one (.startBlockReady 0 [1])).fwd.wait.get 0).length = 3 ∧
    (after (waits base [[], [], [], []]) (.startBlockReady 0 [1])).cval C_PRS_SLOT_DROP 0 = 1 ∧ one.freeSlot 0 = some 0 ∧
    { one with cc := 60001 }.freeSlot 0 = none ∧ (after { one with cc := 60001 } (.receiveFrame 0 [])).fwd.nextFrame = one.fwd.nextFrame := by decide +kernel
theorem witness_held_and_control : (after (one.setF MAC_PORT_STAT_STATE 2 0) (.receiveFrame 0 [])).cval C_RX_HELD_DROP 0 = 1 ∧
    ((after (waits base [lead 0x8808 [] 64]) (.receiveFrame 0 [])).frame 1).control = true ∧
    ((after (waits base [lead 0x88B5 hello 64]) (.receiveFrame 0 [])).frame 1).hello = true := by decide +kernel
theorem witness_frame_received : let t := after one (.receiveFrame 0 [])
    (t.frame 1).stage = .ingress ∧ (t.frame 1).gen = 9 ∧ t.fwd.slotUsed = [0] ∧ t.f GEN_SLOT_INFL_COUNT 0 = 1 ∧
    bytesAt (t.frame 1).record 0x1C0 18 = ntBytes (5 * 2 ^ 40) ++ [0, 0, 0, 9, 0, 0] := by decide +kernel
def looped : State := (one.setF LANE_STAT_STATE 7 0).setF LANE_CTL_LOOP 1 0
def noIn : State := waits base []
/-- Near-end loopback, a port that is neither UP nor HELD, and no start block waiting; then the oldest frame of a trunk port's group. -/
theorem witness_start_block_cases : looped.looped 0 = true ∧ base.looped 0 = false ∧ base.trunkKey 0 = none ∧ (after looped (.startBlockReady 0 [1])).fwd.wait = looped.fwd.wait ∧
    (after (one.setF MAC_PORT_STAT_STATE 1 0) (.startBlockReady 0 [1])).fwd.wait = one.fwd.wait ∧ (after noIn (.receiveFrame 0 [])).fwd.nextFrame = noIn.fwd.nextFrame := by decide +kernel
def trunkIn (l : List (List Byte × Bool)) : State :=
  let s := (({ State.reset with cc := 60000 }.setSlot 0 (Trunk.cfg.rset TRK_GRP_CFG (BitVec.ofNat 32 (2 ^ 31 + 2 ^ 17 + 7)) 0 0)).setF MAC_PORT_STAT_STATE 3 0)
  s.setTgrp 0 0 (fun x => { x with rxFrames := l })
theorem witness_trunk_start_blocks : (trunkIn []).trunkKey 0 = some 0 ∧ (trunkIn []).looped 0 = false ∧ ((after (trunkIn [([7, 8], false)]) (.startBlockReady 0 [1])).fwd.wait.get 0).map (·.bytes) = [[7, 8]] ∧
    (after (trunkIn []) (.startBlockReady 0 [1])).fwd.wait.get 0 = [] := by decide +kernel
/-- Obligations.ProgramsCannotForgeAFramesOrigin: the empty programs pass the checks. -/
theorem witness_checked_programs (g : GenSlot) (sl n : Nat) (hp : g.prog = []) (ha : g.act = []) : g.progBad sl = false ∧ g.actBad sl n = none := by
  have hw : ∀ a, g.progWord sl a = 0 := fun a => by rw [GenSlot.progWord, hp]; split <;> rfl
  have hi : ∀ b k, g.actInstr sl n b k = 0 := fun b k => by rw [GenSlot.actInstr, ha]; rfl
  have hz : g.instrBad sl n 0 = none := by
    simp [GenSlot.instrBad, opShape, actOpc, actPred, actDst, actSa, actSb, actX, actW, actImm, natBits, recordRefs]
  have hb : ∀ b, g.bundleBad sl n b = none := fun b => by
    simp [GenSlot.bundleBad, hi, hz, List.range_succ, overLimit, countOpc, actOpc, natBits]
  exact ⟨by simp [GenSlot.progBad, hw, wordBits], by simp [GenSlot.actBad, hb]⟩

def record (disp queue egress reason : Nat) : List Byte :=
  putBytes (putBytes (putBytes (putBytes (List.replicate 512 0) cDisp (natBytes 1 disp)) cQueue (natBytes 1 queue)) cEgPort (natBytes 2 egress)) cDropReason (natBytes 1 reason)
def x0 : Frame := { stage := .ingress, inPort := 0, t0cc := 59970, bytes := lead 0x800 [] 300, len := 300, record := record 0 3 0x8003 0, whole := true, fate := .good }
def pools (free : List Nat) (x : Frame) : State :=
  let s := ((base.setF DOM_PORT_STAT_STATE 2 0).setF DOM_PORT_STAT_STATE 2 3).setF MAC_PORT_STAT_STATE 3 3
  let s := [0, 1, 2, 3].foldl (fun s i => s.setF POOL_FREE_FREE (free.getD i 0) i) (s.setF POOL_STAT_STATE 2)
  ({ s with fwd := { s.fwd with carve := [8192, 8192, 8192, 8192] } }.setSlot 0 (Lane.cfg.rset TM_Q_LIMIT 1000 3 3)).setFrame 3 x
def framed (b : List Byte) : List Byte := b ++ fcsOf b
/-- A frame all of whose bytes have crossed. -/
def open_ (wire : List Byte) : Frame := { x0 with fate := .open, bytes := wire, wire := wire, len := wire.length }
/-- FRAME_END_INGRESS: a good frame, a bad FCS, a runt, an oversize frame, and one whose last byte has not crossed. -/
theorem witness_frame_ends : let e (x : Frame) := after (pools [5, 5, 5, 5] x) (.frameEndIngress 3)
    (e (open_ (framed (lead 0x800 [] 60)))).cval C_RX_FRAMES 0 = 1 ∧ (e (open_ (lead 0x800 [] 64))).cval C_RX_FCS_ERR 0 = 1 ∧
    (e (open_ (framed (lead 0x800 [] 59)))).cval C_RX_RUNT 0 = 1 ∧ (e { open_ (lead 0x800 [] 64) with tooLong := true }).cval C_RX_OVERSIZE 0 = 1 ∧
    (e { open_ (framed (lead 0x800 [] 60)) with len := 63 }).cval C_RX_FRAMES 0 = 0 := by decide +kernel
def pauseIn : State :=
  (pools [5, 5, 5, 5] { open_ (framed (lead 0x8808 [] 14 ++ [0, 1, 0, 7] ++ lead 0 [] 42)) with control := true }).setF MAC_FC_CFG_PAUSE_RX_EN 1 0
theorem witness_pause_and_hello_end : (after pauseIn (.frameEndIngress 3)).cval C_RX_PAUSE 0 = 1 ∧ ((after pauseIn (.frameEndIngress 3)).mp 0).decode.length = 1 ∧
    ((after (pools [5, 5, 5, 5] { open_ (framed (lead 0x88B5 hello 60)) with hello := true }) (.frameEndIngress 3)).dp 0).rx.length = 1 := by decide +kernel
def returning (n : Nat) : State := pools [5, 5, 5, 5] { x0 with stage := .returning, pass := n, wire := x0.bytes }
theorem witness_recirculation : ((after (returning 3) (.recircPass 3 [])).frame 3).pass = 4 ∧ (after (returning 4) (.recircPass 3 [])).cval C_PRS_RECIRC_DROP 0 = 1 ∧
    (after { returning 3 with fwd := { (returning 3).fwd with returnUsed := [0] } } (.recircPass 3 [])).cval C_PRS_RECIRC_DROP 0 = 1 := by decide +kernel
/-- Of two frames of a slice that ask for its return lane the one in the lower slot position goes first. -/
def twoReturning : State := (returning 1).setFrame 4 { x0 with stage := .returning, pass := 1, wire := x0.bytes, pos := 2 }
theorem witness_return_order : twoReturning.returnAfter 4 (twoReturning.frame 4) = true ∧ twoReturning.returnAfter 3 (twoReturning.frame 3) = false ∧
    ((after twoReturning (.recircPass 4 [])).frame 4).stage = .returning ∧ ((returning 3).frame 3).returns = true ∧ ((returning 3).frame 3).record.length = 512 ∧
    (after (pools [5, 5, 5, 5] x0) (.frameEndIngress 3)).cnt = (pools [5, 5, 5, 5] x0).cnt := by decide +kernel

/-- Obligations.EnqueuedFramesAreDisposedOf. -/
theorem witness_enqueue : let s := pools [5, 5, 5, 5] x0
    x0.dest = .unicast 3 3 ∧ s.waitsForEnd x0 x0.dest = false ∧ s.blockFree 1 524292 = true ∧ s.crosses 3 3 = true ∧ s.mirrorOf x0 = none ∧ x0.punts = false ∧
    (after s (.frameEnqueue 3 [524292] 0)).queue 3 3 = [1] ∧ (after s (.frameEnqueue 3 [524292] 0)).f POOL_FREE_FREE 1 = 4 ∧
    (after { s with cc := 59999 } (.frameEnqueue 3 [524292] 0)).queue 3 3 = [] := by decide +kernel
theorem witness_enqueue_without_copy : ((after (pools [5, 0, 5, 5] x0) (.frameEnqueue 3 [] 0)).frame 3).stage = .asking ∧
    ((after (pools [5, 5, 5, 5] { x0 with fate := .badFcs }) (.frameEnqueue 3 [] 0)).frame 3).stage = .none ∧
    (after (pools [5, 5, 5, 5] { x0 with quarantined := true }) (.frameEnqueue 3 [] 0)).cval C_DOM_QRX_DROP 0 = 1 ∧
    (after (pools [5, 5, 5, 5] { x0 with record := record 1 3 0x8003 0x33 }) (.frameEnqueue 3 [] 0)).tab.drops.get 0x33 = 1 := by decide +kernel
theorem witness_enqueue_premises : let s := pools [5, 0, 5, 5] x0
    s.turn (x0.standing 3) = true ∧ s.writerRoom x0.writer = true ∧ x0.block = none ∧ poolFor (s.requestBytes x0) = 1 ∧ natBit (s.cf 0 TM_ING_CFG_LL 0) (s.cf 0 TM_Q_CFG_IPRI 0 3) = false ∧
    ((after s (.frameEnqueue 3 [] 0)).frame 3).pool = 2 ∧ ((after s (.frameEnqueue 3 [] 0)).frame 3).steps = 1 := by decide +kernel
def shut (held : List Nat) : State := { (pools [5, 5, 5, 5] x0).setF DOM_PORT_STAT_STATE (if held = [] then 0 else 2) 3 with tm := { base.tm with held := held } }
theorem witness_crossing_drops : (shut []).crosses 3 3 = false ∧ (after (shut []) (.frameEnqueue 3 [524292] 0)).cval C_TM_XDROP 3 = 1 ∧ (after (shut []) (.frameEnqueue 3 [524292] 0)).f CHIP_MODE_DRAIN_DROP_COUNT = 0 ∧
    (after (shut []) (.frameEnqueue 3 [524292] 0)).f POOL_FREE_FREE 1 = 5 ∧ (shut [39]).queueHeld 3 3 = true ∧ (after (shut [39]) (.frameEnqueue 3 [524292] 0)).f CHIP_MODE_DRAIN_DROP_COUNT = 1 := by decide +kernel
def asking (p : Nat) : State := pools [5, 0, 0, 0] { x0 with stage := .asking, pool := p, want := 1, askCc := 60000 }
theorem witness_fallback : ((after (asking 2) (.poolFallback 3 [] 0)).frame 3).pool = 3 ∧ (after (asking 3) (.poolFallback 3 [] 0)).cval C_POOL_REFUSED 1 = 1 ∧
    ((after { asking 2 with cc := 59999 } (.poolFallback 3 [] 0)).frame 3).pool = 2 := by decide +kernel
end Rx

namespace Cell
def z : State := ((({ State.reset with cc := 60000, nt := 5 * 2 ^ 40 }.setSlot 0 Lane.cfg).setF MAC_PORT_STAT_STATE 3 0).setF DOM_PORT_STAT_STATE 2 0).setF MAC_PORT_STAT_STATE 3 513
def written : State := ((z.writeCell 5 5 [1, 2]).writeCell 5 133 [7]).writeCell 1 261 [9]
/-- Obligations.CellsAndPoolsMoveByTheirRules: PTR is 60000 mod 64 = 32, so writer 1 comes before writer 5. -/
theorem witness_write_grant : ((after written (.cellWriteGrant 5)).fwd.cells.get 261).bytes.take 2 = [9, 0] ∧ ((after written (.cellWriteGrant 5)).fwd.writers.get 5).length = 2 ∧
    (after { written with fwd := { written.fwd with stripeW := [5] } } (.cellWriteGrant 5)).fwd.writers = written.fwd.writers := by decide +kernel
def carving : State := after z .carve
def at_ (s : State) (n : Nat) : State := { s with cc := n }
theorem witness_carving : carving.f POOL_STAT_STATE = 1 ∧ (after (at_ carving 92767) .carvingComplete).f POOL_STAT_STATE = 1 ∧
    (after (at_ carving 92768) .carvingComplete).f POOL_STAT_STATE = 2 ∧ (after (at_ carving 92768) .carvingComplete).f POOL_FREE_FREE 0 = 131072 ∧
    (after carving .carve).on POOL_STAT_CARVE_ERR = true ∧ (after carving .rebuild).on POOL_STAT_CARVE_ERR = true := by decide +kernel
def rebuilding : State := z.setF POOL_STAT_STATE 3
theorem witness_pool_states : z.f POOL_STAT_STATE = 0 ∧ (z.setF POOL_STAT_STATE 2).f POOL_STAT_STATE = 2 ∧ z.fwd.copies.wf = true ∧
    (after (z.setF POOL_FREE_CELLS_CELLS 9) .carve).on POOL_STAT_CARVE_ERR = true ∧ (after written (.cellWriteGrant 7)).fwd.cells = written.fwd.cells := by decide +kernel
theorem witness_rebuilding : (after (at_ rebuilding 16383) .rebuildComplete).f POOL_STAT_STATE = 3 ∧ (after (at_ rebuilding 60000) .rebuildComplete).f POOL_FREE_CELLS_CELLS = 2097152 := by decide +kernel
def copy0 : Copy := { state := .dequeued, port := 0, fromPort := true, len := 300, ended := true, lenKnown := true, block := some 5, region := List.replicate 64 0 }
def reading : State := { z.setCopy 4 copy0 with fwd := { (z.setCopy 4 copy0).fwd with reads := [{ reader := 2, cell := 5, copy := some 4, idx := 0 }], cells := z.fwd.cells.set 5 (storeCell (bytesAt [1, 2] 0 256)) } }
/-- Obligations.TheTwoCodesRepairEveryDoubleErasure: two chunks of two flips are repaired, three are not (R220). -/
theorem witness_two_erasures : reading.fwd.reads = [{ reader := 2, cell := 5, copy := some 4, idx := 0 }] ∧ reading.inWriter 5 = none ∧ reading.flt.arm = none ∧
    (∀ i, i < 10 → ones 266 (flipsOf [(0, 3), (1, 8), (9, 3)] i) ≤ 2) ∧ (List.range 10).filter (fun i => ones 266 (flipsOf [(0, 3), (1, 8), (9, 3)] i) == 2) = [0, 9] := by decide +kernel
theorem witness_three_erasures : let u := after reading (.cellReadGrant 5 [(0, 3), (5, 3), (8, 3)])
    u.cval C_BUF_UNCORR 0 = 1 ∧ u.fwd.arriving.map (fun d => (d.due, d.bad)) = [(60004, true)] ∧ u.f BUF_ERR_LOC_CELL = 5 ∧
    ((u.deliver { read := { copy := some 4, idx := 0 }, bad := true }).copy 4).state = .none := by decide +kernel
/-- R219: the check symbols of a codeword of one 1 in chunk 7, and both syndromes of it 0. -/
theorem test_outer_code : rsSyndromes ([0, 0, 0, 0, 0, 0, 0, 1] ++ [(rsCheck [0, 0, 0, 0, 0, 0, 0, 1]).1, (rsCheck [0, 0, 0, 0, 0, 0, 0, 1]).2]) = (0, 0) ∧
    gfMul 0x80 2 = 0x1D := by decide +kernel
end Cell

namespace Queue
open Cell (z copy0)
def lvl (l : List (Nat × Nat)) (g : GenSlot) : GenSlot :=
  l.foldl (fun g e => g.rset TM_Q_CFG (wordPut (wordPut (g.rget TM_Q_CFG 0 e.1) TM_Q_CFG_LVL.lsb TM_Q_CFG_LVL.w e.2) TM_Q_CFG_WEIGHT.lsb 8 1) 0 e.1) g
def put (s : State) (c q : Nat) (x : Copy) : State := (s.setCopy c { x with port := 0, queue := q, state := .queued }).setQueue 0 q [c]
def x : Copy := { lenKnown := true, len := 300, ended := true, enq := 100, fromPort := true, slot := 0 }
def three : State := put (put (put (z.setSlot 0 (lvl [(2, 1), (3, 1)] Lane.cfg)) 4 2 x) 5 3 x) 6 7 x
def credited : State := (three.setDeficit 0 3 77).setTp 0 (fun t => { t with ptr := t.ptr.set 1 3, credited := t.credited.set 1 true })
/-- Obligations.QueuesAreScheduledMeteredAndGated: queues 2 and 3 at level 1, 7 at level 0. -/
theorem witness_scheduler : three.decisionDue 0 = true ∧ (List.range 12).filter (three.eligible 0) = [2, 3, 7] ∧ three.topLevel 0 [2, 3, 7] = 1 ∧
    three.isStale (three.copy 4) = false ∧ (after three (.dequeueDecision 0)).queue 0 7 = [6] ∧
    ((after three (.dequeueDecision 0)).queue 0 2 = [] ∨ (after three (.dequeueDecision 0)).queue 0 3 = []) := by decide +kernel
theorem witness_credited_queue : (after credited (.dequeueDecision 0)).queue 0 3 = [] ∧ (after credited (.dequeueDecision 0)).deficit 0 3 = 77 - 320 ∧
    ((after credited (.dequeueDecision 0)).copy 5).start = 60018 := by decide +kernel
/-- A queue whose head cannot reach the MAC plane 18 cc on, a port without a decision due, and one with no copy. -/
theorem witness_no_decision : (List.range 12).filter (three.choosable 0) = [2, 3, 7] ∧ (List.range 12).filter ((three.setCopy 6 { three.copy 6 with enq := 59998 }).choosable 0) = [2, 3] ∧
    (after z (.dequeueDecision 0)).tm = z.tm ∧ ((three.setTp 0 fun t => { t with lastDequeue := 60001 }).decisionDue 0) = false := by decide +kernel
def latency (l m : Nat) : GenSlot :=
  let w := wordPut (Lane.cfg.rget CHIP_MODE_CFG) CHIP_MODE_CFG_LAT.lsb 1 1
  let v := wordPut (wordPut (Lane.cfg.rget CHIP_METER) CHIP_METER_METER_L.lsb CHIP_METER_METER_L.w l) CHIP_METER_LATE_MAX.lsb CHIP_METER_LATE_MAX.w m
  (Lane.cfg.rset CHIP_MODE_CFG w).rset CHIP_METER v
def metered (l m t0 : Nat) : State := put (z.setSlot 0 (latency l m)) 4 10 { x with t0cc := t0 }
theorem witness_metered : (metered 500 0 59518).firstMetered 0 = some 4 ∧ (metered 500 0 59518).meterReady 0 4 = true ∧
    ((after (metered 500 0 59518) (.meteredDequeue 0)).copy 4).start = 60018 ∧ (after (metered 500 0 59517) (.meteredDequeue 0)).f CHIP_METER_LATE_COUNT = 1 ∧
    (after (metered 500 6 59512) (.meteredDequeue 0)).f CHIP_METER_LATE_COUNT = 1 ∧ (after (metered 500 5 59512) (.meteredDequeue 0)).f CHIP_METER_DROP_COUNT = 1 ∧
    ((after (metered 500 0 59519) (.meteredDequeue 0)).copy 4).state = .queued := by decide +kernel
def gates (en : Bool) (b : Nat) : State :=
  let s : State := ({ z with nt := 5 * 2 ^ 60 }.setTp 0 (fun t => { t with oper := { en := en, base := b, cycle := 1000, len := 2 }, tsw := 5 * 2 ^ 60, latched := { en := true, len := 3, base := 7, cycle := 9 } }))
  (((s.setF TM_GATE_ENT0_GATES 0x123 0 0 0).setF TM_GATE_ENT1_INTERVAL 100 0 0 0).setF TM_GATE_ENT0_GATES 0x321 0 0 1).setF TM_GATE_ENT1_INTERVAL 100 0 0 1
def shown (s : State) : Nat := (after s (.gateStateChange 0)).f TM_GATE_STAT_GATES 0
theorem witness_gates : [shown (gates false 0), shown (gates true (5 * 2 ^ 20 + 50)), shown (gates true (5 * 2 ^ 20)), shown (gates true (5 * 2 ^ 20 - 99)),
      shown (gates true (5 * 2 ^ 20 - 100)), shown (gates true (5 * 2 ^ 20 - 1150))] = [0xFFF, 0, 0x123, 0x123, 0x321, 0x321] := by decide +kernel
theorem witness_gate_swaps : let s := (gates true 0).setF TM_GATE_STAT_PENDING 1 0
    (after s (.gateSwapRequest 0)).on TM_GATE_STAT_GL_REFUSED 0 = true ∧ (after s (.gateSwap 0)).on TM_GATE_STAT_SWAPPED 0 = true ∧
    (after { s with nt := 5 * 2 ^ 60 - 1 } (.gateSwap 0)).on TM_GATE_STAT_SWAPPED 0 = false ∧
    ((after ((gates true 0).setF TM_GATE_CYCLE_CYCLE 1000 0) (.gateSwapRequest 0)).tp 0).tsw / 2 ^ 40 % 1000 = 0 := by decide +kernel

/-- Obligations.XoffAndResidueBoundTheQueues: X is 20 cells, XON_DELTA 5. -/
def cfgX : GenSlot := let set (g : GenSlot) (f : Fld) (v i j : Nat) := g.rset f.reg (wordPut (g.rget f.reg i j 0) f.lsb f.w v) i j
  set (set (set (set (set Lane.cfg TM_ING_CFG_LL 0xFF 0 0) TM_ING_CFG_XON_DELTA 5 0 0) TM_ING_THR_THR 20 0 0) TM_ING_CFG_ALPHA_ING 7 0 0) TM_Q_LIMIT_LIMIT 100 0 3
def cells (v : Nat) : State := ({ z with nt := 5 * 2 ^ 60, cc := 600000 }.setSlot 0 cfgX).setF TM_ING_CNT_CELLS v 0 1
theorem witness_xoff : (cells 21).ingressLimit 0 0 = 20 ∧ (after (cells 21) (.xoffChange 0 1)).f TM_PORT_STAT_XOFF 0 = 2 ∧ (after (cells 20) (.xoffChange 0 1)).f TM_PORT_STAT_XOFF 0 = 0 ∧
    (after ((cells 15).setF TM_PORT_STAT_XOFF 2 0) (.xoffChange 0 1)).f TM_PORT_STAT_XOFF 0 = 0 ∧ (after ((cells 16).setF TM_PORT_STAT_XOFF 2 0) (.xoffChange 0 1)).f TM_PORT_STAT_XOFF 0 = 2 ∧
    ((after ((cells 21).setF MAC_FC_CFG_PFC_TX_EN 1 0) (.xoffChange 0 1)).mp 0).gen.length = 1 ∧ ((after ((cells 21).setF MAC_FC_CFG_PAUSE_TX_EN 1 0) (.xoffChange 0 1)).mp 0).gen.length = 1 ∧
    ((after ((((cells 16).setF TM_PORT_STAT_XOFF 2 0).setF MAC_FC_CFG_PFC_TX_EN 1 0).setF MAC_PFC_TX_QUANTA 10 0) (.fcResend 0)).mp 0).gen.length = 1 := by decide +kernel
theorem witness_xoff_ends : (after (cells 21) (.fcResend 0)).mac = (cells 21).mac ∧ 
    (((after ((((cells 15).setF TM_PORT_STAT_XOFF 2 0).setF MAC_FC_CFG_PAUSE_TX_EN 1 0)) (.xoffChange 0 1)).mp 0).gen.map (·.times)) = [[0]] ∧
    ((after ((cells 21).setF MAC_PORT_STAT_STATE 1 0 |>.setF MAC_FC_CFG_PFC_TX_EN 1 0) (.xoffChange 0 1)).mp 0).gen = [] := by decide +kernel
def residue (nt : Nat) (l : List Nat) : State :=
  let s := l.foldl (fun s c => s.setCopy c { state := .residue, port := 0, queue := 3, frame := 9, charge := 2 }) (cells 0)
  { s with tm := { s.tm with residue := [{ frame := 9, nt := nt, pend := l }] } }
theorem witness_residue : (residue (5 * 2 ^ 60) [3]).oldestPending 0 3 = some 3 ∧ (residue (5 * 2 ^ 60) [3]).admits ((residue (5 * 2 ^ 60) [3]).copy 3) = true ∧
    (after (residue (5 * 2 ^ 60) [3, 5]) (.residueAdmit 0 3)).queue 0 3 = [3] ∧ (after (residue 0 [3]) (.residueExpiry 9)).tm.residue = [] ∧
    (after (residue 0 [3]) (.residueExpiry 9)).cval C_TM_Q_RES_EXP 0 3 = 1 ∧ (after (residue (5 * 2 ^ 60) [3]) (.residueExpiry 9)).tm.residue.length = 1 := by decide +kernel
def lossless (l : List Nat) : State := let s := residue (5 * 2 ^ 60) l
  (s.setCopy 3 { s.copy 3 with lossless := true, charge := 200000, inPort := 7 })
theorem witness_residue_cases : (lossless [3]).admits ((lossless [3]).copy 3) = false ∧ (after (lossless [3]) (.residueAdmit 0 3)).on TM_PORT_STAT_HDRM_OVF 7 = true ∧
    (after (lossless [3]) (.residueAdmit 0 3)).tm.judged = [3] ∧ (after (after (residue (5 * 2 ^ 60) [3, 5]) (.residueAdmit 0 3)) (.residueAdmit 0 3)).queue 0 3 = [3] ∧
    (residue (5 * 2 ^ 60) [3]).judgeNext 0 3 = true ∧ (after { residue (5 * 2 ^ 60) [3] with tm := { (residue (5 * 2 ^ 60) [3]).tm with admitted := [1, 2, 5, 9] } } (.residueAdmit 0 3)).queue 0 3 = [] ∧
    (residue 0 [3, 5]).pendExpired { frame := 9, nt := 0, pend := [3, 5] } = true ∧ ((after (residue 0 [3, 5]) (.residueExpiry 9)).copy 5).state = .none := by decide +kernel
end Queue

namespace Eg
open Cell (z copy0)
def cp (x : Copy) : State := z.setCopy 4 x
def first : List Byte := bytesAt (List.replicate 64 0 ++ [1, 2, 3, 4]) 0 256
/-- Obligations.CopiesPassEgressAndLeaveSealed. -/
theorem witness_egress : let keep := cp { copy0 with slot := 1, got := [(0, first)] }
    let drop := cp { copy0 with slot := 1, got := [(0, first)], region := putBytes (putBytes (List.replicate 64 0) 0x15 [1]) 0x19 [0x33] }
    ((after keep (.egressPipeline 4 [])).copy 4).state = .piped ∧ ((after keep (.egressPipeline 4 [])).copy 4).out.take 4 = [1, 2, 3, 4] ∧
    (after drop (.egressPipeline 4 [])).tab.drops.get 0x33 = 1 := by decide +kernel
def piped (at_ : Nat) : State := cp { copy0 with state := .piped, start := at_ }
theorem witness_mac_start : (piped 60000).lineFree 0 = true ∧ ((piped 60000).planned 0).head? = some 4 ∧ ((after (piped 60000) (.egressMacStart 4 [])).copy 4).state = .sending ∧
    ((after (piped 60001) (.egressMacStart 4 [])).copy 4).state = .piped := by decide +kernel
def sending (g st : Nat) (bad : Bool) : State :=
  (z.addBlock [5, 6] 0 0).setCopy 4 { copy0 with state := .sending, start := st, out := List.replicate 192 1, block := if g < 2 then some 5 else none, bad := bad, got := (List.range g).map (fun i => (i, List.replicate 256 1)) }
theorem witness_transmit_end : (sending 2 0 false).allGot ((sending 2 0 false).copy 4) = true ∧ (after (sending 2 0 false) (.frameTxEnd 4 0 [])).cval C_TX_FRAMES 0 = 1 ∧
    (after (sending 2 0 true) (.frameTxEnd 4 0 [])).cval C_TX_STOMP 0 = 1 ∧ ((after (sending 2 60000 false) (.frameTxEnd 4 0 [])).copy 4).state = .sending := by decide +kernel
theorem witness_underrun : (after (sending 1 0 false) (.transmitUnderrun 4)).cval C_TX_UNDERRUN 0 = 1 ∧ (after (sending 1 0 false) (.transmitUnderrun 4)).f MAC_CT_T_CUR 0 = 1 ∧
    ((after (sending 1 59999 false) (.transmitUnderrun 4)).copy 4).state = .sending := by decide +kernel
def gen (p : Nat) (g : GenFrame) : State := z.setMp p (fun m => { m with gen := [g, {}] })
theorem witness_generated : (after (gen 0 { fc := true, times := [0x1234], made := 5 }) (.generatedFrameSend 0)).cval C_TX_FC 0 = 1 ∧
    ((((after (gen 0 { fc := true, pfc := true, vector := 0x81, times := [1, 2, 3, 4, 5, 6, 7, 8], made := 5 }) (.generatedFrameSend 0)).mp 0).genOut.getD (0, [])).2.drop 12).take 8 = [0x88, 0x08, 1, 1, 0, 0x81, 0, 1] ∧
    (after (gen 0 { hello := true }) (.generatedFrameSend 0)).cval C_DOM_HELLO_TX 0 = 1 ∧ ((after (gen 513 { bytes := [1, 2, 3] }) (.generatedFrameSend 513)).mp 513).gen.length = 1 := by decide +kernel
theorem witness_egress_premises : ((copy0.region.length = 64) ∧ (cp copy0).tlm.out = [] ∧ ((cp copy0).slot 1).prog = [] ∧ ((cp copy0).slot 1).act = [] ∧ ((cp copy0).slot 1).cfg = []) ∧
    (after (cp { copy0 with slot := 1 }) (.egressPipeline 4 [])).fwd.copies = (cp { copy0 with slot := 1 }).fwd.copies := by decide +kernel
def broken : State := cp { copy0 with state := .piped, start := 60000, broken := true }
theorem witness_broken_copy : (broken.planned 0).head? = some 4 ∧ (after broken (.egressMacStart 4 [])).cval C_BUF_UNC_STOMP 0 = 1 ∧ ((after broken (.egressMacStart 4 [])).copy 4).state = .none ∧
    ((after (piped 60000) (.egressMacStart 4 [])).mp 0).openFrame = none ∧ 60000 < ((after (piped 60000) (.egressMacStart 4 [])).mp 0).lineEnd := by decide +kernel
theorem witness_underrun_premises : (sending 1 0 false).allGot ((sending 1 0 false).copy 4) = false ∧ (sending 1 0 false).cellAt ((sending 1 0 false).copy 4) ((sending 1 0 false).copy 4).missing ≤ 60000 ∧
    (sending 1 0 false).looped 0 = false ∧ (sending 1 0 false).time.secondCc ≠ 60000 ∧ (after ((sending 1 0 false).setCopy 4 { (sending 1 0 false).copy 4 with saf := true }) (.transmitUnderrun 4)).cval C_TX_UNDERRUN 0 = 0 := by decide +kernel
def onLine (at_ : Nat) : State := z.setMp 0 (fun m => { m with genOut := some (at_, List.replicate 64 9) })
theorem witness_generated_end : ((onLine 60000).genDone 0) = onLine 60000 ∧ ((onLine 5).genDone 0).cval C_TX_FRAMES 0 = 1 ∧ ((onLine 5).genDone 0).cval C_TX_BYTES 0 = 64 ∧
    ((after (gen 0 {}) (.generatedFrameSend 0)).mp 0).gen.length = 1 ∧ ((after ((gen 0 {}).setMp 0 fun m => { m with asleep := true }) (.generatedFrameSend 0)).mp 0).gen.length = 2 := by decide +kernel
end Eg

/-! ### Table access, generations, time and registers -/

namespace Acc
def z : State := { State.reset with cc := 600000 }
def opened (s : State) : State := s.setF GEN_STAT_CSTATE 3
def checking (s : State) : State := s.setF GEN_STAT_CSTATE 4
def put (a : Access) (s : State) : State := ({ s with tab := { s.tab with acc := s.tab.acc.set 0 a, actAcc := s.tab.actAcc.set 0 a } }.setF STG_ACC_STAT_BUSY 1 0).setF STG_ACT_STAT_BUSY 1 0
def words : List Word := [0x80000007, 2, 3, 0x55]
def res (s : State) : Nat := (after s (.tableAccessDone 0 false)).f STG_ACC_STAT_RESULT 0
def ares (s : State) : Nat := (after s (.tableAccessDone 0 true)).f STG_ACT_STAT_RESULT 0
/-- Obligations.AccessPortsAndTableWritesAct: RESULT 3, 2, 0 and 1 (R157, R189), and a port that is not due or not BUSY. -/
theorem witness_table_port : (after z (.tableSramRead 0 2)).on STG_ACC_STAT_BUSY 0 = true ∧ (after (put {} z) (.ternaryWrite 0 false 2)).on STG_ACC_STAT_COLLIDE 0 = true ∧
    [res (put { space := 3 } z), res (put { stage := 18 } z), res (put { space := 1, addr := 2048, stage := 2 } z), res (put { read := true, stage := 2 } z),
      res (put { stage := 2, data := words } (opened z)), res (put { space := 2, addr := 5, stage := 2, data := words } (checking z))] = [3, 3, 2, 0, 0, 1] ∧
    (after { put {} z with cc := 3 } (.tableAccessDone 0 false)).on STG_ACC_STAT_BUSY 0 = true := by decide +kernel
theorem witness_action_port : (after z (.actMeterTokensRead 0 2)).on STG_ACT_STAT_BUSY 0 = true ∧ (after (put {} z) (.actDropReasonRead 0)).on STG_ACT_STAT_COLLIDE 0 = true ∧
    [ares (put { space := 3, stage := 2 } z), ares (put { space := 5 } z), ares (put { space := 4, addr := 256, read := true } z), ares (put { space := 4, addr := 3, stage := 31, read := true } z),
      ares (put { stage := 2, addr := 3, data := words } (opened z)), ares (put { stage := 2, addr := 3, data := words } (checking z))] = [3, 3, 2, 0, 0, 1] := by decide +kernel
theorem witness_table_writes : let s := put { stage := 2, addr := 1, data := words } (opened z)
    (s.slot s.shadow).unitOwner 0 2 0 = none ∧ (after s (.tableAccessDone 0 false)).tab.sram.get 65537 = natOfWords words ∧
    (after (put { stage := 2, space := 2, data := [5, 0x40000009, 7, 9] } z) (.tableAccessDone 0 true)).tab.meters.get 16384 ≠ {} := by decide +kernel
/-- Obligations.TableWritesCannotChangeLiveLookups, R155: a row that a table of the ACTIVE slot uses may not be changed where a lookup would see it. -/
def owned : GenSlot := { (({} : GenSlot).rset STG_TBL_CFG (BitVec.ofNat 32 (2 ^ 31 + 2 ^ 28 + 1)) 0 2 1).rset STG_TBL_UNITS 3 0 2 1 with keymap := [(512, 0x80000000)] }
theorem witness_protected_row : (((z.setSlot 0 owned).setSlot 1 owned).setF GEN_STAT_CSTATE 4).rowRefused false 0 2 1 7 = true ∧
    res (put { stage := 2, addr := 1, data := [7] } (checking ((z.setSlot 0 owned).setSlot 1 owned))) = 1 ∧ State.reset.active ≤ 1 := by decide +kernel
def rowsAt : State := { z with tab := { z.tab with sram := z.tab.sram.set 65541 (7 + 9 * 2 ^ 64), drops := z.tab.drops.set 3 (2 ^ 32 + 5), counts := z.tab.counts.set 16387 { frames := 6 }, countsNew := z.tab.countsNew.set 16387 { frames := 2 } } }
/-- Reads give what is stored; clears keep what the cc has counted; an access that has landed does not land again, and is free with the cc. -/
theorem witness_port_results : (after (put { read := true, stage := 2, addr := 5 } rowsAt) (.tableAccessDone 0 false)).rget STG_ACC_DATA 0 2 = 9 ∧
    (after (put { read := true, space := 4, addr := 3, stage := 2 } rowsAt) (.tableAccessDone 0 true)).rget STG_ACT_DATA 0 0 = 5 ∧
    (after (put { read := true, space := 4, addr := 3, stage := 2 } rowsAt) (.tableAccessDone 0 true)).rget STG_ACT_DATA 0 1 = 1 ∧
    (after (put { space := 1, addr := 3, stage := 2 } rowsAt) (.tableAccessDone 0 true)).tab.counts.get 16387 = { frames := 2 } ∧ (after (put { space := 4, addr := 3, stage := 2 } rowsAt) (.tableAccessDone 0 true)).tab.drops.get 3 = 0 ∧
    ((after (put {} z) (.tableAccessDone 0 false)).tab.acc.get 0).done = true ∧ (after (put { done := true } z) (.tableAccessDone 0 false)).on STG_ACC_STAT_DONE 0 = false ∧
    ((after (put {} z) (.tableAccessDone 0 false)).tblFree 0).on STG_ACC_STAT_BUSY 0 = false := by decide +kernel
theorem witness_bundle_words : ((after (put { stage := 2, addr := 3, data := [5] } (opened z)) (.tableAccessDone 0 true)).slot 1).act.get 16387 = 5 ∧
    (after (put { stage := 2, addr := 3, data := [5] } (checking z)) (.tableAccessDone 0 true)).cval C_STG_WR_REFUSED 0 = 1 := by decide +kernel
def mcPut (s : State) : State := { s with tab := { s.tab with mcAcc := { addr := 777, data := [1, 5] } } }
theorem witness_multicast_landing : ((mcPut (opened z)).mcDone.slot 1).mc.get 777 = { map := mapOfWords [5], prune := true } ∧ (mcPut (opened z)).mcDone.f TM_MC_STAT_RESULT = 0 ∧
    (mcPut (checking z)).mcDone.f TM_MC_STAT_RESULT = 1 ∧ (mcPut (checking z)).mcDone.cval C_GEN_WR_REFUSED = 1 := by decide +kernel
def prog (v : Nat) : State := (opened z).rset PRS_PROG_ADDR (BitVec.ofNat 32 v) 0
theorem witness_program_words : let t := after (prog 0x80000003) (.prsProgDataAccess 0 true 0xABCD)
    (t.slot t.shadow).progWord 0 3 = 0xAB00 ∧ t.f PRS_PROG_ADDR_ADDR 0 = 4 ∧ (after (checking (prog 0x80001FFF)) (.prsProgDataAccess 0 true 1)).cval C_GEN_WR_REFUSED = 1 ∧
    (after (checking (prog 0x80001FFF)) (.prsProgDataAccess 0 true 1)).f PRS_PROG_ADDR_ADDR 0 = 0 := by decide +kernel
theorem witness_multicast_port : (after z (.mcGroupWrite 777)).tab.mcAcc.addr = 777 ∧ (after (after z (.mcGroupRead 5 true)) (.mcGroupWrite 777)).on TM_MC_STAT_COLLIDE = true := by decide +kernel
/-- Obligations.RepinMovesOnlyTheDeadPortsBuckets. -/
def pin : GenSlot := (({} : GenSlot).rset STG_TBL_CFG (BitVec.ofNat 32 (2 ^ 31 + 4 * 2 ^ 28)) 0 2 1).rset STG_TBL_UNITS 3 0 2 1
def dead : State := opened (((({ z with tab := { z.tab with repinWait := [0, 7] } }).setSlot 1 pin).setF STG_REPIN_CTL_EN 2).setF STG_REPIN_CTL_STAGE 2)
theorem witness_repin : dead.tab.repinPort = none ∧ dead.tab.repinWait.head? = some 0 ∧ dead.shadowOpen = true ∧ (dead.pinTables 0).length = 1 ∧ (dead.pinTables 1).length = 0 ∧
    survivors 0 [2 ^ 31 + 5 * 4096 + 9, 2 ^ 31 + 3, 2 ^ 31 + 6 * 4096 + 2, 77] = [2 * 512 + 6, 9 * 512 + 5] := by decide +kernel
theorem witness_repin_done : (after { dead with tab := { dead.tab with repinPort := some 77, repinNone := true, repinEnd := 600000 } } .repinDone).on STG_REPIN_STAT_NO_SURVIVOR = true ∧
    (after { dead with tab := { dead.tab with repinPort := some 77, repinEnd := 600001 } } .repinDone).on STG_REPIN_STAT_DONE = false := by decide +kernel
end Acc

namespace Gen
def g : State := ({ State.reset with nt := 10 * 2 ^ 40, cc := 50000 }.setF GEN_CMT_NUM_NUM 5).setF GEN_CMT_AT_LO_NS 100
def committed (s : State) : State := { s with gen := { s.gen with committed := true } }
def st (s : State) (c : Instr) : Nat × Nat := ((after s c).f GEN_STAT_CSTATE, (after s c).f GEN_STAT_RESULT)
def req : CommitReq := { num := 5, tc := 100 }
def armed : State := { (committed g).setF GEN_STAT_CSTATE 5 with gen := { (committed g).gen with req := some req } }
def held : State := { (committed g).setF GEN_STAT_CSTATE 0 with gen := { (committed g).gen with held := some req } }
/-- Obligations.CommitsAreJudgedAndMayEndWithoutEffect: accepted, refused while ARMED, a number not allowed, too late, held while RETIRING. -/
theorem witness_commit_requests : [st g (.commitRequest 0 false false), st (g.setF GEN_CMT_NUM_NUM 0) (.commitRequest 0 false false), st { g with nt := 100 * 2 ^ 40 } (.commitRequest 0 false false)] =
      [(4, 0), (3, 3), (3, 2)] ∧ (after armed (.commitRequest 0 true true)).on GEN_STAT_REFUSED = true ∧
    (after ((committed g).setF GEN_STAT_CSTATE 0) (.commitRequest 0 false false)).gen.held ≠ none ∧ State.reset.f GEN_BANK_STAT_BOOT_BANK = 2 := by decide +kernel
theorem witness_commits_without_effect : st armed .commitCancel = (3, 5) ∧ (after held .commitCancel).gen.held = none ∧ (after { held with nt := 100 * 2 ^ 40 } .commitMissed).f GEN_STAT_RESULT = 2 ∧
    st { armed.setF GEN_STAT_CSTATE 4 with nt := 100 * 2 ^ 40 } .commitMissed = (3, 2) ∧ st { armed with nt := 100 * 2 ^ 40 } .commitCancel = (5, 0) ∧ st armed .commitMissed = (5, 0) := by decide +kernel
/-- Obligations.CheckNeverTouchesTheActiveSlot. -/
theorem witness_check : let s := armed.setF GEN_STAT_CSTATE 4
    s.gen.req = some req ∧ s.f GEN_STAT_CSTATE = 4 ∧ s.nt < req.tc * 2 ^ 40 := by decide +kernel
/-- Obligations.CommitsSwitchAndRetireSlots. -/
def now : State := { armed with gen := { armed.gen with req := some { num := 5, now := true }, checkEnd := 49999 } }
theorem witness_commit_now : (now.gen.checkEnd < now.cc) ∧ now.f GEN_STAT_CSTATE = 5 ∧ ({ armed with nt := 100 * 2 ^ 40 } : State).gen.req = some req ∧ req.tc * 2 ^ 40 ≤ 100 * 2 ^ 40 := by decide +kernel
def retiring : State := { g.setF GEN_STAT_CSTATE 0 with slot1 := ({} : GenSlot).rset CHIP_MODE_CFG 4 }
def syncing : State := { retiring.setF GEN_STAT_CSTATE 1 with gen := { retiring.gen with syncStart := 17232 } }
theorem witness_retire : st retiring .retireSyncStart = (1, 0) ∧ st (retiring.setF GEN_SLOT_INFL_COUNT 1 1) .retireSyncStart = (0, 0) ∧ st syncing .syncComplete = (3, 0) ∧
    (after syncing .syncComplete).slot 1 = syncing.slot 0 ∧ st { syncing with cc := 49999 } .syncComplete = (1, 0) := by decide +kernel
def aged : State := ({ retiring with nt := 10 ^ 7 * 2 ^ 40, fwd := { retiring.fwd with copies := [(3, { state := .queued, slot := 1, port := 2, queue := 3 }), (5, { state := .queued, slot := 0 })] } }).setQueue 2 3 [3]
def stalled : State := { syncing.setF GEN_STAT_STALLED 1 with gen := { syncing.gen with held := some req } }
theorem witness_held_request : st stalled .syncComplete = (4, 0) := by decide +kernel
theorem witness_effect_not_due : (after { armed with nt := 100 * 2 ^ 40 - 1 } .commitTakeEffect).active = 0 ∧ (after { now with cc := 49999 } .commitTakeEffect).active = 0 ∧ (after g .commitTakeEffect).active = 0 := by decide +kernel
theorem witness_sweep : aged.fwd.copies.wf = true ∧ aged.gen.ts + aged.f GEN_AGE_MAX_AGE * (1000 * 2 ^ 40) ≤ aged.nt ∧ ((after aged .staleSweep).copy 3).state = .none ∧ ((after aged .staleSweep).copy 5).state = .queued := by decide +kernel
/-- Obligations.ClockModesAndDrainsRun. -/
def mode : State := (({ g with nt := 5 * 1000 * 2 ^ 40 + 7 }).setF CHIP_MODE_AT_LO_EPOCH_LO 5).setF CHIP_MODE_MODE 5
theorem witness_clock : (after mode (.chipModeClkWrite 0x8001)).on CHIP_MODE_STAT_AT_PAST = true ∧ (after mode (.chipModeClkWrite 0x8001)).f CHIP_MODE_CLK_DAMPER_FIX = 1 ∧
    (after { mode with clk := some { fixed := true, damper := 24, epoch := 6 } } .clockRequestApply).clk ≠ none ∧
    (after { mode with clk := some { fixed := true, damper := 24, epoch := 5 } } .clockRequestApply).f CHIP_MODE_MODE = 7 ∧
    (after { mode with clk := some { fixed := true, damper := 24, epoch := 5 } } .clockRequestApply).f HOB_ENG_STAT_DAMPER 31 = 24 := by decide +kernel
def draining : State := { aged.setF CHIP_MODE_STAT_DRAIN_ACTIVE 1 with
  tm := { aged.tm with held := [27], drainTx := 10 ^ 7 * 2 ^ 40, drainFrom := 3 * 2 ^ 40 }, time := { aged.time with epochSeen := 10000, epochCc := aged.cc } }
def empty : State := { draining with tm := { draining.tm with heldEmpty := true } }
theorem witness_drain : draining.queueHeld 2 3 = true ∧ ((after draining .drainFlush).copy 3).state = .none ∧ ((after { draining with nt := 10 ^ 7 * 2 ^ 40 - 1 } .drainFlush).copy 3).state = .queued ∧
    (after empty .drainEnd).on CHIP_MODE_STAT_DRAIN_DONE = true ∧ (after empty .drainEnd).f CHIP_MODE_STAT_LAST_DRAIN_US = 9999 ∧
    (after { empty with cc := empty.cc + 1 } .drainEnd).on CHIP_MODE_STAT_DRAIN_DONE = false ∧ (after draining .drainEnd).on CHIP_MODE_STAT_DRAIN_DONE = false := by decide +kernel
end Gen

namespace Time
def S : Nat := 10 ^ 9 * 2 ^ 40
def z : State := { State.reset with cc := 600000, nt := 5 * S + 123456 * 2 ^ 40 + 98765432123 }
def load (s : State) (v : Nat) : State := s.setNt4 TIME_SET_HI_SEC_HI TIME_SET_MID_SEC_LO TIME_SET_LO_NS TIME_SET_FRAC_FRAC v
def out (s : State) (k : Nat) (o : Tout) : State := (s.setTout k (fun _ => o)).setF TIME_TOUT_STAT_RUN 1 k
/-- Obligations.TimeIsReadSetStampedAndPulsed. -/
theorem witness_set : (after z .ntSnapshotRead).f TIME_NOW_LO_NS = 123456 ∧ (after (load z (7 * S)) .set).on TIME_STAT_JUMP_REF = true ∧ (after (after (load z (7 * S)) .jumpOvr) .set).nt = 7 * S ∧
    (after (load z (5 * S + 123999 * 2 ^ 40)) .set).on TIME_STAT_STEPPED = true := by decide +kernel
def jump : State := out (out ((load z (7 * S)).setF TIME_STAT_JUMP_OVR 1) 0 { mode := 1, start := 6 * S, width := 5 * 2 ^ 40 }) 1 { mode := 2, start := 5 * S, period := 300 * 2 ^ 40, next := 5000000, width := 9 * 2 ^ 40 }
theorem witness_jumps : (after jump .set).on TIME_TOUT_STAT_LATE 0 = true ∧ 7 * S ≤ ((after jump .set).tout 1).edge ∧
    (after { (load z (5 * S)).setF TIME_STAT_JUMP_OVR 1 with tab := { z.tab with meters := [(3, { last := 4 * S })] } } .set).tab.meters.map (·.2.last) = [5 * S] := by decide +kernel
def stamps : State := { z with time := { z.time with tsq := z.time.tsq.set 0 { gap := true, entries := [[1, 2, 3, 4, 5], [6, 7, 8, 9, 10]] } } }
def edges (n : Nat) : State := { z.setF TIME_TIN_CTL_EDGE 1 0 with time := { z.time with tin := z.time.tin.set 0 ((List.range n).map fun k => { nt := k }) } }
theorem witness_stamps_and_edges : (after stamps (.tsqPop 0)).rget TIME_TSQ_W4 0 = 5 ∧ (after z (.tsqPop 32)).rget TIME_TSQ_W0 32 = 0 ∧ ((after (edges 15) (.tinEdge 0 true 7)).time.tin.get 0).length = 16 ∧
    (after (edges 16) (.tinEdge 0 true 7)).on TIME_TIN_STAT_OVF 0 = true ∧ (after (edges 2) (.tinEdge 0 false 7)).time = (edges 2).time ∧
    (after { edges 2 with time := { (edges 2).time with tinLast := (edges 2).time.tinLast.set 0 ((edges 2).fineTime 0 - 8) } } (.tinEdge 0 true 7)).f TIME_TIN_STAT_LOST 0 = 1 ∧
    ((after (edges 2) (.tinEventRead 0)).time.tin.get 0).length = 1 ∧ (after (z.setF TIME_CFG_SRC 1) (.ppsEdge true 9)).time.sample ≠ none := by decide +kernel
def pulse (m st per w : Nat) : State := ((((z.setF TIME_TOUT_CTL_MODE m 0).setNt4 TIME_TOUT_START_HI_SEC_HI TIME_TOUT_START_MID_SEC_LO TIME_TOUT_START_LO_NS TIME_TOUT_START_FRAC_FRAC st 0).setF TIME_TOUT_PER_PER_NS per 0).setF TIME_TOUT_WF_WIDTH w 0)
def running (e : Option Nat) (next : Nat) : State := out (pulse 2 (5 * S) 100 7) 0 { mode := 2, start := 5 * S, period := 100 * 2 ^ 40, width := 7 * 2 ^ 40, next := next, pulseEnd := e }
theorem witness_outputs : (after (pulse 1 (5 * S) 100 7) (.toutArm 0)).on TIME_TOUT_STAT_LATE 0 = true ∧ (after (pulse 1 (6 * S) 100 7) (.toutArm 0)).on TIME_TOUT_STAT_RUN 0 = true ∧
    (after (pulse 2 (5 * S) 100 7) (.toutArm 0)).on TIME_TOUT_STAT_RUN 0 = true ∧ (after (running none 1234) (.toutStop 0)).on TIME_TOUT_STAT_RUN 0 = false ∧
    ((after (running none 1234) (.toutEdge 0)).tout 0).pulseEnd ≠ none ∧ ((after (running none 1235) (.toutEdge 0)).tout 0).pulseEnd = none ∧
    ((after (running (some (5 * S)) 1234) (.toutEdge 0)).tout 0).pulseEnd = none ∧ ((after (running (some (6 * S)) 1234) (.toutArm 0)).tout 0).rearm = some z.nt ∧
    ((after (running (some (6 * S)) 1234) (.toutStop 0)).tout 0).stopping = true := by decide +kernel
def waitingArm (e : Nat) : State := out (pulse 1 (6 * S) 100 7) 0 { mode := 2, start := 5 * S, period := 100 * 2 ^ 40, width := 7 * 2 ^ 40, next := 1234, pulseEnd := some e, rearm := some (4 * S) }
theorem witness_output_cases : ((after (waitingArm (5 * S)) (.toutEdge 0)).tout 0).start = 6 * S ∧ (after (waitingArm (5 * S)) (.toutEdge 0)).on TIME_TOUT_STAT_RUN 0 = true ∧
    ((after (waitingArm (6 * S)) (.toutEdge 0)).tout 0).pulseEnd = some (6 * S) ∧ (after (pulse 0 (6 * S) 100 7) (.toutArm 0)).on TIME_TOUT_STAT_RUN 0 = false ∧
    (after ((running none 1234).setTout 0 fun o => { o with qual := true }) (.toutEdge 0)).on TIME_TOUT_STAT_SUPPRESS 0 = true ∧
    (after ((running (some (5 * S)) 1234).setTout 0 fun o => { o with stopping := true }) (.toutEdge 0)).on TIME_TOUT_STAT_RUN 0 = false := by decide +kernel
/-- Obligations.TheServoFollowsItsTableAndSamples: the moves of R281's table. -/
def servo (n c : Nat) : State := ({ z with time := { z.time with lockCount := 3, integ := -77, unlockCount := 2, pdAvg := some (55, 1) } }.setF TIME_STAT_STATE n).setF TIME_STAT_CAUSE c
def st (s : State) (c : Instr) : Nat × Nat := ((after s c).f TIME_STAT_STATE, (after s c).f TIME_STAT_CAUSE)
theorem witness_servo_moves : [st (servo 0 0) .run, st (servo 3 2) .run, st (servo 1 0) .hold, st (servo 2 0) .free, st (servo 3 2) .requal, st (servo 2 0) .sampleTimeout, st { servo 3 1 with nt := 4000 * S } .holdMaxExpiry] =
    [(1, 0), (3, 2), (3, 3), (0, 0), (1, 0), (3, 1), (0, 0)] := by decide +kernel
def sampled (n : Nat) (x : Sample) : State := { servo n 0 with time := { (servo n 0).time with sample := some x, lastSampleNt := z.nt, holdFrom := z.nt } }
theorem witness_samples : (after z (.sample true)).time.sample.isSome = true ∧ (after (z.setF TIME_CFG_SRC 1) (.sample true)).time.sample = none ∧
    (after { z with time := { z.time with lastSampleCc := some 599998 } } (.sample true)).on TIME_STAT_SAMPLE_LOST = true ∧
    (after (sampled 1 { due := 600004, theta := 5 }) .sampleProcess).time.sample.isSome = true ∧ st (sampled 1 { due := 600000, theta := 5000, pd := some 100000 }) .sampleProcess = (3, 2) ∧
    (after (sampled 1 { due := 600000, theta := -9000000 * 65536 }) .sampleProcess).on TIME_STAT_JUMP_REF = true ∧ (after (sampled 1 { due := 600000, theta := 250 * 65536 }) .sampleProcess).f TIME_FREQ_ADJ ≠ 0 ∧
    st (sampled 2 { due := 600000, theta := 250 * 65536 }) .sampleProcess = (1, 0) ∧ st (sampled 2 { due := 600000, theta := 25 * 65536 }) .sampleProcess = (2, 0) ∧
    st (sampled 1 { due := 600000, theta := 5000 }) .sampleProcess = (1, 0) := by decide +kernel
theorem witness_path_average : (after { sampled 1 { due := 600000, theta := 5, pd := some 71 } with time := { (sampled 1 { due := 600000, theta := 5, pd := some 71 }).time with pdAvg := some (55, 1) } } .sampleProcess).time.pdAvg = some (15 * 55 + 71 * 16, 2) ∧
    (after { sampled 1 { due := 600000, theta := 5, pd := some 71 } with time := { (sampled 1 { due := 600000, theta := 5, pd := some 71 }).time with pdAvg := none } } .sampleProcess).time.pdAvg = some (71, 0) ∧
    (after (sampled 0 { due := 600000 }) .sampleProcess).time.sample = none ∧ st ((sampled 3 { due := 600000, theta := 5 }).setF TIME_STAT_CAUSE 1) .sampleProcess = (1, 0) ∧
    (after ((sampled 1 { due := 600000, theta := -9000000 * 65536 }).setF TIME_STAT_JUMP_OVR 1) .sampleProcess).time.jump = some (9000000 * 2 ^ 40) := by decide +kernel
end Time

/-! ### Registers and collectives -/

namespace Reg
def z : State := { State.reset with cc := 600000, cnt := State.reset.cnt.set (C_RX_FRAMES.addr 4 0) 0x123456789abc }
def flagged : State := z.flag TIME_STAT_JUMP_REF
/-- Obligations.FlagsThatAreSetAgainAreNotLost: a clear before, and a clear in, the cc in which hardware sets the flag (R468). -/
theorem witness_flags : let a := TIME_STAT.addr 0 0 0
    let wr (s : State) (a : Nat) (v : Word) : State := after s (.registerWrite 0 (BitVec.ofNat 48 a) v)
    flagged.on TIME_STAT_JUMP_REF = true ∧ (wr flagged a 0xFFFFFFFF).on TIME_STAT_JUMP_REF = true ∧ (wr { flagged with hwSet := [] } a 0xFFFFFFFF).on TIME_STAT_JUMP_REF = false ∧
    ((wr { flagged with hwSet := [] } a 0xFFFFFFFF).flag TIME_STAT_JUMP_REF).on TIME_STAT_JUMP_REF = true ∧ (wr { flagged with hwSet := [] } a 0).on TIME_STAT_JUMP_REF = true := by decide +kernel
/-- Obligations.RegistersStoreAndCountersClear: a counter, an address without register, a plain register, a configuration register, open and closed. -/
theorem witness_register_writes :
    let wr (s : State) (a : Nat) (v : Word) : State := after s (.registerWrite 0 (BitVec.ofNat 48 a) v)
    (wr z (C_RX_FRAMES.addr 4 0) 7).cnt = z.cnt ∧ (wr z 0x2800001 7).csr = z.csr ∧ (wr z 0x5500000 7).csr = z.csr ∧
    (wr z (TIME_CFG.addr 0 0 0) 0xFFFFFFFF).rget TIME_CFG ≠ z.rget TIME_CFG ∧ (wr z (FLT_STAT.addr 0 0 0) 1).rget FLT_STAT = z.rget FLT_STAT ∧
    (wr (z.setF GEN_STAT_CSTATE 3) (DOM_CHIP.addr 0 0 0) 0x12345678).slot1.rget DOM_CHIP ≠ 0 ∧ (wr (z.setF GEN_STAT_CSTATE 3) (DOM_CHIP.addr 0 0 0) 0x12345678).slot0 = z.slot0 ∧
    (wr (z.setF GEN_STAT_CSTATE 0) (DOM_CHIP.addr 0 0 0) 1).on GEN_STAT_WR_CLOSED = true ∧ (wr (z.setF GEN_STAT_CSTATE 0) (DOM_CHIP.addr 0 0 0) 1).cval C_GEN_WR_REFUSED = 1 := by decide +kernel
theorem witness_counter_reads : (after z (.counterLoRead 0 (BitVec.ofNat 48 (C_RX_FRAMES.addr 4 0)))).snap.get (C_RX_FRAMES.addr 4 0 + 4) = 0x1234 ∧
    (after z (.counterLoRead 0 (BitVec.ofNat 48 (FLT_STAT.addr 0 0 0)))).snap = z.snap ∧ counterAt (C_RX_FRAMES.addr 4 0 + 4) = some (C_RX_FRAMES.addr 4 0, true) := by decide +kernel
def counted : State := { (((z.count C_LANE_PRBS_ERR 5 2).count C_TM_Q_ENQ 6 3).count C_POOL_GRANT 9 1).setF POOL_FREE_FREE 77 1 with cntNew := [] }
theorem witness_clears : (after counted (.laneCntClr 2)).cval C_LANE_PRBS_ERR 2 = 0 ∧ (after counted (.laneCntClr 3)).cval C_LANE_PRBS_ERR 2 = 5 ∧
    (after counted (.tmPortClr 3)).cval C_TM_Q_ENQ 3 = 0 ∧ (after counted .poolCntClr).cval C_POOL_GRANT 1 = 0 ∧ (after counted .poolCntClr).f POOL_LOW_LOW 1 = 77 ∧
    (after (z.setF CHIP_METER_LATE_COUNT 5) .chipMeterClr).f CHIP_METER_LATE_COUNT = 0 ∧ (after (z.setF TIME_TIN_STAT_LOST 5 2) (.tinLostClr 2)).f TIME_TIN_STAT_LOST 2 = 0 ∧
    (after (counted.count C_LANE_PRBS_ERR 4 2) (.laneCntClr 2)).cval C_LANE_PRBS_ERR 2 = 4 := by decide +kernel
end Reg

namespace Hob
def W (n : Nat) : Word := BitVec.ofNat 32 n
def desc (root dt el exp ep : Nat) : List Word :=
  [root * 2 ^ 31 + dt * 2 ^ 20 + 3 * 2 ^ 12 + el, 9, 12, 10, exp, 0, 3, 0, 5 * 2 ^ 26 + 100, 1000 * 2 ^ 16, ep, 0x55].map W
def ctx (root exp ep : Nat) (steps : List HobStep) : HobCtx := { desc := desc root 2 64 exp ep, st := 1, next := 12, steps := steps }
def z : State := { State.reset with cc := 600000, nt := 5 * 2 ^ 70 }
def withC (c : HobCtx) : State := z.setHctx 7 c
def pl (n : Nat) : List Byte := (List.range n).map (fun i => BitVec.ofNat 8 (i * 7))
/-- A frame of context 7 at the head of intake, its header as the context itself writes it. -/
def mk (c : HobCtx) (o : HobOut) (child pace : Nat) (fate : Fate := .good) : State :=
  let body := hobHeader c pace 0xffff child o ++ o.payload
  let t := fillTemplate false true (List.replicate 12 1 ++ [8, 0, 0x45, 0] ++ List.replicate 7 0 ++ [17] ++ List.replicate 12 3 ++ [0xb0, 0xb0] ++ List.replicate 4 0) body ++ body ++ [0, 0, 0, 0]
  let s := withC c
  { (s.addBlock [640] 0 135) with hob := { s.hob with intake := [{ frame := 3, ctx := 7, eng := 0 }] }, fwd := { (s.addBlock [640] 0 135).fwd with frames := s.fwd.frames.set 3 { bytes := t, whole := true, written := 9, fate := fate, block := some 640, tag := 135, len := t.length, slot := 0, inPort := 0 } } }
def con (step : Nat) : HobOut := { kind := 0, step := step, payload := pl 128, epc := 1, wtype := 2, elems := 64 }
def st1 (n : Nat) (ph : HobPhase) (bm : Nat) : HobStep := { num := n, phase := ph, bitmap := bm, payload := pl 128, epc := 2, wtype := 2, entered := 5 * 2 ^ 70 }
def cs (s : State) (i : Instr) (k : Cnt) : Nat := (after s i).cval k
def cR (steps : List HobStep) : HobCtx := ctx 1 3 2 steps
def cU (steps : List HobStep) : HobCtx := ctx 0 3 2 steps
/-- Obligations.HobFramesSettleAndCombine, the frames: judged by state, header and PCRC, then by step. -/
theorem witness_contributions : (mk (cR []) (con 12) 1 32).hobType { frame := 3, ctx := 7, eng := 0 } = 0 ∧ (((after (mk (cR []) (con 12) 1 32) (.hobContrib 7 [])).hctx 7).stepOf 12).isSome = true ∧
    ((((after (mk (cR [st1 12 .collect 1]) (con 12) 1 12) (.hobContrib 7 [])).hctx 7).stepOf 12).map (·.phase)) = some .combine := by decide +kernel
theorem witness_contribution_drops : [cs (mk { cR [] with st := 2 } (con 12) 1 32) (.hobContrib 7 []) C_HOB_CTX_DROP, cs (mk (cR []) (con 12) 5 32) (.hobContrib 7 []) C_HOB_BADHDR,
    cs (mk (cR []) (con 12) 1 32 .badFcs) (.hobContrib 7 []) C_HOB_BADCRC, cs (mk (cR [st1 12 .collect 1]) (con 12) 0 0) (.hobContrib 7 []) C_HOB_DUP,
    cs (mk (cR [st1 12 .retained 3]) (con 12) 1 32) (.hobContrib 7 []) C_HOB_RESEND, cs (mk (cR []) (con 17) 1 32) (.hobContrib 7 []) C_HOB_AHEAD] = [1, 1, 1, 1, 1, 1] ∧
    (after (mk (cR []) (con 12) 1 32 .open) (.hobContrib 7 [])).hob.intake ≠ [] := by decide +kernel
theorem witness_results_and_aborts : ((((after (mk (cU [st1 12 .up 3]) { con 12 with kind := 1 } 5 9) (.hobResult 7 [])).hctx 7).stepOf 12).map (·.phase)) = some .down ∧
    ((((after (mk (cU [st1 12 .up 3]) { kind := 2, step := 12, wtype := 2, epc := 7 } 5 9) (.hobAck 7 [])).hctx 7).stepOf 12).map (·.epc)) = some 7 ∧
    cs (mk (cU [st1 12 .combine 3]) { con 12 with kind := 1 } 5 9) (.hobResult 7 []) C_HOB_DUP = 1 ∧
    ((after (mk (cU [st1 12 .up 3]) { kind := 3, step := 12, wtype := 2, cause := 1 } 1 9) (.hobAbortFrame 7 [])).hctx 7).cause = 2 := by decide +kernel
def opn (ch wt : Nat) (p : List Byte) : HobOperand := { child := ch, block := 640, tag := 135, off := 0, len := p.length, wtype := wt, got := (List.range (ceilDiv p.length 256)).foldl (fun t i => t.set i (bytesAt p (256 * i) 256)) [], epc := 1 }
def opC (d : List Word) (tk : Nat) (la : List Nat) (ops : List HobOperand) (conv : List Nat) : HobCtx :=
  { desc := d, st := 1, next := 12, steps := [{ num := 12, phase := .combine, bitmap := 3, ops := ops, acc := some (5, 0), taken := [(0, tk)], lanes := [(0, la)], conv := conv }] }
/-- 64 elements, all x. -/
def bf (x : Nat) : List Byte := (List.replicate 64 (natBytes 2 x)).flatten
def lane (s : State) : List Nat := ((s.hctx 7).steps.head?.map fun t => t.lanes.get 0).getD []
def two (a b : HobOperand) : State := withC (opC (desc 1 2 64 3 2) 0 [] [a, b] [])
/-- 1.5 + 2.25 and 3.75 - 3.75 in bf16, summed in fp32; a single contribution of the context's own type is relayed. -/
theorem witness_combine : (lane (after (two (opn 1 2 (bf 0x3FC0)) (opn 0 2 (bf 0x4010))) (.hobCmb2 7 7))).getD 63 0 = 0x40700000 ∧
    (lane (after (two (opn 1 2 (bf 0x4070)) (opn 0 2 (bf 0xC070))) (.hobCmb2 7 7))).getD 0 1 = 0 ∧
    (lane (after (withC (opC (desc 1 2 64 2 1) 0 [] [opn 1 2 (bf 0x3FC0)] [])) (.hobLd 7 7))).length = 0 := by decide +kernel
theorem witness_accumulate : (lane (after (withC (opC (desc 1 2 64 7 3) 2 (List.replicate 64 0x40700000) [opn 2 2 (bf 0x3F80), opn 1 2 (bf 0x3F80), opn 0 2 (bf 0x3F80)] [])) (.hobCmba 7 7))).getD 5 0 = 0x40980000 ∧
    (lane (after (withC (opC (desc 1 2 64 2 1) 0 [] [opn 1 1 ((List.replicate 64 (natBytes 4 0x3FC00000)).flatten)] [])) (.hobLd 7 7))).getD 63 0 = 0x3FC00000 := by decide +kernel
def full (d : List Word) (conv : List Nat) : State := withC (opC d 2 (List.replicate 64 0x40700000) [opn 1 2 (bf 0x3F80), opn 0 2 (bf 0x3F80)] conv)
def convOf (s : State) : List Nat := ((s.hctx 7).steps.head?.map (·.conv)).getD []
theorem witness_conversions : convOf (after (full (desc 1 2 64 3 2) []) (.hobCvt 7 7)) = [0] ∧ convOf (after (full (desc 1 2 64 3 2) []) (.hobBsq 7 7)) = [] ∧
    convOf (after (full (desc 1 6 64 3 2) []) (.hobBsq 7 7)) = [0] ∧ convOf (after (full (desc 1 2 64 3 2) [0]) (.hobCvt 7 7)) = [0] := by decide +kernel
def xpose : State := full ((W (2 ^ 31 + 2 ^ 29 + 6 * 2 ^ 20 + 3 * 2 ^ 12 + 256)) :: (desc 1 6 256 3 2).tail) [3, 2, 1, 0]
/-- Thirty-two operations within the last 32 hc: at D = 16 the Damper alone holds the engine, and the operation is asked for but not made. -/
def damped : State :=
  let s := (two (opn 1 2 (bf 0x3FC0)) (opn 0 2 (bf 0x4010))).setF HOB_ENG_STAT_DAMPER 16 7
  { s with hob := { s.hob with hc := 12000, slots := s.hob.slots.set 7 ((List.range 32).map fun i => 984 + i / 2) } }
theorem witness_damper : damped.damperHolds 7 = true ∧ damped.issueSlot 7 = none ∧ (damped.setF HOB_ENG_STAT_DAMPER 32 7).damperHolds 7 = false ∧
    (after damped (.hobCmb2 7 7)).hob.requests.get 7 = 1 ∧ (after damped (.hobCmb2 7 7)).hob.issued.get 7 = 0 := by decide +kernel
theorem witness_transpose : ((after xpose (.hobBsxt 7 7)).hctx 7).steps.map (·.tiles) = [1] ∧ (after xpose (.hobBsxt 7 7)).hob.issued.get 7 = 1 := by decide +kernel
/-- Obligations.ResultsDoNotDependOnTheOrderOfArrival. -/
theorem witness_order : let a := opn 1 2 (bf 0x3FC0)
    let b := opn 0 2 (bf 0x4010)
    [a, b].Perm [b, a] ∧ (([b, a] : List HobOperand).map (·.child)).Nodup ∧ (∀ o ∈ [a, b], o.child ∈ ((two a b).hctx 7).children) ∧
    lane (after (two a b) (.hobCmb2 7 7)) = lane (after (two b a) (.hobCmb2 7 7)) := by
  refine ⟨List.Perm.swap _ _ _, ?_, ?_, ?_⟩ <;> decide +kernel
/-- Obligations.HobStepsAndContextsRun: the steps. -/
def done (root ep : Nat) (more : List HobStep) : State :=
  withC { opC (desc root 2 64 3 ep) 2 (List.replicate 64 0x40700000) [opn 1 2 (bf 0x3F80), opn 0 2 (bf 0x3F80)] [0] with steps := (opC (desc root 2 64 3 ep) 2 (List.replicate 64 0x40700000) [opn 1 2 (bf 0x3F80), opn 0 2 (bf 0x3F80)] [0]).steps ++ more }
def phases (s : State) : List (Nat × HobPhase) := (s.hctx 7).steps.map fun t => (t.num, t.phase)
theorem witness_step_boundary : phases (after (done 1 2 []) (.stepBoundary 7 [])) = [(12, .down)] ∧ ((after (done 1 77 []) (.stepBoundary 7 [])).hctx 7).cause = 7 ∧
    phases (after (done 0 2 []) (.stepBoundary 7 [])) = [(12, .up)] ∧
    phases (after (done 0 2 ([13, 14, 15, 16].map fun n => st1 n .up 3)) (.stepBoundary 7 [])) = (12, .held) :: [13, 14, 15, 16].map fun n => (n, .up) := by decide +kernel
theorem witness_resend_and_deadline : (after (withC (cU [st1 12 .up 3, { st1 13 .up 3 with resendAt := 6 * 2 ^ 70 }, { st1 14 .up 3 with resendAt := 3 }])) (.contribResend 7 [])).cval C_HOB_RESEND = 2 ∧
    ((after (withC (cU [{ st1 12 .up 3 with entered := 0 }])) (.stepDeadline 7 [])).hctx 7).cause = 1 ∧ ((after (withC (cU [st1 12 .up 3])) (.stepDeadline 7 [])).hctx 7).st = 1 := by decide +kernel
def wants (o : HobOut) (free : Nat) : State := ((withC { cR [st1 12 .collect 3] with out := [o] }).setF POOL_STAT_STATE poolChain).setF POOL_FREE_CELLS_CELLS free
theorem witness_pool_retry : (((after (wants { kind := 4, step := 12 } 77) (.hobPoolRetry 7 [[0]] 0)).hctx 7).steps.map fun t => t.acc.isSome) = [true] ∧
    (((after (wants { kind := 4, step := 12 } 0) (.hobPoolRetry 7 [[0]] 0)).hctx 7).out.map (·.tryAt)) = [600064] ∧
    (after (wants { kind := 4, step := 12, refused := true, tryAt := 600000 } 77) (.hobPoolRetry 7 [[0]] 0)).cval C_HOB_POOL_WAIT = 1 ∧
    (((after (wants { kind := 4, step := 12, tryAt := 600001 } 77) (.hobPoolRetry 7 [[0]] 0)).hctx 7).out.map (·.tryAt)) = [600001] ∧
    (wants { kind := 4, step := 12 } 77).turn (hobStanding 7) = true := by decide +kernel
/-- The context port: RESULT of each command in each case (R320). -/
def port (k x : Nat) (c : HobCtx) (dt : List Word) : State := { withC c with hob := { (withC c).hob with go := 500000, cmd := k, index := x, data := dt } }.setF HOB_CTX_STAT_BUSY 1
def res (s : State) : Nat := (after s (.hobCtxAccessDone [])).f HOB_CTX_STAT_RESULT
def legal : State := let s := port 2 7 { cR [] with st := 0 } []
  { s with hob := { s.hob with nbr := [100, 101].foldl (fun t i => t.set i (storeNbr (List.replicate 32 0x80000000))) [] } }
theorem witness_context_commands : (after z (.activate 7)).on HOB_CTX_STAT_BUSY = true ∧ (after (port 2 7 (cR []) []) (.nbrWrite 9)).on HOB_CTX_STAT_COLLIDE = true ∧
    [res (port 7 7 (cR []) []), res (port 0 4096 (cR []) []), res (port 0 7 (cR []) []), res (port 1 7 (cR []) []), res (port 1 7 { cR [] with st := 0 } (List.replicate 32 0xFFFFFFFF)), res (port 2 7 (cR []) [])] = [4, 2, 0, 1, 0, 1] ∧
    [res (port 2 7 { cR [] with st := 0, desc := List.replicate 12 0xFFFFFFFF } []), res (port 3 7 { cR [] with st := 2 } []), res (port 3 7 (cR []) []), res (port 4 7 (cR []) []), res (port 4 7 { cR [] with st := 2 } []), res (port 5 100 (cR []) []),
      res (port 6 100 (cR []) (List.replicate 32 1)), res (port 6 99 (cR []) (List.replicate 32 1))] = [3, 1, 0, 1, 0, 0, 1, 0] ∧
    (after { port 3 7 (cR []) [] with cc := 500007 } (.hobCtxAccessDone [])).on HOB_CTX_STAT_BUSY = true := by decide +kernel
end Hob

/-! ### Power, domains, counters, microcode -/

namespace Power
def U : Nat := 1000 * 2 ^ 40
def z : State := { State.reset with cc := 600000, nt := 70 * U + 5 }
def pwr (f : PwrState → PwrState) : State := { z with pwr := f z.pwr }
/-- Obligations.PowerEpochsAndBellowsHints: an epoch to take, one already taken, the safe state and none (the estimate itself takes a free value). -/
theorem witness_epoch : z.pwr.epoch < z.nt / U ∧ (after (pwr fun p => { p with epoch := 70 }) .powerEpoch).free = z.free ∧
    z.pwr.raising = none ∧ ((z.setF PWR_BELLOWS_POINT 2).setF FLT_STAT_SAFE 1).isSafe = true ∧ z.isSafe = false ∧ z.fixedClock = false ∧ z.pwr.failed = false ∧ z.pwr.drop = 0 := by decide +kernel
theorem witness_epoch_premises : (∀ e : Fin 32, z.on PWR_ENG_DEFER e = false ∧ z.combining e = [] ∧ z.f HOB_ENG_STAT_ACTIVE e = 0 ∧ z.hob.lived.get e.val = false) ∧ z.clk = none ∧
    z.f PWR_STAT_THROTTLE = 0 ∧ z.pwr.fix < 2 ^ HOB_ENG_STAT_DAMPER.w := by decide +kernel
def deferred (from_ step : Nat) : State := (({ z with pwr := { z.pwr with defer := z.pwr.defer.set 7 { steps := [(7, step)], from_ := from_ } } }.setF PWR_ENG_DEFER 1 7).setF PWR_ENG_TARGET_D 19 7).setHctx 7 { st := 1, steps := [{ num := 3, phase := .combine }] }
theorem witness_deferral : (after (deferred (60 * U) 3) (.damperDeferEnd 7)).on PWR_ENG_DEFER 7 = true ∧ (after (deferred (60 * U) 4) (.damperDeferEnd 7)).damper 7 = 19 ∧
    (after (deferred (40 * U) 3) (.damperDeferEnd 7)).cval C_PWR_DEFER_TMO = 1 := by decide +kernel
def raising (f : Nat) (g : Bool) : State := pwr fun p => { p with raising := some { from_ := f * U, good := g } }
theorem witness_raises : (after (raising 50 false) .bellowsAbandon).pwr.blocked = z.nt + 1000 * U ∧ (after (raising 50 true) .bellowsAbandon).pwr.raising ≠ none ∧
    (after (raising 51 false) .bellowsAbandon).pwr.raising ≠ none ∧ (after (raising 51 false) .vgoodReport).pwr.raising = some { from_ := 51 * U, good := true } ∧
    (after z .vgoodReport).on PWR_STAT_VGOOD = true ∧ (after z .hobVgoodLoss).on PWR_STAT_VGOOD = false := by decide +kernel
def hints : State := pwr fun p => { p with hints := [{ mask := 0x81, phase := 5, opp := 3, due := 70 }, { mask := 0x80, phase := 9, opp := 7, due := 69 }, { mask := 1, phase := 11, opp := 7, due := 71 }] }
def fullHints : State := pwr fun p => { p with hints := List.replicate 16 { mask := 1, phase := 2, due := 900 } }
theorem witness_hints : (after hints .hintDue).pwr.hints.length = 1 ∧ (after hints .hintDue).phaseOf 7 = 9 ∧ (after hints .hintDue).phaseOf 0 = 5 ∧
    (after z (.hintSubmit 0x00030505)).pwr.hints = [{ mask := z.f PWR_HINT_MASK_ENG, phase := 5, opp := 7, due := 74 }] ∧ (after fullHints (.hintSubmit 0)).on PWR_STAT_HINT_FULL = true ∧
    (after hints (.relearn 5)).f PWR_PHASE_LRN_PI 5 = 2396 := by decide +kernel
def core (s : State) : State := (s.setReg 0 1 0xFFFFFFFFF)
theorem witness_phase_instruction : (core z).coreRuns 0 = true ∧ (core z).user 0 = false ∧ (after (core z) (.phase 0 3 1 0x00030105)).reg 0 3 = 1 ∧
    (after (core z) (.phase 0 3 1 0x00030105)).pwr.hints.map (·.mask) = [0xFFFFFFFF] ∧ (after (core fullHints) (.phase 0 3 1 0x00030105)).reg 0 3 = 0 := by decide +kernel
/-- Obligations.PowerIsMeasuredAndHeatIsJudged. -/
def meas (f : PwrState → PwrState) : State := pwr fun p => f { p with n := 5, sumEst := 5 * 800000000, sumA := 5 * 700000000, prev := some (600000000, 500000000) }
theorem witness_measurements : (after (meas id) (.powerMeasurement 9000 1 true)).f PWR_MEAS_TOTAL = 9000 ∧ (after (meas id) (.powerMeasurement 9000 1 true)).pwr.off = z.pwr.off + 12500000 ∧
    (after (meas fun p => { p with bad := 2 }) (.powerMeasurement 20001 0 true)).on PWR_STAT_SENSOR_FAIL = true ∧ (after (meas fun p => { p with failed := true, good := 2 }) (.powerMeasurement 20000 0 true)).pwr.failed = false ∧
    (after (meas fun p => { p with meas := 1 }) (.powerMeasurement 9000 1 true)).pwr.off = z.pwr.off ∧ (after (pwr fun p => { p with energy := 2 ^ 40 }) .pwrEnergyRead).f PWR_ENERGY_HI_ENERGY = 256 := by decide +kernel
/-- Temperatures are in 0.25 degrees; WARN, HI and TRIP are 95, 100 and 110 at reset (R338). -/
def heat (s : State) (t : Nat) : State := after s (.thermalReading [(0, t)])
def hot : State := pwr fun p => { p with warn := true, hi := true, trip := true, trips := 2, sensors := 2 ^ 64 - 1 }
def codes (s : State) : List Nat := s.flt.pend.map (·.code)
def cool : State := pwr fun p => { p with sensors := 2 ^ 64 - 2, trips := 1 }
theorem witness_heat : [379, 380, 400].map (fun t => codes (heat cool t)) = [[], [1], [1, 2]] ∧ codes (heat cool 440) = [1, 2, 3] ∧ (heat cool 400).on PWR_STAT_THROTTLE = true ∧ signed 16 ((heat cool 65530).f PWR_TMAX_TEMP) = -6 := by decide +kernel
theorem witness_heat_rearms : [372, 371, 392, 391].map (fun t => ((heat hot t).pwr.warn, (heat hot t).pwr.hi)) = [(true, false), (false, false), (true, true), (true, false)] ∧
    ((heat hot 420).pwr.trip, (heat hot 419).pwr.trip) = (true, false) ∧ (heat (pwr fun p => { p with therm := 7 }) 440).pwr.trips = 0 ∧ (codes (heat z 100)).length = 63 := by decide +kernel
end Power

namespace Dom
def U : Nat := 1000 * 2 ^ 40
def chip (n : Nat) : GenSlot := ((({} : GenSlot).rset DOM_ID 7).rset DOM_CHIP (BitVec.ofNat 32 n))
def view (s : State) : State := { s.viewSync with dom := { s.viewSync.dom with view := s.viewSync.dom.view.map fun e => (e.1, { e.2 with changed := 0 }) } }
def base (st : Nat) : State := (((({ State.reset with cc := 600000, nt := 5000 * U + 77 }.setSlot 0 (chip 9)).setF MAC_PORT_STAT_STATE 3 3).setF DOM_PORT_STAT_STATE st 3).setF TIME_STAT_STATE 2).rset UC_VER 0x30007
def z (st : Nat) : State := view (base st)
/-- The body of the hello that a neighbour of the same view, with another chip number, sends at TX. -/
def tx0 : Nat := 4999 * U
def hello : List Byte := (((z 1).setSlot 0 (chip 10)).helloFrame 3 tx0).drop 14
def got (s : State) (b : List Byte) (tx : Nat) : State := (s.setF DOM_PORT_PD_VALID 1 3).setDp 3 (fun d => { d with rx := [{ trx := tx, body := b }] })
def good (s : State) : State := got s hello (tx0 / 2 ^ 24)
def wrong (s : State) (i : Nat) : State := got s (hello.set i (hello.getD i 0 + 32)) (tx0 / 2 ^ 24)
def st (s : State) : Nat × Nat := ((after s (.helloReceive 3)).f DOM_PORT_STAT_STATE 3, (after s (.helloReceive 3)).f DOM_PORT_STAT_CAUSE 3)
/-- Obligations.DomainLinksAgreeByHellos. -/
theorem witness_hello_sent : ((after ((z 1).setDp 3 fun d => { d with sentEpoch := 3 }) (.helloSend 3)).mp 3).gen.length = (if (5000 - 3) % (z 1).ca DOM_HELLO_PERIOD_US = 0 then 1 else 0) ∧
    ((after { z 1 with nt := 5003 * U } (.helloSend 3)).mp 3).gen.length = 1 ∧ ((after { z 3 with nt := 5003 * U } (.helloSend 3)).mp 3).gen.length = 0 := by decide +kernel
theorem witness_agreement : st (good (z 1)) = (1, 0) ∧ st (good ({ z 1 with nt := 5000 * U }.setF DOM_PORT_STAT_AGREE_CNT 2 3 |>.setDp 3 fun d => { d with lastNt := 4999 * U, period := some 1000 })) = (2, 0) ∧ st (good (z 2)) = (2, 0) := by decide +kernel
/-- The first word that differs gives the cause (R350): domain, this chip's own number, and the words after them; then the state of time, the delay, and TX's distance. -/
theorem witness_disagreement : [4, 12, 16, 24].map (fun i => st (wrong (z 2) i)) = [(1, 3), (1, 5), (1, 6), (1, 7)] ∧ st (got (z 2) (hello.set 9 9) (tx0 / 2 ^ 24)) = (1, 4) ∧ st (good (view ((base 1).setF TIME_STAT_STATE 1))) = (1, 9) ∧
    st ((got (z 1) hello (tx0 / 2 ^ 24)).setF DOM_PORT_PD_VALID 0 3) = (1, 11) ∧ st (got (z 1) hello 0) = (1, 12) ∧ (after (wrong (z 2) 4) (.helloReceive 3)).on DOM_PORT_STAT_QENTER 3 = true := by decide +kernel
theorem witness_bad_hellos : (after (wrong (z 1) 0) (.helloReceive 3)).cval C_DOM_BAD 3 = 1 ∧ (after (good (z 3)) (.helloReceive 3)).cval C_DOM_BAD 3 = 1 ∧ (after (good (z 0)) (.helloReceive 3)).cval C_DOM_HELLO_RX 3 = 1 := by decide +kernel
theorem witness_silence : (after (z 2) (.helloSilence 3)).f DOM_PORT_STAT_STATE 3 = 1 ∧ (after (z 1) (.helloSilence 3)).f DOM_PORT_STAT_CAUSE 3 = 2 ∧
    (after ((z 2).setDp 3 fun d => { d with lastNt := 5000 * U }) (.helloSilence 3)).f DOM_PORT_STAT_STATE 3 = 2 := by decide +kernel
/-- In the test state hellos are neither sent nor judged, and silence parts nothing (R473). -/
theorem witness_test_state : ((after { z 1 with nt := 5003 * U, flt := { (z 1).flt with test := true } } (.helloSend 3)).mp 3).gen = [] ∧
    (after { z 2 with flt := { (z 2).flt with test := true } } (.helloSilence 3)).f DOM_PORT_STAT_STATE 3 = 2 ∧
    (after { good (z 1) with flt := { (z 1).flt with test := true } } (.helloReceive 3)).cval C_DOM_HELLO_RX 3 = 1 ∧
    (after { good (z 1) with flt := { (z 1).flt with test := true } } (.helloReceive 3)).f DOM_PORT_STAT_AGREE_CNT 3 = 0 ∧
    ∀ n : Fin 8, ((z 1).dom.view.get n.val).cur = (z 1).viewNow n ∧ ((z 1).dom.view.get n.val).changed + (z 1).ca DOM_HELLO_TOL_NS * 2 ^ 40 < helloTx hello * 2 ^ 24 := by decide +kernel
end Dom

namespace Pmc
def U : Nat := 1000 * 2 ^ 40
def z : State := { State.reset with cc := 600000, nt := 5000 * U + 77 }
def tlm (b : Nat) : State := { z with tlm := { z.tlm with boundary := b, lat := [(0, 5), (53, 9)], depth := [(5, 7)], dig := [(5, { hash := 3, frames := 4, coll := true, bytes := 2 ^ 33 + 5 })] } }.setF TLM_EPOCH_EPOCH_US 1000
/-- Obligations.TelemetryAndPerformanceCountersCount: the banks at a boundary. -/
theorem witness_boundary : let t := after (tlm (4000 * U)) (.telemetryEpoch [])
    t.rget TLM_LAT_BIN 3 5 = 9 ∧ t.rget TLM_DEPTH_BIN 0 5 = 7 ∧ t.rget TLM_DIG_RD 0 5 2 = 0x80000002 ∧ t.f TLM_EPOCH_RD_EPOCH = 4 ∧ t.tlm.lat = [] ∧ (after (tlm (5000 * U)) (.telemetryEpoch [])).tlm.lat ≠ [] ∧
    (after (tlm 0) (.telemetryEpoch [])).cval C_TIME_SKIP = 4 := by decide +kernel
def portCfg (limit : Word) : GenSlot := ((({} : GenSlot).rset MAC_PORT_CFG (wordPut (wordPut 0x24000000 4 3 1) 0 1 1) 3).rset TM_Q_LIMIT limit 3 2)
def card (free : Nat) (limit : Word) (at_ : Nat) : State :=
  let s := (((((tlm (5000 * U)).setSlot 0 (portCfg limit)).rset TLM_COLL0 (BitVec.ofNat 32 (2 ^ 31 + 3 * 2 ^ 20 + 2 * 2 ^ 16 + 42)) 1).setF POOL_STAT_STATE poolChain).setF POOL_FREE_CELLS_CELLS free).setF DOM_PORT_STAT_STATE 3 3 |>.setF MAC_PORT_STAT_STATE 3 3
  { s with tlm := { s.tlm with out := [{ slice := 0, coll := 1, records := 2, count := 2, body := List.replicate 64 1, tryAt := at_ }] } }
def sent (s : State) : Nat × Nat × Nat × Nat := let t := after s (.telemetryEpoch [[0]]); (t.tlm.out.length, t.cval C_TLM_PC_SENT, t.cval C_TLM_PC_DROP, t.cval C_TLM_REC_LOST)
theorem witness_postcards : [sent (card 77 100 0), sent (card 77 0 0), sent (card 0 100 0), sent (card 77 100 600001)] = [(0, 1, 0, 0), (0, 0, 1, 0), (0, 0, 0, 2), (1, 0, 0, 0)] := by decide +kernel
/-- The example of chapter 15: chip counters 4 and 5 are chained on event 0x032, and 3 cell reads wrap counter 4. -/
def chain : State :=
  let s := (z.setPmcCfg 4 (BitVec.ofNat 32 (2 ^ 31 + 0x32 * 2 ^ 16))).setPmcCfg 5 (BitVec.ofNat 32 (2 ^ 31 + 2 ^ 30 + 0x32 * 2 ^ 16))
  { s with cnt := (s.cnt.set (pmcAddr 4) (2 ^ 48 - 2)).set (pmcAddr 5) 7, pmc := { s.pmc with events := [{ code := 0x32, n := 3 }] } }
theorem witness_chain : chain.pmcChained 5 = true ∧ chain.pmcChained 4 = false ∧ chain.pmcAdds 4 = 3 ∧ chain.pmcVal 4 = 2 ^ 48 - 2 := by decide +kernel
/-- 3 cell reads wrap counter 4 and set its OVF; the carry for counter 5 waits for the next cc. -/
theorem witness_count : (after chain .pmcCount).pmcVal 4 = 1 ∧ (after chain .pmcCount).f PMC_OVF_BITS 0 = 16 ∧ (after chain .pmcCount).pmc.carry = [5] := by decide +kernel
def due : State := { chain with pmc := { chain.pmc with due := [5], carry := [] } }
theorem witness_carry : (after due .pmcCarry).pmcVal 5 = 8 ∧ (after { due with pmc := { due.pmc with delivered := true } } .pmcCarry).pmcVal 5 = 7 := by decide +kernel
theorem witness_pmc_configuration : let w (s : State) (n : Nat) (v : Word) : State := after s (.pmcCfgWrite n v)
    (w z 5 0xC0320000).pmcCfg 5 = 0xC0320000 ∧ (w z 4 0xC0320000).pmcCfg 4 = 0x80320000 ∧ (w z 4 0x8FFF0000).on PMC_STAT_CFG_ERR = true ∧ (w due 5 0x80320000).pmc.late.length = 1 := by decide +kernel
theorem witness_pmc_reads_and_clears : (after chain (.pmcClr 0 0x10)).pmcVal 4 = 0 ∧ (after chain (.pmcClr 0 0x10)).pmcVal 5 = 7 ∧ (after due (.pmcLoRead 4)).pmc.snap.get 5 = 9 ∧ (after chain (.freeze true)).on PMC_CTL_FREEZE = true := by decide +kernel
end Pmc

namespace Uc
/-- A patch image of one trap, two microwords and one nanoword. -/
def image (magic key : Nat) : List Byte :=
  natBytes 4 magic ++ natBytes 2 1 ++ natBytes 2 1 ++ natBytes 2 1 ++ natBytes 2 7 ++ natBytes 2 1 ++ natBytes 2 2 ++ natBytes 2 1 ++ natBytes 2 0 ++ natBytes 4 36 ++ natBytes 28 9 ++
    natBytes 1 key ++ natBytes 11 0 ++ natBytes 4 (2 ^ 31 + 0x2C42 * 65536 + 1) ++ natBytes 8 (2 ^ 31) ++ natBytes 24 (2 ^ 191) ++ natBytes 192 1
def loading (magic key : Nat) (len : Nat) : State :=
  let s := { State.reset with cc := 1000 }.store (stkBase + 0x100) (image magic key)
  { s with uc := { s.uc with load := some (990, 0x100, len), micro := [(3, 7)] } }.setF UC_STAT_BUSY 1
def arm (flips : Nat) (s : State) : State := { s with flt := { s.flt with arm := some { target := 1, flips := flips, chunk := 0, index := 0x21 } } }
def res (s : State) : Nat × List (Nat × Nat) := ((after s .patchLoadDone).f UC_STAT_RESULT, (after s .patchLoadDone).flt.pend.map fun e => (e.cls, e.code))
/-- Obligations.PatchLoadsPassEveryCheckOrLeaveNothing: the checks that rest on constants of Config alone cannot be evaluated. -/
theorem witness_patch_refusals : res (loading 1 2 292) = (3, [(8, 13)]) ∧ res (loading 0x4E485543 2 293) = (3, [(8, 13)]) ∧ res (loading 0x4E485543 4 292) = (4, [(14, 1)]) ∧
    res (arm 2 (loading 0x4E485543 4 292)) = (9, [(1, 5)]) ∧ res (arm 1 (loading 1 2 292)) = (3, [(0, 3), (8, 13)]) ∧ (after (loading 1 2 292) .patchLoadDone).uc.micro = [] := by decide +kernel
theorem witness_patch_format : let b := (loading 0x4E485543 2 292).load (stkBase + 0x100) 292
    fieldAt b 0 4 = 0x4E485543 ∧ fieldAt b 4 2 = 1 ∧ fieldAt b 6 2 = 1 ∧ fieldAt b 20 4 = 4 * fieldAt b 12 2 + 4 * fieldAt b 14 2 + 24 * fieldAt b 16 2 ∧ fieldAt b 52 1 = 2 := by decide +kernel
theorem witness_microcode_control : (after (State.reset.setF UC_CTL_LOCK 1) .loadGo).f UC_STAT_RESULT = 2 ∧ (after State.reset .loadGo).on UC_STAT_BUSY = true ∧
    (after (State.reset.setF UC_STAT_LOADED 1) .trapOn).on UC_CTL_TRAP_ON = true ∧ (after State.reset .trapOn).on UC_CTL_TRAP_ON = false ∧ (after State.reset .lock).on UC_CTL_LOCK = true ∧
    (after ((State.reset.setF UC_PADDR_AUTO_INC 1).setF UC_PADDR_ADDR 8191) .ucPdataRead).f UC_PADDR_ADDR = 0 ∧ (after (State.reset.setF UC_PADDR_ADDR 8191) .ucPdataRead).f UC_PADDR_ADDR = 8191 ∧
    (after (after State.reset .loadGo) .loadGo).f UC_STAT_RESULT = 2 ∧ (after ((State.reset.setF UC_LOAD_ADDR_SOFS (2 ^ 24 - 1)).setF UC_LOAD_LEN_BYTES 2) .loadGo).f UC_STAT_RESULT = 2 := by decide +kernel
end Uc

/-! ### Joring, boot, faults and reset -/

namespace Joring
/-- Words 0 and up of a frame with its HCRC, then its trailer. -/
def fr (op dest seq len addr : Nat) (pay : List Nat) (bad : Nat := 0) (flg : Nat := 0) : List (BitVec 64) :=
  let x := 2 ^ 60 + op * 2 ^ 56 + dest * 2 ^ 50 + seq * 2 ^ 32 + len * 2 ^ 24 + flg * 65536
  let x := x + (crc16 ((natBytes 8 x).take 6 ++ natBytes 8 addr) ^^^ (bad / 2))
  let b := (x :: addr :: pay).map (BitVec.ofNat 64)
  b ++ [BitVec.ofNat 64 ((crc32c (b.flatMap fun w => natBytes 8 w.toNat) ^^^ (bad % 2)) * 2 ^ 32 + 65535)]
def z : State := { State.reset with cc := 700000, nt := (1234 * 10 ^ 9 + 500000000) * 2 ^ 40 }
/-- Ring JB is UP and the chip has address 3 on it. -/
def up (s : State) : State := ((s.setF JOR_RING_STAT_STATE 2 1).setF JOR_RING_STAT_ADDRESSED 1 1).setF JOR_RING_STAT_ADDR 3 1
def u : State := up z
def tx (s : State) : List (BitVec 64) := (s.ring 1).tx
/-- The ACK of the answer: trailer bits 31 to 24. -/
def ack (s : State) : Nat := ((tx s).getLastD 0).toNat / 2 ^ 24 % 256
def time : List (BitVec 64) := fr 1 3 0x412 3 0x2800008 [0, 0]
/-- The example of chapter 18: TIME_NOW_HI, _MID and _LO of chip 3 in one READ. -/
theorem test_chapter_18_read : (time.getD 0 0).toNat / 65536 = 0x110C04120300 ∧ ack (after u (.read 1 time)) = 1 ∧
    ((tx (after u (.read 1 time))).drop 2).take 2 = [0x00000000000004D2, 0x1DCD650000000000] := by decide +kernel
/-- The resent frame, 2 us later, is answered from the cache. -/
theorem test_chapter_18_resend : let t := { after u (.read 1 time) with nt := (1234 * 10 ^ 9 + 500002000) * 2 ^ 40 }
    ((tx (after t (.read 1 time))).drop 2).take 2 = [0x00000000000004D2, 0x1DCD650000000000] ∧ (after t (.read 1 time)).cval C_JOR_DUP 1 = 1 := by decide +kernel
def waits (n : Nat) (s : State) : State := s.setRing 1 { s.ring 1 with writes := List.replicate n (0x100000000, [5]) }
def staged (bad : Bool) : State := u.setRing 1 { u.ring 1 with stage := some (0x10000, List.replicate 320 7, bad) }
/-- Obligations.RequestsAreAnsweredInTheirFrame: OK, BADCRC, ADDR, BUSY, MEM and another chip's frame, of READ. -/
theorem witness_reads : let a (s : State) (f : List (BitVec 64)) : Nat := ack (after s (.read 1 f))
    [a u (fr 1 3 7 1 0x100000000 [0]), a u (fr 1 3 7 1 0x100000000 [0] 1), a u (fr 1 3 7 1 0x100000002 [0]), a (waits 1 u) (fr 1 3 7 1 0x100000000 [0]), a u (fr 1 3 7 1 0x201000000 [0]),
      a (staged false) (fr 1 3 7 1 0x201000000 [0]), a (staged true) (fr 1 3 7 1 0x201000000 [0])] = [1, 4, 3, 2, 2, 1, 6] ∧
    tx (after u (.read 1 (fr 1 4 7 1 0x100000000 [0]))) = [] ∧ ((after u (.read 1 (fr 1 3 7 1 0x201000000 [0]))).ring 1).wanted = some 0x10000 := by decide +kernel
/-- A READ of no words is BADOP. -/
theorem witness_read_length : ack (after u (.read 1 (fr 1 3 7 0 0x100000000 []))) = 5 := by decide +kernel
theorem witness_writes : let a (s : State) (f : List (BitVec 64)) : Nat := ack (after s (.write 1 f))
    [a u (fr 2 3 7 3 0x100000010 [5, 6]), a (waits 3 u) (fr 2 3 7 1 0x100000000 [5]), a (waits 4 u) (fr 2 3 7 1 0x100000000 [5]), a u (fr 2 3 7 1 0x201000000 [5]), a u (fr 2 3 7 0 0x100000000 []),
      a (u.setF BOOT_STAT_STAGE 1) (fr 2 3 7 1 0x100000000 [5])] = [1, 1, 2, 3, 5, 2] ∧
    ((after u (.write 1 (fr 2 3 7 3 0x100000010 [0x1122334455667788, 0x99AABBCC00000000]))).ring 1).writes = [(0x100000010, [0x11223344, 0x55667788, 0x99AABBCC])] := by decide +kernel
def sems : State := (u.setSem 5 1).setSem 6 2
theorem witness_semaphores_and_bad_ops : [ack (after sems (.tas 1 (fr 3 3 7 0 4 []))), ack (after sems (.tas 1 (fr 3 3 7 0 5 []))), ack (after sems (.tas 1 (fr 3 3 7 0 64 []))), ack (after sems (.rel 1 (fr 4 3 7 0 6 []))), ack (after sems (.rel 1 (fr 4 3 7 0 5 [])))] = [1, 7, 3, 1, 8] ∧
    (after sems (.tas 1 (fr 3 3 7 0 4 []))).jor.sem.get 4 = 2 ∧ ack (after u (.badop 1 (fr 9 3 7 2 6 [4]))) = 5 ∧ ack (after u (.badop 1 (fr 0 3 7 0 5 []))) = 5 := by decide +kernel
/-- Obligations.RingsRelayCollectEnumerateAndDrain: frames for every chip. -/
def msgs : State := u.setRing 1 { u.ring 1 with msgs := [{ (default : HostMsg) with mseq := 250, kind := 1, core := 2, code := 0x8001 }, { (default : HostMsg) with mseq := 251 }] }
theorem witness_collect : ((tx (after msgs (.collect 1 (fr 5 0 1 6 0 [0, 2 ^ 63 + 5, 0])))).drop 2).take 3 = [BitVec.ofNat 64 (2 ^ 63 + 3 * 2 ^ 56 + 250 * 2 ^ 48 + 2 ^ 46 + 2 * 2 ^ 42 + 0x8001), 0x8000000000000005, BitVec.ofNat 64 (2 ^ 63 + 3 * 2 ^ 56 + 251 * 2 ^ 48)] ∧
    tx (after u (.collect 1 (fr 5 0 1 2 0 [0]))) = fr 5 0 1 2 0 [0] ∧ tx (after u (.collect 1 (fr 5 0 1 3 0 [0, 0]))) = [] := by decide +kernel
def fresh : State := (z.setF JOR_RING_STAT_STATE 2 1).setSlot 0 (({} : GenSlot).rset DOM_CHIP 0x1234)
def enum (a : Nat) (flg : Nat := 0) : List (BitVec 64) := fr 6 0 9 63 a (List.replicate 32 0) 0 flg
theorem witness_enumeration : (after fresh (.enum 1 (enum 1))).f JOR_RING_STAT_ADDR 1 = 1 := by decide +kernel
theorem witness_enumeration_kept : (after u (.enum 1 (enum 1))).f JOR_RING_STAT_ADDR 1 = 3 := by decide +kernel
theorem witness_enumeration_without_address : (after u (.enum 1 (enum 0 1))).on JOR_RING_STAT_ADDRESSED 1 = false ∧ (after u (.enum 1 (enum 0 1))).on JOR_RING_STAT_NOADDR 1 = true := by decide +kernel
theorem witness_relay : (after u (.joringFrameRelay 1 (fr 1 4 7 1 0 [0]) false)).cval C_JOR_RX_FRAMES 1 = 1 ∧ (after u (.joringFrameRelay 1 (fr 1 3 7 1 0 [0]) false)).cval C_JOR_RX_FRAMES 1 = 0 ∧
    (after u (.joringFrameRelay 1 (fr 1 3 7 1 0 [0] 2) false)).cval C_JOR_HCRC_ERR 1 = 1 ∧ (after u (.joringFrameRelay 1 [1, 2] false)).cval C_JOR_CRC_ERR 1 = 1 ∧ tx (after u (.joringFrameRelay 1 [1, 2] true)) = [1, 2] := by decide +kernel
/-- The inputs, the write queue, the stage and the messages. -/
theorem witness_ring_inputs : let st (s : State) (c : Instr) : Nat := (after s c).f JOR_RING_STAT_STATE 1
    [st z (.ringBlockLock 1), st (z.setF JOR_RING_STAT_STATE 1 1) (.ringInputUp 1), st z (.ringInputUp 1), st u (.ringInputDown 1), st u (.ringBlockLock 1)] = [1, 2, 0, 0, 2] ∧
    (after u (.ringInputDown 1)).on JOR_RING_STAT_BREAK_EV 1 = true ∧ (after u (.brkBlockRx 1 63)).f JOR_RING_STAT_BRK_ADDR 1 = 63 ∧ (after z (.brkBlockRx 1 63)).f JOR_RING_STAT_BRK_RX 1 = 0 := by decide +kernel
def queued : State := u.setRing 1 { u.ring 1 with writes := [(stkBase + 16, [0x11223344, 6]), (TIME_CFG.addr 0 0 0, [0])], wanted := some 77 }
/-- One word of the queue in a new cc. -/
noncomputable def drain (s : State) : State := after { s with cc := s.cc + 1 } (.writeQueueDrain 1)
theorem witness_write_queue : ((drain queued).ring 1).writes = [(stkBase + 20, [6]), (TIME_CFG.addr 0 0 0, [0])] ∧ (drain (drain queued)).load (stkBase + 16) 8 = [0x11, 0x22, 0x33, 0x44, 0, 0, 0, 6] ∧
    ((after (drain queued) (.writeQueueDrain 1)).ring 1).writes = ((drain queued).ring 1).writes ∧ ((drain (drain (drain queued))).ring 1).writes = [] ∧
    (drain (drain (drain queued))).rget TIME_CFG ≠ queued.rget TIME_CFG := by decide +kernel
def written : State := { queued with fwd := { queued.fwd with writers := [(0, [{ (default : CellWrite) with cell := 77, data := [4] }])] } }
noncomputable def fetched (s : State) : State := after s (.bufMemStageFetch 1 [])
theorem witness_stage_and_messages : (fetched queued).fwd.arriving.map (·.due) = [700004] ∧ ((fetched queued).ring 1).wanted = some 77 ∧ (fetched written).fwd.arriving.map (·.data) = [[4]] ∧
    (({ fetched written with cc := 700004 }.arrivals).ring 1).stage = some (77, [4], false) ∧ (fetched (fetched queued)).fwd.arriving.length = 1 ∧
    ((after msgs (.jorMsgAck 1 250)).ring 1).msgs.map (·.mseq) = [251] ∧ ((after msgs (.jorMsgAck 1 3)).ring 1).msgs = [] ∧ ((after msgs (.jorMsgAck 1 249)).ring 1).msgs.length = 2 := by decide +kernel
end Joring

namespace Boot
def z : State := { State.reset with cc := 15000000, boot := { State.reset.boot with phase := 1, flash := [(5, 9)] } }
/-- Obligations.ResetsReturnTheChipToItsResetState. -/
theorem witness_resets : (after (z.setF BOOT_RST_ATTEMPT 3) .systemReset).f BOOT_RST_CAUSE = 1 ∧ (after (z.setF BOOT_RST_ATTEMPT 3) .softwareReset).f BOOT_RST_ATTEMPT = 0 ∧ (after z .softwareReset).boot.flash = [(5, 9)] ∧
    (after z (.powerOnReset false)).cc = 0 ∧ (after ((z.setF BOOT_WDOG_MS 9).setF BOOT_RST_ATTEMPT 15) .watchdogReset).f BOOT_RST_ATTEMPT = 15 ∧ (after (z.setF BOOT_WDOG_MS 9) .watchdogReset).f BOOT_RST_CAUSE = 3 := by decide +kernel
theorem witness_watchdog_and_initialisation : (after (z.setF BOOT_WDOG_MS 10) .watchdogReset).cc = z.cc ∧ (after (z.setF BOOT_WDOG_MS 0) .watchdogReset).cc = z.cc ∧ (after z .wdogKick).boot.wdogFrom = z.cc ∧
    (after { z with mem := [(9, 4)] } .hardwareInitialisation).mem = [(9, 4)] ∧ (after { z with mem := [(9, 4)], boot := {} } .hardwareInitialisation).mem = [] ∧ (after { z with boot := {} } .hardwareInitialisation).f POOL_FREE_CELLS_CELLS = 2097152 := by decide +kernel
/-- An image of 16 bytes (R447), its key and signature of no meaning. -/
def image (magic : Nat) (load : Nat := 0x40) : List Byte :=
  natBytes 4 magic ++ natBytes 2 1 ++ natBytes 2 0 ++ natBytes 4 5 ++ natBytes 4 (3 * 65536) ++ natBytes 4 16 ++ natBytes 4 load ++ natBytes 4 (load + 8) ++ natBytes 1 4 ++ natBytes 35 0 ++ List.replicate 16 7 ++ natBytes 192 1
def host (b : List Byte) (ofs len : Nat) : State :=
  (({ z with boot := { z.boot with recovery := true } }.store (stkBase + ofs) b).setF BOOT_HOST_ADDR_VALUE ofs).setF BOOT_HOST_LEN_VALUE len
def codes (s : State) : List (Nat × Nat) := s.flt.pend.map fun e => (e.cls, e.code)
/-- Obligations.TheRomEntersTheFirstImageThatPasses, as far as constants of Config leave it to be evaluated: the ways to RECOVERY, and images from the host that do not pass. -/
theorem witness_rom : (after (z.setF BOOT_RST_ATTEMPT 4) .bootRomStart).f BOOT_STAT_ERR = 8 ∧ (after { z with flt := { z.flt with test := true } } .bootRomStart).f BOOT_STAT_STAGE = 0x0F ∧
    (after { z with boot := {} } .bootRomStart).f BOOT_STAT_STAGE = 0 := by decide +kernel
theorem witness_hostload : codes (after (host (image 3) 0x2000 272) .hostload) = [(8, 14)] ∧ codes (after (host (image 0x4E484257) 0x2000 273) .hostload) = [(8, 14)] ∧ codes (after (host (image 0x4E484257) 0x2010 272) .hostload) = [(8, 14)] ∧
    codes (after (host (image 0x4E484257) 0x2000 272) .hostload) = [(14, 2)] ∧ codes (after (host (image 0x4E484257 0x50) 0x2000 272) .hostload) = [(8, 14)] ∧ codes (after z .hostload) = [] := by decide +kernel
/-- Obligations.TheFlashEngineMovesWhatItMay, for a part of 2^26 bytes. -/
def moves (x : FlashOp) : State := { z.store stkBase [1, 2, 3, 4, 5, 6, 7, 255] with boot := { z.boot with transfer := some x, flash := (List.range 8).map fun i => (8 + i, 0x0F) } }
def op (n ofs len : Nat) : FlashOp := { op := n, ofs := ofs, addr := stkBase, len := len }
theorem witness_flash_allowed (h : Config.flashPart 1 = 26) : [(op 0 0 8), (op 1 8 8), (op 0 1 8), (op 0 0 4), (op 1 (2 ^ 26) 8)].map (moves (op 0 0 8)).flashRefused = [false, false, false, true, true] := by
  show [_, _, _, _, _] = _
  simp only [State.flashRefused, h]; decide +kernel
theorem witness_flash_commands : (after z (.flashTransferDone false)).boot = z.boot ∧ (after z .flashErase).f BOOT_FL_CTL_OP = 2 ∧ (after (z.setF BOOT_FL_CTL_BUSY 1) .flashErase).boot.transfer = none := by decide +kernel
end Boot

namespace Faults
def z : State := { State.reset with cc := 5000, nt := 7 * 10 ^ 9 * 2 ^ 40 + 3 * 2 ^ 40 + 9 }
/-- Faults detected in an earlier cc, with the reactions of that cc. -/
def ev (l : List FaultEv) (s : State) : State := { s with flt := { s.flt with pend := l.map fun e => { e with react := s.rget FLT_REACT e.cls } } }
noncomputable def rec3 (e : FaultEv) (s : State) : State := after (ev [{ e with cls := 3 }] s) (.faultRecord 3)
/-- The example of chapter 20: THERMAL codes 1, 2 and 3 at levels 0, 1 and 3, with their notices. -/
noncomputable def warm : State := rec3 { cls := 3, level := 0, code := 1 } z
noncomputable def hot : State := rec3 { cls := 3, level := 1, code := 2 } warm
noncomputable def trip : State := rec3 { cls := 3, level := 3, code := 3 } hot
theorem test_chapter_20_records : hot.fltRecWord 3 = 0xE2020102 ∧ trip.fltRecWord 3 = 0xEB030103 ∧ (warm.ring 0).msgs = [] ∧ (hot.ring 0).msgs.map (·.code) = [0x0302] ∧ (trip.ring 1).msgs.map (·.code) = [0x0302, 0x0303] ∧
    trip.f FLT_SAFE_INFO_CLASS = 3 ∧ trip.f FLT_SAFE_INFO_CAUSE = 3 ∧ trip.on FLT_STAT_SAFE = true := by decide +kernel
/-- Every sensor valid at 92.75 degrees. -/
def cooled (s : State) : State := { (List.range 64).foldl (fun s k => (s.setF PWR_TSENS_VALID 1 k).setF PWR_TSENS_TEMP 371 k) s with cc := 9000 }
theorem test_chapter_20_acknowledge : (after hot (.ack 3)).on FLT_STAT_ACK_REFUSED = true ∧ (after (cooled hot) (.ack 3)).rget FLT_REC_STAT 3 = 0 ∧ (after (cooled hot) (.ack 3)).on FLT_STAT_ACK_REFUSED = false ∧
    (after (cooled trip) .safeExit).on FLT_STAT_EXIT_REFUSED = true := by decide +kernel
/-- Obligations.FaultsAreRecordedAndAcknowledged: ascending code within one cc, a lift, a full message queue, and the entry's cc. -/
theorem witness_fault_records : nextFault 5 [{ cls := 5, level := 0, code := 7, cc := 4 }, { cls := 5, level := 0, code := 3, cc := 4 }, { cls := 5, level := 0, code := 1, cc := 5 }] = some { cls := 5, level := 0, code := 3, cc := 4 } ∧
    (rec3 { cls := 3, level := 1, code := 3, lift := true } warm).f FLT_REC_STAT_LEVEL 3 = 2 ∧ (rec3 { cls := 3, level := 1, code := 3, lift := true } warm).f FLT_REC_STAT_COUNT 3 = 1 ∧
    (rec3 { cls := 3, level := 1, code := 2 } (warm.setRing 0 { warm.ring 0 with msgs := List.replicate 16 {} })).cval C_JOR_MSG_DROP 0 = 1 ∧ (after z (.faultRecord 3)).cnt = z.cnt ∧
    (after (ev [{ cls := 1, level := 3, code := 4 }] trip) (.faultRecord 1)).f FLT_SAFE_INFO_CLASS = 1 ∧ (after (ev [{ cls := 1, level := 3, code := 4 }] { trip with cc := 5001 }) (.faultRecord 1)).f FLT_SAFE_INFO_CLASS = 3 := by decide +kernel
def open_ (c : Fin 16) : State := (((cooled z).setF JOR_RING_STAT_STATE 2 0).setF JOR_RING_STAT_STATE 2 1).setF FLT_REC_STAT_VALID 1 c
noncomputable def ackd (c : Fin 16) (f : State → State) : Bool := (after (f (open_ c)) (.ack c)).on FLT_STAT_ACK_REFUSED
theorem witness_acknowledgements : [ackd 5 id, ackd 11 id, ackd 11 (·.setF JOR_RING_STAT_STATE 1 1), ackd 2 (fun s => { s with pwr := { s.pwr with overs := 1 } }), ackd 3 (·.setF PWR_TSENS_VALID 0 63), ackd 10 (·.setF POOL_LOWTHR_THR 5 2),
    ackd 5 (fun s => { s with flt := { s.flt with raised := [5] } })] = [false, false, true, true, true, true, true] ∧ (after z (.ack 5)).csr = z.csr := by decide +kernel
/-- Obligations.TheSafeStateForcesAndReleasesTheBlocks. -/
theorem witness_safe_enter : (after z .safeEnter).rget FLT_SAFE_INFO = 0x80000000 ∧ (after z .safeEnter).flt.safeDue = some 5012 ∧ (after (after z .safeEnter) .safeEnter).flt.safeDue = some 5012 ∧ (after z .safeExit).csr = z.csr ∧
    (after { trip with cc := 5011 } .safeStateCommand).flt.safeDue = some 5012 ∧ (after z .safeStateCommand).flt.safeDue = none := by decide +kernel
def exiting : State := (z.setF FLT_STAT_SAFE 1)
theorem witness_safe_exit_premises : exiting.f FLT_STAT_SAFE ≠ 0 ∧ (∀ c ∈ List.range 16, exiting.on FLT_REC_STAT_SAFED c = false) ∧ exiting.safeComing = false ∧
    (after (exiting.setF FLT_REC_STAT_SAFED 1 5) .safeExit).on FLT_STAT_EXIT_REFUSED = true := by decide +kernel
/-- Obligations.TestAccessActsOnlyAsTestStateAllows. -/
def test : State := { z with flt := { z.flt with test := true } }
theorem witness_injections : (after z (.faultInject 0x80320500)).flt.pend.map (fun e => (e.cls, e.code)) = [(14, 3)] ∧ (after test (.faultInject 0x80320500)).flt.pend.map (fun e => (e.cls, e.level, e.code, e.inj)) = [(2, 3, 5, true)] ∧
    (after test (.memInjectArm 0x98400007)).flt.arm = some { target := 1, flips := 2, chunk := 1, index := 7 } ∧ (after test (.memInjectArm 0x18400007)).flt.arm = none := by decide +kernel
theorem witness_jtag : (after z (.jtagInstruction 0 [true, true])).jtag.tdo = [false, true] ∧ ((after z (.jtagInstruction 3 (List.replicate 34 true))).jtag.tdo.drop 32) = [true, true] ∧ (after z (.jtagInstruction 1 [true, false])).jtag.cells = [true, false] := by decide +kernel
end Faults

/-- Obligations.ResetIsSound, ResetHoldsTheStatedValues and EveryStepKeepsSoundness: the reset state meets the invariant. -/
theorem witness_reset : State.reset.mem.wf = true ∧ State.reset.csr.wf = true ∧ State.reset.cnt.wf = true ∧ State.reset.nt < ntWrap ∧ State.reset.pending = [] := by decide +kernel
/-- Obligations.StepRunsFrontCommand, EmptyQueuePassesOneCycle, NoCommandStopsTheChip and CommandsLeaveTheQueue: first in, first out; an empty queue passes one cc. -/
def stepped (s : State) : State := match step s with
  | .next t => t
  | _ => s
theorem witness_queue : let s := { State.reset with pending := [.set, .lock] }
    (stepped s).pending = [.lock] ∧ (stepped s).cc = 0 ∧ (stepped s).on UC_CTL_LOCK = false ∧ (stepped (stepped s)).on UC_CTL_LOCK = true ∧ (stepped (stepped (stepped s))).cc = 1 := by decide +kernel

end Sys2Proof.Tests
end

section
/-! RETI (R392), and the laws it rests on: a field that is given a value of its width, a step that changes some registers alone, and what a
jump leaves of its core's status register. -/

namespace Sys2Proof.Machine

/-- A field reads what was last written to it, where the value fits. -/
theorem State.f_setF_of_lt (s : State) (x : Fld) {v : Nat} (i j k : Nat) (h : x.lsb + x.w ≤ 32) (hv : v < 2 ^ x.w) :
    (s.setF x v i j k).f x i j k = v := by
  rw [State.f_setF_same _ _ _ _ _ _ h, Nat.mod_eq_of_lt hv]

/-! ### Steps that change some registers alone -/

theorem Only.refl (as cs : List Nat) (s : State) : Only as cs s s :=
  ⟨rfl, fun _ _ => rfl, fun _ _ => rfl, fun _ _ _ => rfl⟩

/-- A write of a field of a listed register changes the listed registers alone. -/
theorem Only.setF {as cs : List Nat} {s t : State} (h : Only as cs s t) (x : Fld) (v i j k : Nat) (hx : x.reg.addr i j k ∈ as) :
    Only as cs s (t.setF x v i j k) := by
  obtain ⟨hst, hregs, hcnt, hnew⟩ := h
  refine ⟨by rw [hst]; rfl, fun a ha => ?_, hcnt, hnew⟩
  have hne : a ≠ x.reg.addr i j k := fun e => ha (e ▸ hx)
  rw [State.csr_setF_other _ _ _ _ _ _ hne, hregs a ha]

/-- An instruction counted as retired changes nothing but the events that wait to be counted. -/
theorem Only.retired {as cs : List Nat} {s t : State} (h : Only as cs s t) (k : Nat) (u : Bool) :
    Only as cs { s with pmc := (t.retired k u).pmc } (t.retired k u) := by
  obtain ⟨hst, hregs, hcnt, hnew⟩ := h
  refine ⟨?_, hregs, hcnt, hnew⟩
  rw [State.retired_eq, hst]

/-- A jump changes PC and the events that wait to be counted, beside what its body has changed. -/
theorem Only.settle_jump {as cs : List Nat} {s t : State} (h : Only as cs s t) (k pc a : Nat) (u : Bool) (hpc : STK_PC.addr k 0 0 ∈ as) :
    Only as cs { s with pmc := ((Ended.jump t a).settle k pc u).pmc } ((Ended.jump t a).settle k pc u) :=
  (h.retired k u).setF STK_PC_ADDR a k 0 0 hpc

/-! ### STK_Kk_STAT -/

theorem stkStat_addr_ne_stkPc (k : Nat) : STK_STAT.addr k 0 0 ≠ STK_PC.addr k 0 0 := by
  simp [Reg.addr, STK_STAT, STK_PC]

/-- A jump leaves every field of its core's STK_Kk_STAT as its body has it. -/
theorem Ended.settle_jump_stat (s : State) (k pc a : Nat) (u : Bool) (x : Fld) (hx : x.reg = STK_STAT) :
    ((Ended.jump s a).settle k pc u).f x k = s.f x k := by
  have hne : x.reg.addr k 0 0 ≠ STK_PC_ADDR.reg.addr k 0 0 := hx ▸ stkStat_addr_ne_stkPc k
  exact State.f_setF_reg (s.retired k u) a hne

/-- Core `k` with PRIV and IEN as given. -/
def State.setLevel (s : State) (k priv ien : Nat) : State := (s.setF STK_STAT_PRIV priv k).setF STK_STAT_IEN ien k

theorem State.setLevel_priv (s : State) (k : Nat) {priv : Nat} (ien : Nat) (h : priv < 2) :
    (s.setLevel k priv ien).f STK_STAT_PRIV k = priv := by
  rw [State.setLevel, State.f_setF_field (x := STK_STAT_IEN) (y := STK_STAT_PRIV) _ _ _ _ _ rfl (by decide)]
  exact State.f_setF_of_lt _ _ _ _ _ (by decide) h

theorem State.setLevel_ien (s : State) (k priv : Nat) {ien : Nat} (h : ien < 2) :
    (s.setLevel k priv ien).f STK_STAT_IEN k = ien :=
  State.f_setF_of_lt _ _ _ _ _ (by decide) h

theorem State.setLevel_mcActive (s : State) (k priv ien : Nat) :
    (s.setLevel k priv ien).f STK_STAT_MC_ACTIVE k = s.f STK_STAT_MC_ACTIVE k := by
  rw [State.setLevel, State.f_setF_field (x := STK_STAT_IEN) (y := STK_STAT_MC_ACTIVE) _ _ _ _ _ rfl (by decide),
    State.f_setF_field (x := STK_STAT_PRIV) (y := STK_STAT_MC_ACTIVE) _ _ _ _ _ rfl (by decide)]

theorem Only.setLevel {as cs : List Nat} {s t : State} (h : Only as cs s t) (k priv ien : Nat) (hk : STK_STAT.addr k 0 0 ∈ as) :
    Only as cs s (t.setLevel k priv ien) :=
  (h.setF STK_STAT_PRIV priv k 0 0 hk).setF STK_STAT_IEN ien k 0 0 hk

/-! ### RETI (R392) -/

/-- The state that RETI's jump starts from and the jump's target: from the machine-check registers, or from those of the handler. -/
theorem exec_reti {s : State} {k : Fin 4} (hr : s.coreRuns k = true) (hu : s.user k = false) :
    exec (.reti k) s = .next (Ended.settle
      (if s.on STK_STAT_MC_ACTIVE k then
        .jump (((s.microRun k).setLevel k (s.f STK_STAT_MC_PRIV k) (s.f STK_STAT_MC_IEN k)).setF STK_STAT_MC_ACTIVE 0 k) (s.f STK_MC_RESUME_ADDR k)
      else .jump ((s.microRun k).setLevel k (s.f STK_STAT_EPRIV k) (s.f STK_STAT_EIEN k)) (s.f STK_EPC_ADDR k))
      k (s.pc k) (s.user k)) :=
  State.instr_body s k true true _ hr rfl (.inr hu)

/-- Settles O11: by MC_ACTIVE, RETI is a jump out of a machine check or out of a handler. -/
theorem retiRestores : Obligations.RetiRestores := by
  intro s k hr hu
  have hstat : STK_STAT.addr k 0 0 ∈ [STK_STAT.addr k 0 0, STK_PC.addr k 0 0] := by simp
  have hpc : STK_PC.addr k 0 0 ∈ [STK_STAT.addr k 0 0, STK_PC.addr k 0 0] := by simp
  have hlevel (priv ien : Nat) := (Only.refl _ [] (s.microRun k)).setLevel k priv ien hstat
  refine ⟨_, exec_reti hr hu, ?_⟩
  cases hm : s.on STK_STAT_MC_ACTIVE k with
  | false =>
    have hne : s.f STK_STAT_MC_ACTIVE k ≠ 1 := by simpa [State.on] using hm
    simp only [Bool.false_eq_true, if_false]
    refine ⟨fun h0 => ⟨?pc, ?priv, ?ien, ?mc⟩, fun h1 => absurd h1 hne, (hlevel _ _).settle_jump _ _ _ _ hpc⟩
    case pc => exact Ended.settle_jump_pc _ _ _ _ _ (State.f_lt s STK_EPC_ADDR k 0 0)
    case priv => exact (Ended.settle_jump_stat _ _ _ _ _ _ rfl).trans (State.setLevel_priv _ _ _ (State.f_lt s STK_STAT_EPRIV k 0 0))
    case ien => exact (Ended.settle_jump_stat _ _ _ _ _ _ rfl).trans (State.setLevel_ien _ _ _ (State.f_lt s STK_STAT_EIEN k 0 0))
    case mc => exact (Ended.settle_jump_stat _ _ _ _ _ _ rfl).trans ((State.setLevel_mcActive _ _ _ _).trans h0)
  | true =>
    have h1 : s.f STK_STAT_MC_ACTIVE k = 1 := by simpa [State.on] using hm
    have hkeep (u : State) (x : Fld) (hx : x.reg = STK_STAT) (hb : x.lsb + x.w ≤ 3 ∨ 4 ≤ x.lsb) :
        (u.setF STK_STAT_MC_ACTIVE 0 k).f x k = u.f x k := State.f_setF_field _ _ _ _ _ hx hb
    simp only [if_true]
    refine ⟨fun h0 => absurd (h0.symm.trans h1) (by decide), fun _ => ⟨?pc, ?priv, ?ien, ?mc⟩,
      ((hlevel _ _).setF _ 0 _ _ _ hstat).settle_jump _ _ _ _ hpc⟩
    case pc => exact Ended.settle_jump_pc _ _ _ _ _ (State.f_lt s STK_MC_RESUME_ADDR k 0 0)
    case priv =>
      rw [Ended.settle_jump_stat _ _ _ _ _ _ rfl, hkeep _ _ rfl (by decide)]
      exact State.setLevel_priv _ _ _ (State.f_lt s STK_STAT_MC_PRIV k 0 0)
    case ien =>
      rw [Ended.settle_jump_stat _ _ _ _ _ _ rfl, hkeep _ _ rfl (by decide)]
      exact State.setLevel_ien _ _ _ (State.f_lt s STK_STAT_MC_IEN k 0 0)
    case mc => exact (Ended.settle_jump_stat _ _ _ _ _ _ rfl).trans (State.f_setF_same _ _ _ _ _ _ (by decide))

end Sys2Proof.Machine
end

section
/-! Semaphores that are freed without their holder (R431), and the laws it rests on: a status flag that has been set, and what the
operations on semaphores do to each of them and leave alone. -/

namespace Sys2Proof.Machine

/-! ### Status flags -/

/-- A one-bit flag that has been set is 1, where it resets to 0. -/
theorem State.on_flag (s : State) (x : Fld) (i j k : Nat) (hw : x.w = 1) (hb : x.lsb < 32) (hr : (x.reg.reset i j k).testBit x.lsb = false) :
    (s.flag x i j k).on x i j k = true := by
  have hset := s.flag_bit x i j k 0 hb
  rw [Nat.add_zero] at hset
  have hbit : ((s.flag x i j k).rget x.reg i j k).getLsbD x.lsb = true := by
    rw [State.rget, BitVec.getLsbD_xor, hset, BitVec.getLsbD_ofNat, hr, Bool.and_false, Bool.xor_false]
  have hf : ((s.flag x i j k).f x i j k).testBit 0 = true := by
    rw [State.f, wordBits_testBit, hw, Nat.add_zero, hbit]; rfl
  have hlt := (s.flag x i j k).f_lt x i j k
  rw [hw] at hlt
  rw [Nat.testBit_zero, decide_eq_true_iff] at hf
  rw [State.on, beq_iff_eq]
  omega

/-- Setting a flag changes the listed registers alone, where they hold the flag and its companion. -/
theorem Only.flag {as cs : List Nat} {s t : State} (h : Only as cs s t) (x : Fld) (i j k b : Nat) (hx : x.reg.addr i j k ∈ as)
    (hc : ∀ c, x.sa = some c → x.reg.addr i j k + c.1 ∈ as) : Only as cs s (t.flag x i j k b) := by
  obtain ⟨hst, hregs, hcnt, hnew⟩ := h
  refine ⟨?_, fun a ha => ?_, by simpa [CountersBut] using hcnt, by simpa using hnew⟩
  · rw [State.flag_only, hst]
  · have hne : a ≠ x.reg.addr i j k := fun e => ha (e ▸ hx)
    have hnec (c) (e : x.sa = some c) : a ≠ x.reg.addr i j k + c.1 := fun e' => ha (e' ▸ hc c e)
    rw [State.flag_other _ _ _ _ _ _ hne hnec, hregs a ha]

/-! ### Semaphores -/

theorem State.sem_setSem (s : State) (n who m : Nat) : (s.setSem n who).sem m = if m = n then who else s.sem m :=
  Tab.get_set _ _ _ _

@[simp] theorem State.sem_setRing (s : State) (j : Nat) (r : Ring) (m : Nat) : (s.setRing j r).sem m = s.sem m := rfl

@[simp] theorem State.sem_flag (s : State) (x : Fld) (i j k b m : Nat) : (s.flag x i j k b).sem m = s.sem m :=
  congrArg (·.sem.get m) (s.flag_jor x i j k b)

/-- A release frees the semaphore that it names from the master that it names, and leaves every other case. -/
theorem State.sem_semGive (s : State) (n who m : Nat) :
    (s.semGive n who).1.sem m = if m = n ∧ s.sem m = who then 0 else s.sem m := by
  unfold State.semGive
  by_cases hm : m = n
  · subst hm; split <;> simp [State.sem_setSem, *]
  · split <;> simp [State.sem_setSem, hm]

theorem State.semGive_only (s : State) (n who : Nat) : (s.semGive n who).1 = { s with jor := (s.semGive n who).1.jor } := by
  unfold State.semGive; split <;> rfl

/-- `who` frees every semaphore of a list that it holds. -/
def State.semGives (s : State) (who : Nat) (l : List Nat) : State := l.foldl (fun s n => (s.semGive n who).1) s

theorem State.semGives_cons (s : State) (who n : Nat) (l : List Nat) :
    s.semGives who (n :: l) = (s.semGive n who).1.semGives who l := rfl

theorem State.sem_semGives (s : State) (who : Nat) (l : List Nat) (m : Nat) :
    (s.semGives who l).sem m = if m ∈ l ∧ s.sem m = who then 0 else s.sem m := by
  induction l generalizing s with
  | nil => simp [State.semGives]
  | cons n l ih =>
    rw [State.semGives_cons, ih, State.sem_semGive]
    by_cases hm : m = n
    · by_cases hw : s.sem n = who <;> simp [hm, hw]
    · simp [hm]

theorem State.semGives_only (s : State) (who : Nat) (l : List Nat) : s.semGives who l = { s with jor := (s.semGives who l).jor } := by
  induction l generalizing s with
  | nil => rfl
  | cons n l ih =>
    rw [State.semGives_cons, ih, State.semGive_only]

/-- A command that has changed the Joring link alone and then sets a flag of JOR_SEM_EV changes that register and the link. -/
theorem Only.jor_flag {s u : State} (h : u = { s with jor := u.jor }) (x : Fld) (hr : x.reg = JOR_SEM_EV)
    (hc : ∀ c, x.sa = some c → c.1 = 0) :
    Only [JOR_SEM_EV.addr 0 0 0] [] { s with jor := (u.flag x).jor } (u.flag x) := by
  rw [State.flag_jor, ← h]
  exact (Only.refl _ _ u).flag x 0 0 0 0 (by simp [hr]) fun c e => by simp [hr, hc c e]

/-! ### R431 -/

theorem exec_jorSemFree (n : Fin 64) (s : State) : exec (.jorSemFree n) s = .next ((s.setSem n 0).flag JOR_SEM_EV_FORCED) := rfl

/-- The state after a ring's semaphores are freed: the outage is marked, the ring gives back what it holds, and LOST is set. -/
theorem exec_semRingTimeout {ring : Fin 2} {s : State} (h : s.semTimedOut ring = true) :
    exec (.semRingTimeout ring) s = .next
      (((s.setRing ring { s.ring ring with timedOut := true }).semGives (ring + 1) (List.range 64)).flag JOR_SEM_EV_LOST) :=
  congrArg Host.Outcome.next (if_pos h)

theorem State.semTimedOut_iff (s : State) (j : Nat) :
    s.semTimedOut j = true ↔ s.f JOR_RING_STAT_STATE j ≠ 2 ∧ s.f JOR_SEM_CFG_TMO_MS ≠ 0 ∧ (s.ring j).timedOut = false ∧
      (s.ring j).downFrom + s.f JOR_SEM_CFG_TMO_MS * 1500000 ≤ s.cc := by
  simp [State.semTimedOut, State.ringUp, and_assoc]

@[simp] theorem State.coreHalt_jor (s : State) (k : Nat) : (s.coreHalt k).jor = s.jor := by
  unfold State.coreHalt
  split
  · rfl
  · split <;> rfl

/-- Settles O13: both ways of freeing are changes of the Joring link with a flag after them, and a halt leaves the link. -/
theorem semaphoresAreFreedWithoutTheirHolder : Obligations.SemaphoresAreFreedWithoutTheirHolder := by
  intro s
  refine ⟨fun n => ⟨_, exec_jorSemFree n s, ?_, fun m hm => ?_, ?_, ?_⟩, fun ring hdown hon honce hlong => ?_,
    fun k => ⟨_, rfl, State.coreHalt_jor s k⟩⟩
  · simp [State.sem_setSem]
  · simp [State.sem_setSem, hm]
  · exact State.on_flag _ _ _ _ _ rfl (by decide) (by decide)
  · exact Only.jor_flag rfl _ rfl (by simp [JOR_SEM_EV_FORCED])
  · have hdue : s.semTimedOut ring = true := (s.semTimedOut_iff ring).2 ⟨hdown, hon, honce, hlong⟩
    refine ⟨_, exec_semRingTimeout hdue, fun n hn => ?_, ?_, ?_⟩
    · simp [State.sem_semGives, hn]
    · exact State.on_flag _ _ _ _ _ rfl (by decide) (by decide)
    · have hjor := State.semGives_only (s.setRing ring { s.ring ring with timedOut := true }) (ring + 1) (List.range 64)
      exact Only.jor_flag (s := s) hjor _ rfl (by simp [JOR_SEM_EV_LOST])

end Sys2Proof.Machine
end

section
/-! Status flags under R468, and the laws they rest on: a bit that hardware sets together with its mark, one write of 1 to one flag, and a
word written over several flags of a register. -/

namespace Sys2Proof.Machine

/-! ### A bit set together with its mark -/

/-- Bit `e.2` of the register at chip address `e.1`, for a register whose flags reset to 0. -/
def State.flagAt (s : State) (e : Nat × Nat) : Bool := (s.csr.get e.1).getLsbD e.2

/-- Hardware sets bit `e` and leaves its mark for this cc. -/
def State.mark (s : State) (e : Nat × Nat) : State := { s.orBit e.1 e.2 with hwSet := e :: s.hwSet }

@[simp] theorem State.mark_hwSet (s : State) (e : Nat × Nat) : (s.mark e).hwSet = e :: s.hwSet := rfl

@[simp] theorem State.mark_swClr (s : State) (e : Nat × Nat) : (s.mark e).swClr = s.swClr := rfl

theorem State.flagAt_mark_iff (s : State) (e m : Nat × Nat) :
    (s.mark m).flagAt e = true ↔ s.flagAt e = true ∨ (e = m ∧ e.2 < 32) := by
  obtain ⟨a, b⟩ := e
  by_cases hb : b < 32
  · have h : (s.mark m).flagAt (a, b) = _ := s.bit_orBit m.1 m.2 a b hb
    rw [h]
    simp [State.flagAt, hb, Prod.ext_iff]
  · simp [State.flagAt, BitVec.getLsbD_of_ge _ _ (Nat.le_of_not_lt hb), hb]

theorem State.flagAt_mark (s : State) {e : Nat × Nat} (m : Nat × Nat) (h : s.flagAt e = true) : (s.mark m).flagAt e = true :=
  (s.flagAt_mark_iff e m).2 (.inl h)

theorem State.flag_of_not_cleared {s : State} {x : Fld} {i j k b : Nat} (h : (x.reg.addr i j k, x.lsb + b) ∉ s.swClr) :
    s.flag x i j k b = s.mark (x.reg.addr i j k, x.lsb + b) := by
  unfold State.flag
  cases x.sa with
  | none => rfl
  | some c => exact if_neg h

theorem State.flag_of_no_companion {s : State} {x : Fld} {i j k b : Nat} (h : x.sa = none) :
    s.flag x i j k b = s.mark (x.reg.addr i j k, x.lsb + b) := by
  unfold State.flag
  rw [h]
  rfl

theorem State.flag_of_cleared {s : State} {x : Fld} {i j k b : Nat} {c : Nat × Nat} (hc : x.sa = some c)
    (h : (x.reg.addr i j k, x.lsb + b) ∈ s.swClr) :
    s.flag x i j k b = (s.mark (x.reg.addr i j k, x.lsb + b)).mark (x.reg.addr i j k + c.1, c.2 + b) := by
  unfold State.flag
  rw [hc]
  exact if_pos h

/-- A flag is set by marking its bit, and its companion's too where software has cleared the flag in this cc. -/
theorem State.flag_cases (s : State) (x : Fld) (i j k b : Nat) :
    s.flag x i j k b = s.mark (x.reg.addr i j k, x.lsb + b) ∨
    ∃ m, s.flag x i j k b = (s.mark (x.reg.addr i j k, x.lsb + b)).mark m := by
  cases hc : x.sa with
  | none => exact .inl (State.flag_of_no_companion hc)
  | some c =>
    by_cases h : (x.reg.addr i j k, x.lsb + b) ∈ s.swClr
    · exact .inr ⟨_, State.flag_of_cleared hc h⟩
    · exact .inl (State.flag_of_not_cleared h)

/-- A flag that software has cleared in this cc sets its companion with it. -/
theorem State.flag_companion {s : State} {x : Fld} {i j k b : Nat} {c : Nat × Nat} (hc : x.sa = some c)
    (h : (x.reg.addr i j k, x.lsb + b) ∈ s.swClr) (hb : c.2 + b < 32) :
    (s.flag x i j k b).flagAt (x.reg.addr i j k + c.1, c.2 + b) = true := by
  rw [State.flag_of_cleared hc h, State.flagAt_mark_iff]
  exact .inr ⟨rfl, hb⟩

/-! ### One write of 1 to one flag -/

theorem State.w1c_of_not_marked {s : State} {x : Fld} {a b : Nat} (h : (a, x.lsb + b) ∉ s.hwSet) :
    s.w1c x a b = { s.clrBit a (x.lsb + b) with swClr := (a, x.lsb + b) :: s.swClr } := if_neg h

theorem State.w1c_of_no_companion {s : State} {x : Fld} {a b : Nat} (h : (a, x.lsb + b) ∈ s.hwSet) (hc : x.sa = none) :
    s.w1c x a b = { s with swClr := (a, x.lsb + b) :: s.swClr } := by
  unfold State.w1c
  rw [hc]
  exact if_pos h

theorem State.w1c_of_marked {s : State} {x : Fld} {a b : Nat} {c : Nat × Nat} (h : (a, x.lsb + b) ∈ s.hwSet) (hc : x.sa = some c) :
    s.w1c x a b = State.mark { s with swClr := (a, x.lsb + b) :: s.swClr } (a + c.1, c.2 + b) := by
  unfold State.w1c
  rw [hc]
  exact if_pos h

/-- The three ways in which a write of 1 to a flag can end. -/
theorem State.w1c_cases (s : State) (x : Fld) (a b : Nat) :
    ((a, x.lsb + b) ∉ s.hwSet ∧ s.w1c x a b = { s.clrBit a (x.lsb + b) with swClr := (a, x.lsb + b) :: s.swClr }) ∨
    ((a, x.lsb + b) ∈ s.hwSet ∧ x.sa = none ∧ s.w1c x a b = { s with swClr := (a, x.lsb + b) :: s.swClr }) ∨
    ∃ c, (a, x.lsb + b) ∈ s.hwSet ∧ x.sa = some c ∧
      s.w1c x a b = State.mark { s with swClr := (a, x.lsb + b) :: s.swClr } (a + c.1, c.2 + b) := by
  by_cases h : (a, x.lsb + b) ∈ s.hwSet
  · cases hc : x.sa with
    | none => exact .inr (.inl ⟨h, rfl, State.w1c_of_no_companion h hc⟩)
    | some c => exact .inr (.inr ⟨c, h, rfl, State.w1c_of_marked h hc⟩)
  · exact .inl ⟨h, State.w1c_of_not_marked h⟩

theorem State.flagAt_clrBit_iff (s : State) (a b : Nat) (e : Nat × Nat) :
    (s.clrBit a b).flagAt e = true ↔ s.flagAt e = true ∧ e ≠ (a, b) := by
  obtain ⟨a', b'⟩ := e
  by_cases ha : a' = a
  · subst ha
    by_cases hb : b' < 32
    · rw [State.flagAt, State.clrBit, Tab.get_set_same, BitVec.getLsbD_and, BitVec.getLsbD_not, BitVec.getLsbD_ofNat,
        Nat.testBit_two_pow]
      simp [State.flagAt, hb, ne_comm]
    · simp [State.flagAt, BitVec.getLsbD_of_ge _ _ (Nat.le_of_not_lt hb)]
  · simp [State.flagAt, State.clrBit, Tab.get_set_other _ _ ha, ha]

theorem State.swClr_w1c (s : State) (x : Fld) (a b : Nat) : (s.w1c x a b).swClr = (a, x.lsb + b) :: s.swClr := by
  obtain ⟨-, h⟩ | ⟨-, -, h⟩ | ⟨c, -, -, h⟩ := s.w1c_cases x a b <;> simp [h]

theorem State.hwSet_subset_w1c (s : State) (x : Fld) (a b : Nat) : s.hwSet ⊆ (s.w1c x a b).hwSet := by
  obtain ⟨-, h⟩ | ⟨-, -, h⟩ | ⟨c, -, -, h⟩ := s.w1c_cases x a b <;> rw [h]
  · exact fun _ => id
  · exact fun _ => id
  · exact List.subset_cons_self _ _

/-- A write of 1 marks no bit but the companion's. -/
theorem State.mem_hwSet_w1c {s : State} {x : Fld} {a b : Nat} {e : Nat × Nat} (he : e ∈ (s.w1c x a b).hwSet) :
    e ∈ s.hwSet ∨ ∃ c, x.sa = some c ∧ e = (a + c.1, c.2 + b) := by
  obtain ⟨-, h⟩ | ⟨-, -, h⟩ | ⟨c, -, hc, h⟩ := s.w1c_cases x a b <;> rw [h] at he
  · exact .inl he
  · exact .inl he
  · exact (List.mem_cons.1 he).elim (fun heq => .inr ⟨c, hc, heq⟩) .inl

theorem State.companion_mem_w1c {s : State} {x : Fld} {a b : Nat} {c : Nat × Nat} (h : (a, x.lsb + b) ∈ s.hwSet) (hc : x.sa = some c) :
    (a + c.1, c.2 + b) ∈ (s.w1c x a b).hwSet := by
  rw [State.w1c_of_marked h hc]
  exact List.mem_cons_self

/-- A write of 1 sets no bit but with its mark. -/
theorem State.flagAt_w1c {s : State} {x : Fld} {a b : Nat} {e : Nat × Nat} (he : (s.w1c x a b).flagAt e = true) :
    s.flagAt e = true ∨ e ∈ (s.w1c x a b).hwSet := by
  obtain ⟨-, h⟩ | ⟨-, -, h⟩ | ⟨c, -, -, h⟩ := s.w1c_cases x a b <;> rw [h] at he ⊢
  · exact .inl ((s.flagAt_clrBit_iff a (x.lsb + b) e).1 he).1
  · exact .inl he
  · exact ((State.flagAt_mark_iff _ _ _).1 he).imp id fun ⟨heq, _⟩ => heq ▸ List.mem_cons_self

/-- A flag that still is 1 after the write of 1 was set by hardware in this cc. -/
theorem State.flagAt_w1c_self {s : State} {x : Fld} {a b : Nat} (he : (s.w1c x a b).flagAt (a, x.lsb + b) = true) :
    (a, x.lsb + b) ∈ s.hwSet := by
  by_contra hn
  rw [State.w1c_of_not_marked hn] at he
  exact ((s.flagAt_clrBit_iff a (x.lsb + b) _).1 he).2 rfl

/-- The bits that hardware has set in this cc are 1. -/
def State.MarksHold (s : State) : Prop := ∀ e ∈ s.hwSet, s.flagAt e = true

theorem State.MarksHold.mark {s : State} (h : s.MarksHold) {m : Nat × Nat} (hm : m.2 < 32) : (s.mark m).MarksHold := by
  intro e he
  obtain rfl | he := List.mem_cons.1 he
  · exact (s.flagAt_mark_iff e e).2 (.inr ⟨rfl, hm⟩)
  · exact s.flagAt_mark m (h e he)

theorem State.MarksHold.w1c {s : State} (h : s.MarksHold) (x : Fld) (a b : Nat) (hb : ∀ c, x.sa = some c → c.2 + b < 32) :
    (s.w1c x a b).MarksHold := by
  obtain ⟨hn, hw⟩ | ⟨-, -, hw⟩ | ⟨c, -, hc, hw⟩ := s.w1c_cases x a b <;> rw [hw]
  · exact fun e he => (s.flagAt_clrBit_iff a (x.lsb + b) e).2 ⟨h e he, fun heq => hn (heq ▸ he)⟩
  · exact h
  · exact State.MarksHold.mark (s := { s with swClr := _ }) h (hb c hc)

/-! ### A word written over the flags of a register -/

/-- Write 1 to flags of the register at address `a`, in order. -/
def State.clearBits (s : State) (a : Nat) (l : List (Fld × Nat)) : State := l.foldl (fun s y => s.w1c y.1 a y.2) s

/-- The bits of W1C fields to which a written word has a 1. -/
def Place.cleared (p : Place) (v : Word) : List (Fld × Nat) :=
  (p.fields.filter (fun x => x.acc = .w1c)).flatMap fun x => ((List.range x.w).filter fun b => wrBit v (x.lsb + b)).map fun b => (x, b)

theorem State.clearFlags_eq (s : State) (p : Place) (v : Word) :
    s.clearFlags p v = s.clearBits (p.reg.addr p.i p.j p.k) (p.cleared v) := by
  simp only [State.clearFlags, State.clearBits, Place.cleared, List.foldl_flatMap, List.foldl_map, List.foldl_filter]

theorem Place.mem_cleared {p : Place} {v : Word} {y : Fld × Nat} :
    y ∈ p.cleared v ↔ (y.1 ∈ p.fields ∧ y.1.acc = .w1c) ∧ y.2 < y.1.w ∧ wrBit v (y.1.lsb + y.2) = true := by
  obtain ⟨x, b⟩ := y
  simp [Place.cleared]

theorem wrBit_eq (v : Word) (b : Nat) : wrBit v b = v.getLsbD b := by
  have h0 := wordBits_testBit v b 1 0
  have hlt := wordBits_lt v b 1
  rw [Nat.testBit_zero] at h0
  rw [wrBit, Bool.eq_iff_iff, beq_iff_eq]
  simp at h0
  rw [← h0]
  simp
  omega

section
variable (s : State) (a : Nat) (l : List (Fld × Nat))

theorem State.hwSet_subset_clearBits : s.hwSet ⊆ (s.clearBits a l).hwSet := by
  induction l generalizing s with
  | nil => exact fun _ => id
  | cons y l ih => exact List.Subset.trans (s.hwSet_subset_w1c y.1 a y.2) (ih _)

theorem State.swClr_subset_clearBits : s.swClr ⊆ (s.clearBits a l).swClr := by
  induction l generalizing s with
  | nil => exact fun _ => id
  | cons y l ih =>
    refine List.Subset.trans ?_ (ih (s.w1c y.1 a y.2))
    rw [State.swClr_w1c]
    exact List.subset_cons_self _ _

variable {s a l}

/-- Every flag written is marked as cleared by software. -/
theorem State.mem_swClr_clearBits {y : Fld × Nat} (hy : y ∈ l) : (a, y.1.lsb + y.2) ∈ (s.clearBits a l).swClr := by
  induction l generalizing s with
  | nil => simp at hy
  | cons z l ih =>
    obtain rfl | hy := List.mem_cons.1 hy
    · exact State.swClr_subset_clearBits _ a l (State.swClr_w1c s _ _ _ ▸ List.mem_cons_self)
    · exact ih hy

/-- Only companions of the flags written are newly marked. -/
theorem State.mem_hwSet_clearBits {e : Nat × Nat} (he : e ∈ (s.clearBits a l).hwSet) :
    e ∈ s.hwSet ∨ ∃ y ∈ l, ∃ c, y.1.sa = some c ∧ e = (a + c.1, c.2 + y.2) := by
  induction l generalizing s with
  | nil => exact .inl he
  | cons y l ih =>
    obtain hw | ⟨z, hz, hc⟩ := ih (s := s.w1c y.1 a y.2) he
    · exact (State.mem_hwSet_w1c hw).imp id fun hc => ⟨y, List.mem_cons_self, hc⟩
    · exact .inr ⟨z, List.mem_cons_of_mem _ hz, hc⟩

/-- A flag that hardware set before the write has its companion marked. -/
theorem State.companion_mem_clearBits {y : Fld × Nat} {c : Nat × Nat} (hy : y ∈ l) (h : (a, y.1.lsb + y.2) ∈ s.hwSet)
    (hc : y.1.sa = some c) : (a + c.1, c.2 + y.2) ∈ (s.clearBits a l).hwSet := by
  induction l generalizing s with
  | nil => simp at hy
  | cons z l ih =>
    obtain rfl | hy := List.mem_cons.1 hy
    · exact State.hwSet_subset_clearBits _ a l (State.companion_mem_w1c h hc)
    · exact ih hy (s.hwSet_subset_w1c _ _ _ h)

theorem State.flagAt_clearBits {e : Nat × Nat} (he : (s.clearBits a l).flagAt e = true) :
    s.flagAt e = true ∨ e ∈ (s.clearBits a l).hwSet := by
  induction l generalizing s with
  | nil => exact .inl he
  | cons y l ih =>
    obtain hw | hm := ih (s := s.w1c y.1 a y.2) he
    · exact (State.flagAt_w1c hw).imp id fun hm => State.hwSet_subset_clearBits _ a l hm
    · exact .inr hm

/-- A flag written that still is 1 is marked. -/
theorem State.flagAt_clearBits_self {y : Fld × Nat} (hy : y ∈ l) (he : (s.clearBits a l).flagAt (a, y.1.lsb + y.2) = true) :
    (a, y.1.lsb + y.2) ∈ (s.clearBits a l).hwSet := by
  induction l generalizing s with
  | nil => simp at hy
  | cons z l ih =>
    obtain rfl | hy := List.mem_cons.1 hy
    · obtain hw | hm := State.flagAt_clearBits (s := s.w1c _ a _) he
      · exact State.hwSet_subset_clearBits s a _ (State.flagAt_w1c_self hw)
      · exact hm
    · exact ih hy he

theorem State.MarksHold.clearBits (h : s.MarksHold) (hb : ∀ y ∈ l, ∀ c, y.1.sa = some c → c.2 + y.2 < 32) : (s.clearBits a l).MarksHold := by
  induction l generalizing s with
  | nil => exact h
  | cons y l ih =>
    exact ih (h.w1c y.1 a y.2 (hb y List.mem_cons_self)) fun z hz => hb z (List.mem_cons_of_mem _ hz)

end

end Sys2Proof.Machine
end

section
/-! The flags of the catalogue: where a register lies that an address names, and what the register tables say of every W1C field, its
companion and the fields beside it. -/

namespace Sys2Proof.Machine

/-! ### The place that an address names -/

theorem dimIndex_mul_le (d s n : Nat) : s * dimIndex d s n ≤ d := by
  unfold dimIndex
  split
  · simp
  · exact (Nat.mul_le_mul_left s (Nat.min_le_left _ _)).trans (Nat.mul_div_le d s)

theorem dimIndex_lt (d s : Nat) {n : Nat} (hn : 0 < n) : dimIndex d s n < n := by
  unfold dimIndex
  split <;> omega

/-- A register lies at the address by which it is found. -/
theorem Reg.addr_of_find {r : Reg} {a i j k : Nat} (h : r.find a = some (i, j, k)) :
    r.addr i j k = a ∧ i = dimIndex (a - r.base) r.s0 r.n0 := by
  unfold Reg.find at h
  split at h
  · simp at h
  · next hb =>
    dsimp only at h
    split at h
    · next hk =>
      simp only [Option.some.injEq, Prod.mk.injEq] at h
      obtain ⟨rfl, rfl, rfl⟩ := h
      have hi := dimIndex_mul_le (a - r.base) r.s0 r.n0
      have hj := dimIndex_mul_le (a - r.base - r.s0 * dimIndex (a - r.base) r.s0 r.n0) r.s1 r.n1
      refine ⟨?_, rfl⟩
      unfold Reg.addr
      omega
    · simp at h

/-- Every register of the chip with its fields. -/
def catalogue : List (Reg × List Fld) :=
  [regsCHIP, regsLANE, regsMAC, regsTRK, regsPRS, regsSTG, regsGEN, regsBUF, regsPOOL, regsTM, regsTIME, regsHOB, regsPWR, regsDOM, regsTLM,
    regsPMC, regsSTK, regsUC, regsJOR, regsFLT, regsBOOT].flatten

theorem blockRegs_subset_catalogue (a : Nat) : blockRegs a ⊆ catalogue := by
  intro e he
  unfold blockRegs at he
  unfold catalogue
  rw [List.mem_flatten]
  split at he
  case h_22 => simp at he
  all_goals exact ⟨_, by simp, he⟩

/-- What an address names is a register of the catalogue with its fields, and lies at that address. -/
theorem placeOf_spec {a : Nat} {p : Place} (h : placeOf a = some p) :
    (p.reg, p.fields) ∈ catalogue ∧ p.reg.addr p.i p.j p.k = a ∧ p.i = dimIndex (a - p.reg.base) p.reg.s0 p.reg.n0 := by
  unfold placeOf at h
  split at h
  · simp at h
  · obtain ⟨e, he, hfind⟩ := List.exists_of_findSome?_eq_some h
    obtain ⟨⟨i, j, k⟩, hx, rfl⟩ := Option.map_eq_some_iff.1 hfind
    exact ⟨blockRegs_subset_catalogue a he, Reg.addr_of_find hx⟩

/-! ### What the register tables say of the W1C fields (R18, R468) -/

/-- Two fields of a register share no bit. -/
abbrev Fld.apart (x y : Fld) : Prop := x.lsb + x.w ≤ y.lsb ∨ y.lsb + y.w ≤ x.lsb

/-- Two registers lie at the same addresses. -/
abbrev Reg.sameAddr (r q : Reg) : Prop := r.base = q.base ∧ r.s0 = q.s0 ∧ r.n0 = q.n0 ∧ r.s1 = q.s1 ∧ r.s2 = q.s2

theorem Reg.sameAddr.addr {r q : Reg} (h : r.sameAddr q) (i j k : Nat) : r.addr i j k = q.addr i j k := by
  obtain ⟨hb, h0, -, h1, h2⟩ := h
  simp [Reg.addr, hb, h0, h1, h2]

/-- A flag's register is no configuration register; the flag lies in the register's word, and shares no bit with what a write stores. -/
theorem flag_in_catalogue : ∀ e ∈ catalogue, ∀ x ∈ e.2, x.acc = .w1c →
    e.1.cfg = false ∧ x.reg.sameAddr e.1 ∧ x.lsb + x.w ≤ 32 ∧ ∀ y ∈ e.2, y.acc = .rw → y.apart x := by
  decide +kernel

/-- A companion lies in its register's word: in the flag's own register it is a flag without a companion, and of a register whose
write sets nothing in motion it may lie in another. -/
theorem companion_in_catalogue : ∀ e ∈ catalogue, ∀ x ∈ e.2, x.acc = .w1c → ∀ c ∈ x.sa, c.2 + x.w ≤ 32 ∧
    (c.1 = 0 → ∃ y ∈ e.2, y.acc = .w1c ∧ y.sa = none ∧ y.lsb = c.2 ∧ y.w = x.w) ∧ (c.1 ≠ 0 → e.1.act = .none) := by
  decide +kernel

/-- A flag with a companion shares no bit with one without. -/
theorem flags_apart_in_catalogue : ∀ e ∈ catalogue, ∀ x ∈ e.2, x.acc = .w1c → x.sa ≠ none →
    ∀ y ∈ e.2, y.acc = .w1c → y.sa = none → x.apart y := by
  decide +kernel

/-- The registers with flags whose write sets something in motion, and bits below their flags. -/
theorem act_in_catalogue : ∀ e ∈ catalogue, ∀ x ∈ e.2, x.acc = .w1c → e.1.act = .none ∨
    (e.1.act = .auxCfg ∧ e.1.sameAddr LANE_AUX_CFG ∧ 3 ≤ x.lsb) ∨ (e.1.act = .lanePrbs ∧ e.1.sameAddr LANE_PRBS ∧ 9 ≤ x.lsb) ∨
    (e.1.act = .macAux ∧ e.1.sameAddr MAC_AUX_CTL ∧ 2 ≤ x.lsb) := by
  decide +kernel

/-- Every flag has a companion or is the companion of another. -/
theorem flag_has_or_is_companion : ∀ e ∈ catalogue, ∀ x ∈ e.2, x.acc = .w1c → x.sa ≠ none ∨
    (catalogue.any fun f => f.2.any fun y => y.acc == .w1c && (y.sa == some (e.1.base - f.1.base, x.lsb)) && f.1.base ≤ e.1.base && y.w == x.w) =
      true := by
  decide +kernel

end Sys2Proof.Machine
end

section
/-! What a write's further effects do to the flags of its register: the effects of LANE_AUX_CFG, LANE_PRBS and MAC_AUX_CTL reach lanes, ports,
the traffic manager and the trunk layer, and none of these clears a flag of the three registers, or sets one without its mark. -/

namespace Sys2Proof.Machine

/-! ### Steps that keep a flag -/

/-- A write of a field keeps the bits outside it. -/
theorem wordPut_getLsbD_out (w : Word) {lsb wd i : Nat} (v : Nat) (h : i < lsb ∨ lsb + wd ≤ i) :
    (wordPut w lsb wd v).getLsbD i = w.getLsbD i := by
  rw [wordPut_getLsbD, if_neg (by omega)]
  by_cases hi : i < 32
  · simp [hi]
  · simp [BitVec.getLsbD_of_ge _ _ (Nat.le_of_not_lt hi)]

/-- From `s` to `t` no flag is cleared by software or loses its mark of this cc, and flag `e` stays, or is set with its mark. -/
structure FlagStep (e : Nat × Nat) (s t : State) : Prop where
  swClr : t.swClr = s.swClr
  hwSet : s.hwSet ⊆ t.hwSet
  stays : s.flagAt e = true → t.flagAt e = true
  marked : t.flagAt e = true → s.flagAt e = true ∨ e ∈ t.hwSet

namespace FlagStep

section
variable {e : Nat × Nat} {s t u : State}

theorem refl (e : Nat × Nat) (s : State) : FlagStep e s s := ⟨rfl, fun _ => id, id, .inl⟩

theorem trans (h : FlagStep e s t) (h' : FlagStep e t u) : FlagStep e s u where
  swClr := h'.swClr.trans h.swClr
  hwSet := List.Subset.trans h.hwSet h'.hwSet
  stays := h'.stays ∘ h.stays
  marked hu := (h'.marked hu).elim (fun ht => (h.marked ht).imp id fun hm => h'.hwSet hm) .inr

/-- A step that changes neither the flag nor the marks. -/
theorem of_flagAt_eq (h : FlagStep e s t) (hc : u.flagAt e = t.flagAt e) (hh : u.hwSet = t.hwSet) (hs : u.swClr = t.swClr) :
    FlagStep e s u :=
  h.trans ⟨hs, hh ▸ fun _ => id, hc ▸ id, fun hu => .inl (hc ▸ hu)⟩

/-- A step that changes neither registers nor marks. -/
theorem of_eq (h : FlagStep e s t) (hc : u.csr = t.csr) (hh : u.hwSet = t.hwSet) (hs : u.swClr = t.swClr) : FlagStep e s u :=
  h.of_flagAt_eq (by simp [State.flagAt, hc]) hh hs

theorem mark (h : FlagStep e s t) {m : Nat × Nat} : FlagStep e s (t.mark m) :=
  h.trans ⟨rfl, List.subset_cons_self _ _, t.flagAt_mark m,
    fun hu => ((t.flagAt_mark_iff e m).1 hu).imp id fun ⟨heq, _⟩ => heq ▸ List.mem_cons_self⟩

theorem flag (h : FlagStep e s t) {x : Fld} {i j k b : Nat} : FlagStep e s (t.flag x i j k b) := by
  obtain hf | ⟨m, hf⟩ := t.flag_cases x i j k b <;> rw [hf]
  · exact h.mark
  · exact h.mark.mark

theorem rset (h : FlagStep e s t) {r : Reg} {v : Word} {i j k : Nat}
    (hv : r.addr i j k = e.1 → v.getLsbD e.2 = (t.rget r i j k).getLsbD e.2) : FlagStep e s (t.rset r v i j k) := by
  refine h.of_flagAt_eq ?_ rfl rfl
  by_cases ha : r.addr i j k = e.1
  · simp [State.flagAt, State.rset, ha, hv ha, State.rget]
  · simp [State.flagAt, State.csr_rset_other _ _ _ _ _ _ (Ne.symm ha)]

/-- A write of a field keeps a flag that is no bit of the field. -/
theorem setF (h : FlagStep e s t) {x : Fld} {v i j k : Nat} (hx : x.reg.addr i j k = e.1 → e.2 < x.lsb ∨ x.lsb + x.w ≤ e.2) :
    FlagStep e s (t.setF x v i j k) := by
  refine h.rset fun ha => ?_
  exact wordPut_getLsbD_out _ _ (hx ha)

theorem foldl {α : Type} {f : State → α → State} {l : List α} (h : FlagStep e s t) (hf : ∀ t a, FlagStep e t (f t a)) :
    FlagStep e s (l.foldl f t) := by
  induction l generalizing t with
  | nil => exact h
  | cons a l ih => exact ih (h.trans (hf t a))

end

end FlagStep

/-! ### The three registers and the registers beside them -/

/-- The addresses of the registers with flags whose write sets something in motion. -/
def ActingFlags (a : Nat) : Prop :=
  ∃ i, (i < 2 ∧ a = LANE_AUX_CFG.addr i 0 0) ∨ (i < 514 ∧ a = LANE_PRBS.addr i 0 0) ∨ (i < 2 ∧ a = MAC_AUX_CTL.addr i 0 0)

/-- Does a register lie above or below the three, or at other places than theirs in each 64 bytes. -/
def Reg.besideActingFlags (r : Reg) : Bool :=
  0x830000 ≤ r.base || (r.base < 0x400000 && r.s0 == 0 && r.s1 == 0 && r.s2 == 0) ||
  (0x401000 ≤ r.base && r.base % 64 != 0x18 && r.base % 64 != 0x30 && r.s0 % 64 == 0 && r.s1 % 64 == 0 && r.s2 % 64 == 0)

theorem ActingFlags.bounds {a : Nat} (h : ActingFlags a) :
    0x400000 ≤ a ∧ a < 0x830000 ∧ (0x401000 ≤ a → a % 64 = 0x18 ∨ a % 64 = 0x30) := by
  obtain ⟨i, ⟨hi, rfl⟩ | ⟨hi, rfl⟩ | ⟨hi, rfl⟩⟩ := h <;> simp only [Reg.addr, LANE_AUX_CFG, LANE_PRBS, MAC_AUX_CTL] <;> omega

theorem Reg.addr_ne_of_beside {r : Reg} {a : Nat} (hr : r.besideActingFlags = true) (h : ActingFlags a) (i j k : Nat) : r.addr i j k ≠ a := by
  obtain ⟨hlo, hhi, hmod⟩ := h.bounds
  simp only [Reg.besideActingFlags, Bool.or_eq_true, Bool.and_eq_true, decide_eq_true_iff, beq_iff_eq, bne_iff_ne, and_assoc] at hr
  obtain (hb | ⟨hb, h0, h1, h2⟩) | ⟨hb, hm, hm', h0, h1, h2⟩ := hr
  · unfold Reg.addr; omega
  · simp only [Reg.addr, h0, h1, h2]; omega
  · have hdist : (r.s0 * i + r.s1 * j + r.s2 * k) % 64 = 0 := by simp [Nat.add_mod, Nat.mul_mod, h0, h1, h2]
    unfold Reg.addr; omega

namespace FlagStep

section
variable {e : Nat × Nat} {s t : State}

theorem ite {c : Prop} [Decidable c] {u : State} (ht : FlagStep e s t) (hu : FlagStep e s u) : FlagStep e s (if c then t else u) := by
  split <;> assumption

/-! ### Operations that change neither registers nor marks -/

theorem count (h : FlagStep e s t) {c : Cnt} {n i j : Nat} : FlagStep e s (t.count c n i j) := h.of_eq rfl rfl rfl

theorem raise (h : FlagStep e s t) {cls level code info : Nat} : FlagStep e s (t.raise cls level code info) := h.of_eq rfl rfl rfl

theorem setMp (h : FlagStep e s t) {p : Nat} {f : MacPort → MacPort} : FlagStep e s (t.setMp p f) := h.of_eq rfl rfl rfl

theorem ev (h : FlagStep e s t) {code slice n : Nat} {cls : Option Nat} : FlagStep e s (t.ev code slice cls n) := h.of_eq rfl rfl rfl

theorem setCopy (h : FlagStep e s t) {c : Nat} {x : Copy} : FlagStep e s (t.setCopy c x) := h.of_eq rfl rfl rfl

theorem setFrame (h : FlagStep e s t) {f : Nat} {x : Frame} : FlagStep e s (t.setFrame f x) := h.of_eq rfl rfl rfl

theorem setTp (h : FlagStep e s t) {p : Nat} {f : TmPort → TmPort} : FlagStep e s (t.setTp p f) := h.of_eq rfl rfl rfl

theorem setLn (h : FlagStep e s t) {n : Nat} {f : LaneState → LaneState} : FlagStep e s (t.setLn n f) := h.of_eq rfl rfl rfl

theorem setFwd (h : FlagStep e s t) {x : Fwd} : FlagStep e s { t with fwd := x } := h.of_eq rfl rfl rfl

theorem setStk (h : FlagStep e s t) {x : Stoker} : FlagStep e s { t with stk := x } := h.of_eq rfl rfl rfl

theorem setTm (h : FlagStep e s t) {x : Tm} : FlagStep e s { t with tm := x } := h.of_eq rfl rfl rfl

theorem setTab (h : FlagStep e s t) {x : Tables} : FlagStep e s { t with tab := x } := h.of_eq rfl rfl rfl

theorem setTmem (h : FlagStep e s t) {n : Nat} {f : TrkMem → TrkMem} : FlagStep e s (t.setTmem n f) := h.of_eq rfl rfl rfl

theorem setTgrp (h : FlagStep e s t) {sl g : Nat} {f : TrkGrp → TrkGrp} : FlagStep e s (t.setTgrp sl g f) := h.of_eq rfl rfl rfl

/-! ### Frames and copies -/

theorem settleL (h : FlagStep e s t) {n : Nat} {tallies : List Nat} {debits : List (Nat × Nat)} :
    FlagStep e s (t.settleL n tallies debits) := by
  refine foldl (foldl h fun t _ => ?_) fun t _ => ?_ <;> exact (refl e t).of_eq rfl rfl rfl

theorem releaseCopy (h : FlagStep e s t) {x : Copy} : FlagStep e s (t.releaseCopy x) := by
  unfold State.releaseCopy
  split
  · exact h.of_eq rfl rfl rfl
  · exact h

theorem uncharge (h : FlagStep e s t) {x : Copy} : FlagStep e s (t.uncharge x) := ite h (h.of_eq rfl rfl rfl)

theorem oweCharge (h : FlagStep e s t) {x : Copy} : FlagStep e s (t.oweCharge x) := ite h (h.of_eq rfl rfl rfl)

theorem planAll (h : FlagStep e s t) {start : Nat} {l : List Nat} : FlagStep e s (t.planAll start l).1 := by
  induction l generalizing t start with
  | nil => exact h
  | cons c l ih =>
    refine ih (t := t.setCopy c _) ?_
    exact h.of_eq rfl rfl rfl

theorem replan (h : FlagStep e s t) {p : Nat} : FlagStep e s (t.replan p) := h.planAll.of_eq rfl rfl rfl

theorem digestBytes (h : FlagStep e s t) {k : Option Nat} {n : Nat} : FlagStep e s (t.digestBytes k n) := by
  unfold State.digestBytes
  split
  · exact h.of_eq rfl rfl rfl
  · exact h

theorem rxEnd (h : FlagStep e s t) {f n : Nat} {b : List Byte} : FlagStep e s (t.rxEnd f n b) := by
  unfold State.rxEnd
  exact h.setStk

theorem tidyFrame (h : FlagStep e s t) {f : Nat} : FlagStep e s (t.tidyFrame f) := ite (h.of_eq rfl rfl rfl) h

theorem noDomainFault (h : FlagStep e s t) {p : Nat} : FlagStep e s (t.noDomainFault p) := ite (h.of_eq rfl rfl rfl) h

theorem abortGen (h : FlagStep e s t) {p : Nat} : FlagStep e s (t.abortGen p) := by
  unfold State.abortGen
  split
  · exact h
  · exact h.of_eq rfl rfl rfl

theorem insertErr (h : FlagStep e s t) {n : Nat} : FlagStep e s (t.insertErr n) := ite h.setLn h

variable (he : ActingFlags e.1)
include he

/-- A write of a field of a register beside the three keeps their flags. -/
theorem setF_beside (h : FlagStep e s t) {x : Fld} {v i j k : Nat} (hx : x.reg.besideActingFlags = true) :
    FlagStep e s (t.setF x v i j k) :=
  h.setF fun ha => absurd ha (Reg.addr_ne_of_beside hx he i j k)

theorem infl (h : FlagStep e s t) {slot : Nat} {d : Int} : FlagStep e s (t.infl slot d) := h.setF_beside he rfl

theorem setDeficit (h : FlagStep e s t) {p q : Nat} {d : Int} : FlagStep e s (t.setDeficit p q d) := h.setF_beside he rfl

theorem endCopy (h : FlagStep e s t) {c : Nat} {infl : Bool} : FlagStep e s (t.endCopy c infl) := by
  have hcharge : FlagStep e s (if (t.copy c).state = .residue then t.releaseCopy (t.copy c)
      else ((t.releaseCopy (t.copy c)).uncharge (t.copy c)).oweCharge (t.copy c)) := ite h.releaseCopy h.releaseCopy.uncharge.oweCharge
  have hinfl : FlagStep e s (if infl = true then State.infl _ (t.copy c).slot (-1) else _) := ite (hcharge.infl he) hcharge
  exact hinfl.of_eq rfl rfl rfl

theorem unpend (h : FlagStep e s t) {c : Nat} : FlagStep e s (t.unpend c) := by
  refine setF_beside he ?_ (x := TM_CHIP_STAT_RES_USED) rfl
  exact h.of_eq rfl rfl rfl

theorem dropCopy (h : FlagStep e s t) {c : Nat} : FlagStep e s (t.dropCopy c) := by
  refine endCopy he (ite ?_ (ite (h.unpend he) h))
  exact h.of_eq rfl rfl rfl

theorem crossDrop (h : FlagStep e s t) {p q : Nat} {cls : Option Nat} : FlagStep e s (t.crossDrop p q cls) := by
  have hc : FlagStep e s ((t.count C_TM_XDROP 1 p).ev 0x022 (sliceOf p) cls) := h.of_eq rfl rfl rfl
  have hmode : FlagStep e s (State.satF _ CHIP_MODE_DRAIN_DROP_COUNT 1) := hc.setF_beside he rfl
  exact ite (hmode.of_eq rfl rfl rfl) hc

theorem flushAdmitted (h : FlagStep e s t) {c : Nat} : FlagStep e s (t.flushAdmitted c) := by
  refine dropCopy he (crossDrop he ?_)
  exact h.of_eq rfl rfl rfl

theorem undecide (h : FlagStep e s t) {x : Copy} : FlagStep e s (t.undecide x) := by
  refine ite ?_ h
  exact (h.setDeficit he).of_eq rfl rfl rfl

theorem flushCopy (h : FlagStep e s t) {drain : Bool} {c : Nat} : FlagStep e s (t.flushCopy drain c) := 
  ite (h.flushAdmitted he) (dropCopy he (h.undecide he).count.ev.setCopy.setTm)

theorem abortCopy (h : FlagStep e s t) {c : Nat} : FlagStep e s (t.abortCopy c) := 
  (endCopy he h.settleL.count).setMp

theorem addBack (h : FlagStep e s t) {p q charged l : Nat} : FlagStep e s (t.addBack p q charged l) := ite h (h.setDeficit he)

theorem copyEnd (h : FlagStep e s t) {n : Nat} {good : Bool} {c : Nat} : FlagStep e s (t.copyEnd n good c) := by
  refine addBack he ?_
  exact h.of_eq rfl rfl rfl

theorem rxDrop (h : FlagStep e s t) {f : Nat} : FlagStep e s (t.rxDrop f) := by
  refine foldl (foldl h fun t r => infl he ?_) fun t _ => ?_ <;> exact (refl e t).of_eq rfl rfl rfl

theorem frameOver (h : FlagStep e s t) {f : Nat} {fate : Fate} : FlagStep e s (t.frameOver f fate) := by
  unfold State.frameOver
  dsimp only
  have hcopies : ∀ {u : State} {l : List Nat} {n : Nat} {good : Bool}, FlagStep e s u →
      FlagStep e s (l.foldl (fun s c => s.copyEnd n good c) u) := fun hu => hu.foldl fun t _ => (refl e t).copyEnd he
  refine tidyFrame (ite (rxEnd (hcopies (setFrame ?_))) (rxDrop he (hcopies (setFrame ?_)))) <;>
    exact h.settleL.digestBytes.foldl fun t _ => (refl e t).addBack he

theorem cutFrame (h : FlagStep e s t) {f : Nat} : FlagStep e s (t.cutFrame f) := ite (h.of_eq rfl rfl rfl) (h.frameOver he)

/-! ### Ports -/

theorem startFlush (h : FlagStep e s t) {p : Nat} : FlagStep e s (t.startFlush p) := by
  unfold State.startFlush
  dsimp only
  refine setTp (replan (setF_beside he (foldl (foldl h ?_) ?_) rfl))
  · exact fun t _ => (refl e t).flushCopy he
  · exact fun t _ => (refl e t).of_eq rfl rfl rfl

theorem tmPortDown (h : FlagStep e s t) {p : Nat} : FlagStep e s (t.tmPortDown p) := by
  have hf : FlagStep e s (t.startFlush p) := h.startFlush he
  exact ite hf (hf.setTab.setF_beside he rfl)

theorem domDown (h : FlagStep e s t) {p : Nat} : FlagStep e s (t.domDown p) :=
  ite h ((h.noDomainFault.setF_beside he rfl).setF_beside he rfl)

theorem cutPort (h : FlagStep e s t) {p : Nat} : FlagStep e s (t.cutPort p) := by
  unfold State.cutPort
  dsimp only
  refine setF_beside he (setF_beside he (setMp (setFwd (foldl (abortGen (foldl h ?_)) ?_))) rfl) rfl
  · exact fun t _ => (refl e t).abortCopy he
  · exact fun t _ => (refl e t).cutFrame he

theorem portTo (h : FlagStep e s t) {p st : Nat} : FlagStep e s (t.portTo p st) := by
  have hst : FlagStep e s (t.setF MAC_PORT_STAT_STATE st p) := h.setF_beside he rfl
  have hdown : FlagStep e s ((((t.setF MAC_PORT_STAT_STATE st p).flag MAC_PORT_STAT_DOWN_EV p).cutPort p).domDown p) :=
    (hst.flag.cutPort he).domDown he
  exact ite (ite (hdown.tmPortDown he) hdown) (hst.cutPort he)

theorem portDown (h : FlagStep e s t) {p : Nat} : FlagStep e s (t.portDown p) := ite (h.portTo he) h

theorem showFault (h : FlagStep e s t) {p : Nat} : FlagStep e s (t.showFault p) := h.setF_beside he rfl

/-! ### Trunk members -/

theorem memTo (h : FlagStep e s t) {n st : Nat} : FlagStep e s (t.memTo n st) := by
  unfold State.memTo
  dsimp only
  have hst : FlagStep e s (t.setF TRK_MEM_STAT_STATE st n) := h.setF_beside he rfl
  have hraise : ∀ {u : State} {c : Prop} [Decidable c] {cls level code info : Nat}, FlagStep e s u →
      FlagStep e s (if c then u.raise cls level code info else u) := fun hu => ite (hu.of_eq rfl rfl rfl) hu
  exact ite h (hraise (hraise (ite hst.flag hst)))

theorem setFsp (h : FlagStep e s t) {k : Nat} {x : Fsp} : FlagStep e s (t.setFsp k x) := by
  refine setF_beside he (setF_beside he ?_ (x := TRK_FSP_STAT_RX_LEVEL) rfl) (x := TRK_FSP_STAT_TX_LEVEL) rfl
  exact h.of_eq rfl rfl rfl

theorem trkEval (h : FlagStep e s t) {sl g : Nat} : FlagStep e s (t.trkEval sl g) := by
  unfold State.trkEval
  extract_lets ls m formed rx tx was p tShown tUp lost tFlue tForgot tFault allAis tEv tRaised
  have hShown : FlagStep e s tShown := (h.setF_beside he rfl).setF_beside he rfl
  have hFlue : FlagStep e s tFlue := by
    unfold tFlue
    split
    · exact hShown.setTgrp
    · exact ite (setFsp he (hShown.setTgrp.setF_beside he rfl)) (hShown.setTgrp.setF_beside he rfl)
  have hForgot : FlagStep e s tForgot := ite hFlue.setTgrp hFlue
  have hFault : FlagStep e s tFault := hForgot.setMp.showFault he
  have hEv : FlagStep e s tEv := hFault.flag
  have hRaised : FlagStep e s tRaised := ite hEv hEv.raise
  exact ite (ite (hRaised.portDown he) hRaised) hFault

theorem memLos (h : FlagStep e s t) {n : Nat} : FlagStep e s (t.memLos n) := by
  unfold State.memLos
  split
  · exact h
  · exact (h.setTmem.memTo he).trkEval he

theorem memData (h : FlagStep e s t) {n : Nat} : FlagStep e s (t.memData n) := by
  unfold State.memData
  split
  · exact h
  · exact h.setTmem.memTo he

/-! ### Lanes -/

theorem leftData (h : FlagStep e s t) {n : Nat} : FlagStep e s (t.leftData n) := by
  unfold State.leftData
  refine ite (h.portDown he) ?_
  split
  · exact h.memLos he
  · split
    · exact (h.portDown he).setF_beside he rfl
    · exact h

theorem laneSet (h : FlagStep e s t) {n st : Nat} : FlagStep e s (t.laneSet n st) := by
  have hst : FlagStep e s (t.setF LANE_STAT_STATE st n) := h.setF_beside he rfl
  have hlocks : FlagStep e s ([LANE_STAT_BLOCK_LOCK, LANE_STAT_AM_LOCK, LANE_STAT_TX_EMBER, LANE_STAT_RX_EMBER, LANE_STAT_FROZEN].foldl
      (fun s x => s.setF x 0 n) (t.setF LANE_STAT_STATE st n)) :=
    ((((hst.setF_beside he rfl).setF_beside he rfl).setF_beside he rfl).setF_beside he rfl).setF_beside he rfl
  exact ite hst (ite (hlocks.setLn.leftData he) hlocks.setLn)

theorem attempt (h : FlagStep e s t) {n : Nat} : FlagStep e s (t.attempt n) :=
  laneSet he (setLn (h.setF_beside he (x := LANE_ATTEMPTS_COUNT) rfl))

theorem laneOff (h : FlagStep e s t) {n : Nat} : FlagStep e s (t.laneOff n) :=
  ((h.laneSet he).setF_beside he rfl).setF_beside he rfl

theorem laneOffCause (h : FlagStep e s t) {n cause : Nat} : FlagStep e s (t.laneOffCause n cause) := (h.laneOff he).setF_beside he rfl

theorem startLane (h : FlagStep e s t) {n : Nat} : FlagStep e s (t.startLane n) :=
  ite h (ite (h.laneSet he) (ite h (ite (ite ((h.laneSet he).memData he) (h.laneSet he)) (h.attempt he))))

/-! ### What the writes of the three registers set in motion -/

theorem auxRate (h : FlagStep e s t) {i rate : Nat} (hb : 3 ≤ e.2) : FlagStep e s (t.auxRate i rate) := by
  have hrate : FlagStep e s (t.setF LANE_AUX_CFG_RATE rate i) := h.setF fun _ => .inr hb
  refine ite h.flag (ite h (laneOffCause he ?_))
  exact hrate.of_eq rfl rfl rfl

theorem prbsSet (h : FlagStep e s t) {n pattern : Nat} {gen chk : Bool} (hb : 9 ≤ e.2) : FlagStep e s (t.prbsSet n gen chk pattern) := by
  have hown {u : State} (hu : FlagStep e s u) {x : Fld} {v : Nat} (hx : x.lsb + x.w ≤ 9) : FlagStep e s (u.setF x v n) :=
    hu.setF fun _ => .inr (hx.trans hb)
  unfold State.prbsSet
  extract_lets fresh tStored tLock tGen tFrom tCause
  have hStored : FlagStep e s tStored := hown (hown (hown h (by decide)) (by decide)) (by decide)
  have hLock : FlagStep e s tLock := ite hStored (hown hStored (by decide))
  have hGen : FlagStep e s tGen := ite hLock hLock.setLn
  have hFrom : FlagStep e s tFrom := ite hGen.setLn hGen
  have hCause : FlagStep e s tCause := ite (hFrom.setF_beside he rfl) hFrom
  exact ite (ite hFrom (hCause.laneSet he)) (ite (ite (hFrom.attempt he) (hFrom.laneOff he)) hFrom)

theorem macAux (h : FlagStep e s t) {i : Nat} {v : Word} (hb : 2 ≤ e.2) : FlagStep e s (t.macAux i v) := by
  have hown {u : State} (hu : FlagStep e s u) {x : Fld} {v : Nat} (hx : x.lsb + x.w ≤ 2) : FlagStep e s (u.setF x v i) :=
    hu.setF fun _ => .inr (hx.trans hb)
  have hsleep {u : State} (hu : FlagStep e s u) : FlagStep e s (u.auxSleep i) :=
    setStk (portTo he (laneOffCause he (hown hu (x := MAC_AUX_CTL_SLEEP) (by decide))))
  have hwake {u : State} (hu : FlagStep e s u) : FlagStep e s (u.auxWaken i) := by
    have hw : FlagStep e s (u.setF MAC_AUX_CTL_SLEEP 0 i) := hown hu (by decide)
    exact startLane he (setF_beside he (ite (hw.setF_beside he rfl) hw) (x := LANE_BACKOFF_FAILS) rfl)
  have hen : FlagStep e s (t.setF MAC_AUX_CTL_WAKE_EN (wordBits v 1 1) i) := hown h (by decide)
  exact ite (hsleep hen) (ite (hwake hen) hen)

end
end FlagStep
end Sys2Proof.Machine
end

section
/-! A write of a register with flags, and R468 for it. -/

namespace Sys2Proof.Machine

/-! ### The fields that a write stores -/

/-- Storing a written word keeps the bits outside the RW fields. -/
theorem storeFields_getLsbD_out {old v : Word} {fs : List Fld} {n : Nat} (h : ∀ y ∈ fs, y.acc = .rw → n < y.lsb ∨ y.lsb + y.w ≤ n) :
    (storeFields old v fs).getLsbD n = old.getLsbD n := by
  unfold storeFields
  induction fs generalizing old with
  | nil => rfl
  | cons y fs ih =>
    rw [List.foldl_cons, ih fun z hz => h z (List.mem_cons_of_mem _ hz)]
    split
    · next hy => exact wordPut_getLsbD_out _ _ (h y List.mem_cons_self hy)
    · rfl

theorem FlagStep.storeRw {e : Nat × Nat} {s t : State} (h : FlagStep e s t) {p : Place} {v : Word}
    (hp : p.reg.addr p.i p.j p.k = e.1 → ∀ y ∈ p.fields, y.acc = .rw → e.2 < y.lsb ∨ y.lsb + y.w ≤ e.2) :
    FlagStep e s (t.storeRw p v) :=
  h.rset fun ha => storeFields_getLsbD_out (hp ha)

/-! ### What follows the clearing of the flags -/

/-- A write of a register that is no configuration register clears flags, stores fields and acts. -/
theorem State.placeWrite_of_not_cfg {p : Place} (hcfg : p.reg.cfg = false) (s : State) (v : Word) :
    s.placeWrite p v =
      (if p.reg.act.storesItself = true then s.clearFlags p v else (s.clearFlags p v).storeRw p v).act p v := by
  simp [State.placeWrite, hcfg]

theorem State.placeWrite_of_no_act {p : Place} (hcfg : p.reg.cfg = false) (hact : p.reg.act = .none) (s : State) (v : Word) :
    s.placeWrite p v = (s.clearFlags p v).storeRw p v := by
  simp [State.placeWrite_of_not_cfg hcfg, hact, State.act, Act.storesItself]

section
variable {s : State} {v : Word} {a : Nat} {p : Place} (hp : placeOf a = some p) {x : Fld} (hx : x ∈ p.fields) (hacc : x.acc = .w1c)
  {b : Nat}
include hp hx hacc

/-- What a write sets in motion keeps the flags of its own register. -/
theorem FlagStep.act {t : State} (h : FlagStep (a, x.lsb + b) s t) : FlagStep (a, x.lsb + b) s (t.act p v) := by
  obtain ⟨hcat, haddr, hi⟩ := placeOf_spec hp
  unfold State.act
  obtain hact | ⟨hact, hreg, hlsb⟩ | ⟨hact, hreg, hlsb⟩ | ⟨hact, hreg, hlsb⟩ := act_in_catalogue _ hcat x hx hacc <;> dsimp only at hact <;>
    rw [hact]
  · exact h
  all_goals
    rw [hreg.addr] at haddr
    rw [hreg.2.2.1] at hi
    have hlt := hi ▸ dimIndex_lt _ p.reg.s0 (by decide)
  · exact h.auxRate ⟨p.i, .inl ⟨hlt, by simpa [Reg.addr, LANE_AUX_CFG] using haddr.symm⟩⟩ (by dsimp only; omega)
  · have he : ActingFlags a := ⟨p.i, .inr (.inl ⟨hlt, by simpa [Reg.addr, LANE_PRBS] using haddr.symm⟩)⟩
    have hset := h.prbsSet he (n := p.i) (gen := wrBit v 4) (chk := wrBit v 5) (pattern := wordBits v 0 4) (by dsimp only; omega)
    exact hset.insertErr.ite hset
  · exact h.macAux ⟨p.i, .inr (.inr ⟨hlt, by simpa [Reg.addr, MAC_AUX_CTL] using haddr.symm⟩)⟩ (by dsimp only; omega)

variable (hb : b < x.w)
include hb

/-- Behind the clearing, a write keeps the flags of its register. -/
theorem FlagStep.placeWrite : FlagStep (a, x.lsb + b) (s.clearFlags p v) (s.placeWrite p v) := by
  obtain ⟨hcat, haddr, -⟩ := placeOf_spec hp
  obtain ⟨hcfg, -, -, hapart⟩ := flag_in_catalogue _ hcat x hx hacc
  rw [State.placeWrite_of_not_cfg hcfg]
  have hstore : FlagStep (a, x.lsb + b) (s.clearFlags p v) ((s.clearFlags p v).storeRw p v) := by
    refine (FlagStep.refl _ _).storeRw fun _ y hy hrw => ?_
    obtain h | h := hapart y hy hrw
    · exact .inr (h.trans (Nat.le_add_right _ _))
    · exact .inl (by dsimp only; omega)
  exact FlagStep.act hp hx hacc ((FlagStep.refl _ _).ite hstore)

/-- Behind the clearing, a write keeps the companions of its register's flags. -/
theorem FlagStep.placeWrite_companion {c : Nat × Nat} (hc : x.sa = some c) :
    FlagStep (a + c.1, c.2 + b) (s.clearFlags p v) (s.placeWrite p v) := by
  obtain ⟨hcat, haddr, -⟩ := placeOf_spec hp
  obtain ⟨-, hown, hother⟩ := companion_in_catalogue _ hcat x hx hacc c hc
  by_cases h0 : c.1 = 0
  · obtain ⟨y, hy, hyacc, -, hlsb, hw⟩ := hown h0
    simpa [h0, hlsb] using FlagStep.placeWrite (s := s) (v := v) hp hy hyacc (hw ▸ hb)
  · rw [State.placeWrite_of_no_act (flag_in_catalogue _ hcat x hx hacc).1 (hother h0)]
    exact (FlagStep.refl _ _).storeRw fun h => by dsimp only at h; omega

/-- A flag with a companion is no companion: writing over its register leaves it unmarked where it was. -/
theorem State.not_mem_hwSet_clearFlags (hsa : x.sa ≠ none) (h : (a, x.lsb + b) ∉ s.hwSet) :
    (a, x.lsb + b) ∉ (s.clearFlags p v).hwSet := by
  obtain ⟨hcat, haddr, -⟩ := placeOf_spec hp
  rw [State.clearFlags_eq, haddr]
  intro hm
  obtain hm | ⟨y, hy, c, hc, heq⟩ := State.mem_hwSet_clearBits hm
  · exact h hm
  · obtain ⟨⟨hyf, hyacc⟩, hyb, -⟩ := Place.mem_cleared.1 hy
    obtain ⟨-, hown, -⟩ := companion_in_catalogue _ hcat y.1 hyf hyacc c hc
    obtain ⟨h0, hbit⟩ := Prod.mk.inj heq
    obtain ⟨z, hz, hzacc, hzsa, hzlsb, hzw⟩ := hown (by omega)
    have hapart := flags_apart_in_catalogue _ hcat x hx hacc hsa z hz hzacc hzsa
    unfold Fld.apart at hapart
    omega

end

/-- The marks hold after the flags of a register have been cleared. -/
theorem State.MarksHold.clearFlags {s : State} (h : s.MarksHold) {a : Nat} {p : Place} (hp : placeOf a = some p) (v : Word) :
    (s.clearFlags p v).MarksHold := by
  rw [State.clearFlags_eq]
  refine h.clearBits fun y hy c hc => ?_
  obtain ⟨⟨hyf, hyacc⟩, hyb, -⟩ := Place.mem_cleared.1 hy
  obtain ⟨hle, -⟩ := companion_in_catalogue _ (placeOf_spec hp).1 y.1 hyf hyacc c hc
  omega

/-! ### R468 -/

theorem exec_registerWrite {a : BitVec 48} {p : Place} (h4 : a.toNat % 4 = 0) (hc : counterAt a.toNat = none) (hp : placeOf a.toNat = some p)
    (m : Fin 6) (v : Word) (s : State) :
    exec (.registerWrite m a v) s = .next ((s.evAt 0x051 false m.val a.toNat).placeWrite p v) := by
  change execRegisterWrite m a v s = _
  simp [execRegisterWrite, isCsr, State.csrWrite, h4, hc, hp]

/-- A write of 1 to a flag: a flag that hardware set in this cc stays 1 and sets its companion, another is cleared, and one that hardware sets
behind the write is 1 and sets its companion. -/
theorem State.placeWrite_flag {s : State} (hs : s.MarksHold) {a : Nat} {p : Place} (hp : placeOf a = some p) {x : Fld} (hx : x ∈ p.fields)
    (hacc : x.acc = .w1c) {b : Nat} (hb : b < x.w) {v : Word} (hv : v.getLsbD (x.lsb + b) = true) :
    ((a, x.lsb + b) ∈ s.hwSet → (s.placeWrite p v).flagAt (a, x.lsb + b) = true ∧
      ∀ c, x.sa = some c → (s.placeWrite p v).flagAt (a + c.1, c.2 + b) = true) ∧
    ((a, x.lsb + b) ∉ (s.placeWrite p v).hwSet → (s.placeWrite p v).flagAt (a, x.lsb + b) = false) ∧
    (a, x.lsb + b) ∈ (s.placeWrite p v).swClr := by
  have haddr := (placeOf_spec hp).2.1
  have hkeep := FlagStep.placeWrite (s := s) (v := v) hp hx hacc hb
  have hmarks := hs.clearFlags hp v
  have hmem : (x, b) ∈ p.cleared v := Place.mem_cleared.2 ⟨⟨hx, hacc⟩, hb, wrBit_eq v _ ▸ hv⟩
  have hclear : s.clearFlags p v = s.clearBits a (p.cleared v) := haddr ▸ s.clearFlags_eq p v
  refine ⟨fun hset => ⟨?_, fun c hc => ?_⟩, fun hset => ?_, ?_⟩
  · exact hkeep.stays (hmarks _ (hclear ▸ State.hwSet_subset_clearBits s a _ hset))
  · exact (FlagStep.placeWrite_companion hp hx hacc hb hc).stays
      (hmarks _ (hclear ▸ State.companion_mem_clearBits hmem hset hc))
  · rw [← Bool.not_eq_true]
    intro hbit
    obtain hbit | hm := hkeep.marked hbit
    · rw [hclear] at hbit
      exact hset (hkeep.hwSet (hclear ▸ State.flagAt_clearBits_self hmem hbit))
    · exact hset hm
  · rw [hkeep.swClr, hclear]
    exact State.mem_swClr_clearBits hmem

/-- Settles O39: a write clears flags one by one, each by R468, and what it stores and sets in motion behind that keeps them. -/
theorem flagsThatAreSetAgainAreNotLost : Obligations.FlagsThatAreSetAgainAreNotLost := by
  unfold Obligations.FlagsThatAreSetAgainAreNotLost
  refine ⟨flag_has_or_is_companion, fun s m a v h4 hcnt p hp x hx hacc b hb hv => ?_⟩
  dsimp only
  intro hs
  obtain ⟨hcat, haddr, -⟩ := placeOf_spec hp
  obtain ⟨hcfg, hreg, hword, -⟩ := flag_in_catalogue _ hcat x hx hacc
  have hxaddr : x.reg.addr p.i p.j p.k = a.toNat := (hreg.addr _ _ _).trans haddr
  obtain ⟨hset, hclear, hmarked⟩ := State.placeWrite_flag (s := s.evAt 0x051 false m.val a.toNat) hs hp hx hacc hb hv
  refine ⟨_, exec_registerWrite h4 hcnt hp m v s, hset, fun _ => hclear, fun hn hact hsa => hclear ?_, ?_, fun c hc => ?_⟩
  · rw [State.placeWrite_of_no_act hcfg hact]
    exact State.not_mem_hwSet_clearFlags hp hx hacc hb hsa hn
  · rw [← hxaddr]
    exact State.flag_bit _ x p.i p.j p.k b (by omega)
  · have hle := (companion_in_catalogue _ hcat x hx hacc c hc).1
    rw [← hxaddr] at hmarked ⊢
    exact State.flag_companion hc hmarked (by omega)

end Sys2Proof.Machine
end
